-- ==== Sys2Proof/Word.lean ====
section
/-! DEFINITION. The word types of the block: bytes, 32-bit registers (R674) and 64-bit numbers (R14).
-/

namespace Sys2Proof

/-- One byte of any memory. -/
abbrev Byte := BitVec 8

/-- One BAR0 register (R674). -/
abbrev W32 := BitVec 32

/-- A 64-bit value: an accession number, a step number, an address. -/
abbrev W64 := BitVec 64

/-- A 16-bit value: a device number, a layer identifier, a format descriptor (R52). -/
abbrev W16 := BitVec 16

end Sys2Proof
end

