-- ==== Sys2Proof/Syntax.lean ====
section
/-! DEFINITION. The commands and events of the block: one constructor per row of the operation table.
-/

namespace Sys2Proof

/-- Who asked for an urgent Sentinel sample (R539). -/
inductive UrgBy where
  | governor
  | warden
  | host
  deriving DecidableEq, Repr

/-- A layer's pairs in a report or at the trust barrier (R345, R339): SΔ and SW, or SW and ST. -/
structure LayerSums where
  layer : Nat
  a : W32 × W32
  b : W32 × W32
  deriving DecidableEq, Repr

/-- A device in a discovery's graph (R446, R447): its serial, the root it names, its up ports with each neighbour's
serial and port. -/
structure GraphNode where
  serial : Nat
  nominee : Option Nat := none
  table : List (Nat × Nat) := []
  links : List (Nat × Nat × Nat) := []
  deriving DecidableEq, Repr

/-- What a port learns in training (R420, R421): for each physical lane the far lane number, 4 where the lane failed;
bit k for an inverted lane k; the HELLO's serial, port and device number, and the round trip as FAB_PRTT counts it. -/
structure Training where
  lanes : List Nat
  inverted : Nat := 0
  serial : Nat
  port : Nat
  dev : Option Nat := none
  rtt : Nat := 0
  deriving DecidableEq, Repr

/-- A tile command (R468, R469), with the numbers its fields hold. -/
structure TileCmd where
  acc : Nat := 0
  layer : Nat := 0xFFFF
  oper : Nat := 0xFFFF
  flags : Nat := 0
  unitsel : Nat := 0
  mode : Nat := 0
  ta : Nat := 0
  tb : Nat := 0
  tc : Nat := 0
  td : Nat := 0
  da : Nat := 0
  db : Nat := 0
  dc : Nat := 0
  dd : Nat := 0
  tile : Nat := 0
  ofs : Nat := 0
  r0 : Nat := 0
  nr : Nat := 0
  k : Nat := 0
  p1 : Nat := 0
  p2 : Nat := 0
  deriving DecidableEq, Repr

/-- A command of the block, an event at its pins, a message that reaches it, or a thing its own sequencers do: one
constructor per row of the operation table, in its order. -/
inductive Instr where
  /-- POWER_UP (R502): The input enters its start window and the rails start in order, after which the Warden boot
  sequence runs. -/
  | powerUp (h0fail strap : Bool)
  /-- INPUT_QUALIFY (R497): The input stays inside 39 to 61 V for 25 ms and the hot-swap controller enables the
  power stages. -/
  | inputQualify (vin : Nat)
  /-- INPUT_OVERVOLTAGE (R496): The input rises above 62 V, every stage stops and PKG_FAULT_N is asserted. -/
  | inputOvervoltage (vin : Nat)
  /-- INPUT_ABOVE_RANGE (R496): The input rises above 60 V and GOV_EVT.OVIN is set while the stages keep running. -/
  | inputAboveRange (vin : Nat)
  /-- INPUT_UNDERVOLTAGE_HOLD (R516): The input falls below 40 V, the input ceiling applies and GOV_EVT.UVIN is
  set. -/
  | inputUndervoltageHold (vin : Nat)
  /-- INPUT_UNDERVOLTAGE_OFF (R496): The input falls below 38 V and every power stage stops. -/
  | inputUndervoltageOff (vin : Nat)
  /-- INPUT_OVERCURRENT (R498): The input current exceeds 50 A for 100 µs and the hot-swap controller disconnects
  the input. -/
  | inputOvercurrent
  /-- STUD_IMBALANCE (R499): The currents of a stud pair differ by more than 30 % for 1 ms, and the governor
  applies a 1,000 W ceiling. -/
  | studImbalance
  /-- EFUSE_TRIP (R503): A rail's eFuse trips, and the package turns off or the Warden powers down the non-hub
  rails. -/
  | efuseTrip (rail : Nat)
  /-- PHASE_LOSS (R504): A power-stage phase leaves its band for 1 µs and is opened; the remaining phases take its
  share. -/
  | phaseLoss (rail : Nat) (droop : Bool)
  /-- RAIL_BACK_IN_BAND (R504): A drooping VARR or VHV rail returns to its band and the held integration windows
  and programming cycles resume. -/
  | railBackInBand (rail : Nat)
  /-- OSCILLATOR_FAULT (R33): The Warden finds the reference oscillator off by more than 1 % or without an edge for
  1 µs, and raises a hub fault. -/
  | oscillatorFault
  /-- GOVERNOR_INTERVAL (R517): Every 10 µs the governor compares power with its target and moves the VCORE set
  point by at most 10 mV. -/
  | governorInterval (power mean : Nat)
  /-- BEAT_MEASUREMENT (R509): The replica stage's beats are counted over 10 µs and the slower half is reported in
  GOV_BEAT. -/
  | beatMeasurement (west east : Nat)
  /-- PACE_WINDOW_END (R519): A 100 ms PACE window ends and is counted outside the band if its mean power missed
  it. -/
  | paceWindowEnd (mean : Nat) (idle : Bool)
  /-- FLOW_INFERENCE (R513): The governor infers coolant flow from 1 s means and applies the flow ceiling when flow
  is low. -/
  | flowInference (power dt : Nat)
  /-- THROTTLE (R520): A diode reads above 105 °C and the governor lowers VCORE by 5 mV every 100 µs until all
  diodes read 104 °C or less. -/
  | throttle
  /-- THERMAL_TRIP (R521): A diode reads 110 °C or more for 10 µs, and the Warden stops issue and holds every
  array. -/
  | thermalTrip
  /-- THERMAL_TRIP_CLEAR (R521): Every diode reads below 100 °C after a trip and the tiles resume. -/
  | thermalTripClear
  /-- THERMAL_TRIP_HALT (R579): A thermal trip has lasted 10 s and the job halts. -/
  | thermalTripHalt
  /-- GOV_CTRL_WRITE (R517): A write of the governor mode takes effect at the next 10 µs interval. -/
  | govCtrlWrite (v : W32)
  /-- GOV_SET_WRITE (R515): A write of the set point is clamped to 500 to 1,800 W and takes effect at the next
  interval. -/
  | govSetWrite (v : W32)
  /-- SENTINEL_RESULT (R530): A Sentinel result completes, takes an accession number, updates SNC_VAL, checks its
  thresholds and is queued. -/
  | sentinelResult (urgent : Bool) (codes : List Nat)
  /-- SENTINEL_POWER_DOWN (R536): No code is pending and no sample is due within 25 periods, so the converter
  powers down. -/
  | sentinelPowerDown
  /-- SENTINEL_START_UP (R536): A sample falls due while the converter is down and a 30-period start-up begins. -/
  | sentinelStartUp
  /-- SENTINEL_LOOP_END (R537): The sequencer ends its loop and, if a swap is pending and the table passes its
  checks, copies in the shadow table. -/
  | sentinelLoopEnd
  /-- URGENT_REQUEST (R539): The governor, the Warden or the host requests a single sample, which waits in the
  urgent queue and takes the next period. -/
  | urgentRequest (chan : Nat) (who : UrgBy)
  /-- SNC_URG_WRITE (R539): A host write to SNC_URG requests an urgent sample, or is dropped when the urgent queue
  is full. -/
  | sncUrgWrite (chan : Nat)
  /-- SNC_QSTAT_READ (R533): A read of SNC_QSTAT removes and latches the oldest result queue entry. -/
  | sncQstatRead
  /-- SNC_THR_WRITE (R542): A write of a channel's limits takes effect from the next result. -/
  | sncThrWrite (chan : Nat) (v : W32)
  /-- SHADOW_TABLE_WRITE (R537): A host write to the shadow sequencer table, ignored while a swap is pending. -/
  | shadowTableWrite (entry word : Nat) (v : W32)
  /-- SWAP (R537): A write of SNC_CTRL.SWAP requests that the shadow table replace the active one at the end of the
  loop. -/
  | swap
  /-- SNC_CNT_CLR (R545): A write of SNC_CTRL.CNT_CLR clears every SNC_CNT_ register. -/
  | sncCntClr
  /-- PERST_N_ASSERT (R690): PERST_N is asserted, which restarts link training during boot or acts as a
  conventional reset after it. -/
  | perstNAssert
  /-- FLR (R459): A Function Level Reset or conventional reset performs a compute reset and resets the HAL_ and
  CTX_ registers. -/
  | flr
  /-- HOST_LINK_DOWN (R490): The PCIe link leaves L0 unrequested, and the device stops requests, abandons DMA and
  holds completions. -/
  | hostLinkDown
  /-- HOST_LINK_RETRAIN (R492): The link retrains without a reset, and the device writes held completions and
  resumes fetching. -/
  | hostLinkRetrain
  /-- HOST_MEMORY_FAULT (R460): A device read draws a poisoned completion, an Unsupported Request or a 50 ms
  timeout, and its command fails. -/
  | hostMemoryFault (acc : Nat)
  /-- GET_VERSION (R461): An SPDM GET_VERSION request over DOE. -/
  | getVersion (req : List Byte)
  /-- GET_CAPABILITIES (R461): An SPDM GET_CAPABILITIES request over DOE. -/
  | getCapabilities (req : List Byte)
  /-- NEGOTIATE_ALGORITHMS (R656): An SPDM NEGOTIATE_ALGORITHMS request, answered with Ed25519 and SHA-384. -/
  | negotiateAlgorithms (req : List Byte)
  /-- GET_DIGESTS (R461): An SPDM GET_DIGESTS request over DOE. -/
  | getDigests (req : List Byte)
  /-- GET_CERTIFICATE (R656): An SPDM GET_CERTIFICATE request for the slot 0 chain. -/
  | getCertificate (req : List Byte)
  /-- CHALLENGE (R656): An SPDM CHALLENGE, answered with a signed CHALLENGE_AUTH. -/
  | challenge (req : List Byte)
  /-- GET_MEASUREMENTS (R657): An SPDM GET_MEASUREMENTS request, answered with the measurement blocks and the
  attestation report. -/
  | getMeasurements (req : List Byte)
  /-- COMMAND_DOORBELL (R464): A host write to a halyard's command-ring doorbell, accepted or ignored by range. -/
  | commandDoorbell (h : Nat) (v : W32)
  /-- FEED_DOORBELL (R481): A host write to a feed-ring doorbell, checked against HAL_FDREL. -/
  | feedDoorbell (f : Nat) (v : W32)
  /-- CHECKPOINT_DOORBELL (R464): A host write to the checkpoint-ring doorbell. -/
  | checkpointDoorbell (v : W32)
  /-- HAL_ENABLE (R462): A write of 1 to HAL_CTRL.EN enables a halyard with its counts from zero. -/
  | halEnable (h : Nat)
  /-- HAL_STOP (R475): A write of 0 to HAL_CTRL.EN stops fetching at once and aborts fetched commands that have not
  started. -/
  | halStop (h : Nat)
  /-- HALYARD_STOPPED (R475): The last running command of a stopping halyard completes, STOPPING clears and the
  counts return to zero. -/
  | halyardStopped (h : Nat)
  /-- COMMAND_FETCH (R465): The device fetches a command in ring order and dispatches it, subject to FENCE and the
  accession check. -/
  | commandFetch (h : Nat)
  /-- HAL_CQHEAD_WRITE (R474): The host advances HAL_CQHEAD, which frees a full completion ring and resumes
  fetching. -/
  | halCqheadWrite (h : Nat) (v : W32)
  /-- HAL_IRQ_WRITE (R477): A host write that sets ARM sends the vector at once when completions are pending. -/
  | halIrqWrite (h : Nat) (v : W32)
  /-- IRQ_AGE_TIMEOUT (R477): The oldest unconsumed completion reaches TIME µs while ARM is set, and the MSI-X
  vector is sent. -/
  | irqAgeTimeout (h : Nat)
  /-- NOP (R472): A command that completes at once. -/
  | nop (acc : Nat)
  /-- LOAD (R407): A management command that names a charter, which the ensign checks and accepts or refuses. -/
  | load (acc addr len : Nat)
  /-- START (R472): A management command that starts the job after the READY exchange and, the first time, triggers
  the parameter return and full rewrites. -/
  | start (acc ctx : Nat)
  /-- STOP (R472): A management command that halts the job at the closing boundary of a named step. -/
  | stop (acc step : Nat)
  /-- UNLOAD (R472): A management command that discards the charter and clears INSVC on every array. -/
  | unload (acc : Nat)
  /-- ABORT (R489): A command that aborts a named command, settled against that command's completion by a
  mutual-exclusion element. -/
  | abort (acc target : Nat)
  /-- CHECKPOINT (R482): A management command that requests a checkpoint of the next committed step. -/
  | checkpoint (acc : Nat)
  /-- RESTORE (R487): A management command that verifies a checkpoint stream and makes its slots current. -/
  | restore (acc list count : Nat)
  /-- COPY (R472): A context command that copies bytes between host and device memory. -/
  | copy (acc src dst n ss ds : Nat)
  /-- RETIRE (R472): A management command that retires a logical column of a bank. -/
  | retire (acc tile array bank col : Nat)
  /-- TEST (R567): A management command that requests an on-demand test of a tile. -/
  | test (acc tile kind mode subject : Nat)
  /-- TENSOR (R472): A context command that stores a host tensor layout. -/
  | tensor (acc : Nat) (record : List Byte)
  /-- MVM (R132): A tile command that runs input vectors through an array and writes the logical column outputs. -/
  | mvm (c : TileCmd)
  /-- OPE_PRODUCT (R229): A tile command that computes a product on the OPE in output tiles. -/
  | opeProduct (c : TileCmd)
  /-- DPA_PRODUCT (R249): A tile command that computes a product on the DPA in panel runs. -/
  | dpaProduct (c : TileCmd)
  /-- LNF (R268): A Row Statistics Engine op that layer-normalises rows and records (μ, ρ). -/
  | lnf (c : TileCmd)
  /-- RMSF (R269): A Row Statistics Engine op that RMS-normalises rows and records (+0, ρ). -/
  | rmsf (c : TileCmd)
  /-- SMF (R272): A Row Statistics Engine op that computes soft maxima and records (M, S). -/
  | smf (c : TileCmd)
  /-- LNB (R274): A Row Statistics Engine op that computes the layer-norm backward pass and adds dγ and dβ. -/
  | lnb (c : TileCmd)
  /-- RMSB (R274): A Row Statistics Engine op that computes the RMS-norm backward pass and adds dγ. -/
  | rmsb (c : TileCmd)
  /-- SMB (R274): A Row Statistics Engine op that computes the soft-max backward pass. -/
  | smb (c : TileCmd)
  /-- XENT (R276): A Row Statistics Engine op that computes the cross-entropy loss pair and dz. -/
  | xent (c : TileCmd)
  /-- CONVERT (R75): A tile command that converts a tensor to another format. -/
  | convert (c : TileCmd)
  /-- AMAX (R702): A tile command that writes the largest magnitude of a range to one FP32 element. -/
  | amax (c : TileCmd)
  /-- STASH (R296): A job command that writes a tensor to the stash with zero-run compression. -/
  | stash (c : TileCmd)
  /-- UNSTASH (R296): A job command that decompresses a stashed tensor. -/
  | unstash (c : TileCmd)
  /-- SEND (R470): A job command that sends a tensor to another device in a traffic class. -/
  | send (c : TileCmd)
  /-- GRADADD (R300): A job command that adds a partial sum into the gradient buffer in fixed order. -/
  | gradadd (c : TileCmd)
  /-- TIL_NSTAT_READ (R110): A read of TIL_NSTAT latches the row, column, count and accession registers. -/
  | tilNstatRead (t : Nat)
  /-- TIL_RSE_LOSS_HI_READ (R288): A read of TIL_RSE_LOSS_HI latches TIL_RSE_LOSS_LO. -/
  | tilRseLossHiRead (t : Nat)
  /-- ARRAY_MVM (R140): An array integrates one slice of a vector on its active bank and converts its columns in
  258 slots. -/
  | arrayMvm (t a acc index slice : Nat) (np : Bool) (e : Int) (d : List Int)
  /-- CONVERTER_POWER_DOWN (R142): No conversion slot has run for 1,000 ns and the converters power down. -/
  | converterPowerDown (t a : Nat)
  /-- ARR_CNT_CLR (R158): A write of ARR_CTRL.CNT_CLR clears the array's ARR_CNT_ registers. -/
  | arrCntClr (t a : Nat)
  /-- RESIDUAL_CORRECTION (R213): The OPE adds the rank-r correction U·Vᵀ·m to a vector's array outputs. -/
  | residualCorrection (t a : Nat) (np stalled : Bool)
  /-- COVER (R251): The DPA computes the covered columns of a vector from the digital copy. -/
  | cover (t a : Nat) (np held : Bool)
  /-- COVER_STAGING (R252): The tile sequencer stages covered columns from memory into the cover region. -/
  | coverStaging (t : Nat)
  /-- PANEL_FETCH (R704): In digital forward mode a 64 KiB panel is fetched from memory into the cover region. -/
  | panelFetch (t a panel : Nat)
  /-- STATIONARY_OPERAND_FETCH (R236): The next stationary operand arrives in the tile store and a waiting
  row-register load can proceed. -/
  | stationaryOperandFetch (t tensor waited : Nat)
  /-- OPE_CNT_CLR (R260): A write of OPE_CTRL.CNT_CLR clears the OPE and DPA counters. -/
  | opeCntClr (t : Nat)
  /-- REWRITE_START (R166): All of an array's targets have reached the idle bank's digital copy and its rewrite
  starts. -/
  | rewriteStart (t a : Nat)
  /-- BANK_CLEAR (R175): A full rewrite erases every pair of the idle bank to level 0 in 40 µs. -/
  | bankClear (t a : Nat)
  /-- PROGRAMMING_CYCLE (R169): One 500 ns cycle pulses the selected pairs of a row, verify-reads them and decides
  each pair's next pulse. -/
  | programmingCycle (t : Nat)
  /-- PROGRAMMING_SUSPEND (R179): At a forward phase an array finishes its cycle or measurement MVM and suspends
  within 500 ns. -/
  | programmingSuspend (t a : Nat)
  /-- REFRESH_INTERVAL_EXPIRY (R192): RVINT minutes have passed since the last refresh and a refresh is requested
  for every array. -/
  | refreshIntervalExpiry
  /-- RVNOW (R192): A write of HUB_PRGCMD.RVNOW requests a refresh of every array. -/
  | rvnow
  /-- REMAP (R196): A logical column is retired to the lowest free spare entry, and the DPA covers it from the next
  boundary. -/
  | remap (t a b j cause : Nat)
  /-- ACTIVE_BANK_REVERIFY (R194): After a reset, the active bank gets a refresh rewrite, calibration and
  measurement before the array returns to service. -/
  | activeBankReverify (t a : Nat)
  /-- RESIDUAL_MEASUREMENT (R206): The array runs 512 Hadamard pattern MVMs on the idle bank and forms Δ and Ẽ. -/
  | residualMeasurement (t a : Nat)
  /-- FACTOR_BUILD (R209): The OPE builds U and V by subspace iteration in backward phases. -/
  | factorBuild (t a : Nat)
  /-- PN4_IMAGE_BUILD (R314): Wq and its factors are formed once the bank's digital copy is written. -/
  | pn4ImageBuild (t a b : Nat)
  /-- GROUP_SPILL (R282): A statistics group is spilled to the spill region, and its space is freed once the write
  completes. -/
  | groupSpill (t : Nat)
  /-- GROUP_RELOAD (R283): A spilled group is reloaded into the record area before its backward command starts. -/
  | groupReload (t acc : Nat)
  /-- ITEM_SELECT (R292): When an item completes or one becomes ready, the ensign selects the next ready F or B
  item, or idles in a bubble. -/
  | itemSelect
  /-- PHASE_CHANGE (R293): The ensign orders both Stewards to close the current phase. -/
  | phaseChange
  /-- HALF_DRAINED (R293): A Steward reports its half drained, and once both have reported the ensign opens the new
  phase. -/
  | halfDrained (half : Nat)
  /-- STEP_BOUNDARY (R181): The ensign orders the step boundary, after any WAIT or LAG1 hold, together with the
  bank swap and the boundary updates. -/
  | stepBoundary
  /-- FEED_DESCRIPTOR_COPY (R479): Once F(n) of micro-batch g − SLOTS has completed, descriptor g is checked and
  copied into its slot. -/
  | feedDescriptorCopy (ring : Nat)
  /-- BUCKET_SEND (R362): A full bucket's segments are sent in fixed order as store-slot credit allows. -/
  | bucketSend
  /-- REDUCTION_SEGMENT (R369): A host FRE receives a segment and adds it, then keeps or forwards the result. -/
  | reductionSegment (payload : List Byte)
  /-- SEGMENT_DELIVERY (R373): A root segment is delivered into the owner's summed gradient, once the engine has
  handled the previous outcome. -/
  | segmentDelivery (shard offset : Nat)
  /-- CONTRIB (R341): A scalar-tree contribution message, added with pair_add at its node. -/
  | contrib (step span : Nat) (hi lo : W32) (sat : Bool)
  /-- CLIP_MESSAGE (R343): The global norm and clip factor arrive and the engine starts applying the optimiser. -/
  | clipMessage (gnorm kappa : W32)
  /-- UPDATE_APPLY_COMPLETE (R345): An engine finishes writing the pending slot and sends its update reports. -/
  | updateApplyComplete (n : Nat)
  /-- REPORT (R346): An update report message, combined up the scalar tree and judged at the step root. -/
  | report (step span status part : Nat) (layers : List LayerSums)
  /-- TRUST (R339): A trust-barrier sums message, carried up and down the scalar tree. -/
  | trust (step : Nat) (down : Bool) (span part : Nat) (layers : List LayerSums)
  /-- VREQ (R377): A veto request reaches the step root, which vetoes the step or counts the request late. -/
  | vreq (step cause shard source : Nat)
  /-- OUTCOME (R380): A commit or veto message reaches a device, which commits or discards the pending slots,
  acknowledges and returns parameters. -/
  | outcome (step : Nat) (veto : Bool) (cause : Nat) (ratios : List W32)
  /-- ACK (R381): A device's acknowledgement of an outcome reaches the step root. -/
  | ack (step source : Nat)
  /-- PARAMETER_MESSAGE (R383): A parameter-class message is written into the idle bank's digital copy. -/
  | parameterMessage (payload : List Byte)
  /-- READY (R408): A READY message carries the charter identity to the step root, which starts the job once every
  device matches. -/
  | ready (id : W64) (crc : W32) (source : Nat)
  /-- ACTIVATION_MESSAGE (R410): An activation-class message arrives in an inbound queue. -/
  | activationMessage (back : Bool) (mb tensor off : Nat) (bytes : List Byte)
  /-- CREDIT_RETURN (R411): A receiver returns an activation credit and the sender's outbound queue may send. -/
  | creditReturn (back : Bool) (n : Nat)
  /-- FRE_CNT_CLR (R385): A write of FRE_CTRL.CNT_CLR clears every FRE_CNT_ register. -/
  | freCntClr
  /-- FRE_OUTCOME_READ (R386): A read of FRE_OUTCOME latches the outcome step and veto source registers. -/
  | freOutcomeRead
  /-- UPD_GNORM_READ (R357): A read of UPD_GNORM latches UPD_KAPPA. -/
  | updGnormRead (n : Nat)
  /-- LINK_TRAINING (R420): Signal is detected on a port, and the port trains, maps its lanes, exchanges HELLO and
  comes up. -/
  | linkTraining (p : Nat) (t : Training)
  /-- TRAINING_RETRY (R421): An untrained port with signal repeats training every 100 ms. -/
  | trainingRetry (p : Nat) (t : Training)
  /-- LINK_FRAME (R424): A link frame arrives and is accepted in sequence, or is discarded with a NAK. -/
  | linkFrame (p : Nat) (b : List Byte)
  /-- RETRY_TIMEOUT (R424): No ACK arrives within the retry timeout and the sender resends from its oldest
  unacknowledged frame. -/
  | retryTimeout (p : Nat)
  /-- LANE_LOSS (R428): A lane loses lock or yields 8 uncorrectable codewords, and the port retrains on three
  lanes. -/
  | laneLoss (p lane uncorrectable : Nat)
  /-- PORT_DOWN (R451): A port loses all signal and leaves the usable set, and its unacknowledged messages are
  resent on another port. -/
  | portDown (p : Nat)
  /-- FABRIC_MESSAGE (R439): A message arrives at a hop, which checks it, routes it and delivers it locally in flow
  order or forwards it. -/
  | fabricMessage (p : Nat)
  /-- FLOW_GAP_TIMEOUT (R437): A flow gap stays open for 1 ms and raises a fabric fault. -/
  | flowGapTimeout (src cls : Nat)
  /-- UNREACHABLE_TIMEOUT (R444): Messages wait 40 µs for a usable port without finding one, and a fabric fault is
  raised. -/
  | unreachableTimeout
  /-- DISCOVERY (R445): Discovery starts, floods announcements, chooses the numbering root and assigns numbers and
  tables. -/
  | discovery (others : List (Nat × GraphNode))
  /-- DISCOVERY_ANNOUNCEMENT (R446): A discovery announcement arrives and is forwarded once on every other up port. -/
  | discoveryAnnouncement (p : Nat) (n : GraphNode)
  /-- TABLE_SET (R449): A device receives its number and routing tables and switches to them as a whole. -/
  | tableSet (root num : W16) (epoch : W32) (grp mem : List W32)
  /-- DCTRL_START (R445): A write of FAB_DCTRL.START starts a discovery, or is refused while a charter is loaded. -/
  | dctrlStart (others : List (Nat × GraphNode))
  /-- RETRAIN (R429): A write of FAB_PCTRL.RETRAIN takes the port down and retrains it. -/
  | retrain (p : Nat)
  /-- PORT_ENABLE_WRITE (R454): A write of FAB_PCTRL.ENABLE holds the port down or releases it. -/
  | portEnableWrite (p : Nat) (enable : Bool)
  /-- FAB_CNT_CLR (R454): A write of FAB_DCTRL.CNT_CLR clears every FAB_CNT_ and FAB_PCNT_ register. -/
  | fabCntClr
  /-- CHECKPOINT_STREAM (R484): After a commit the device streams checkpoint records into the checkpoint ring
  buffers. -/
  | checkpointStream
  /-- CHECKPOINT_BUFFER_TIMEOUT (R486): A stream finds no free buffer for 1 s and is abandoned. -/
  | checkpointBufferTimeout
  /-- CALIBRATION (R549): An array runs 256 calibration windows and forms shadow trims and QCAL. -/
  | calibration (t a windows : Nat)
  /-- CALIBRATION_SUSPEND (R552): A forward phase suspends a calibration at the end of its window. -/
  | calibrationSuspend (t a : Nat)
  /-- REDUNDANCY_COMPARE (R564): The partner's CRC arrives and is compared with the suspect's, with a third run on
  a mismatch. -/
  | redundancyCompare (t : Nat) (partner third : W32)
  /-- TEST_REQUEST (R571): An event or command requests a test, which joins, waits or is dropped per tile. -/
  | testRequest (t kind mode array col steps : Nat)
  /-- TEST_END (R572): A test ends with a verdict and the Steward writes a test record. -/
  | testEnd (t : Nat)
  /-- INJ_CTRL_WRITE (R574): A write of INJ_CTRL arms an injection, or is ignored or refused. -/
  | injCtrlWrite (v : W32)
  /-- MEMORY_CORRECTABLE_ERROR (R581): The memory controller corrects a one-bit error and writes the corrected word
  back. -/
  | memoryCorrectableError (addr : Nat)
  /-- MEMORY_UNCORRECTABLE_ERROR (R582): An uncorrectable error loses a scale record, or leads to rollback or halt
  by region. -/
  | memoryUncorrectableError (addr : Nat)
  /-- WATCHDOG_EXPIRY (R603): A progress watchdog expires, and the device dumps, resets and marks suspects. -/
  | watchdogExpiry (ukind unit : Nat) (hung others : List (Nat × TileCmd))
  /-- SUSPECT_REPLAY (R604): A suspect context's held command is replayed alone on the reset tiles. -/
  | suspectReplay (hangs : Bool)
  /-- STEWARD_HEARTBEAT_TIMEOUT (R607): A Steward has not signalled for 100 µs and the Warden restarts it. -/
  | stewardHeartbeatTimeout (half : Nat)
  /-- STEWARD_RESTART_COMPLETE (R607): A restarted Steward comes back as the standby and receives the state record. -/
  | stewardRestartComplete (half : Nat)
  /-- STATE_RECORD (R46): The ensign sends the standby its state record after every change. -/
  | stateRecord
  /-- STATE_RECORD_CONFIRM (R47): The standby confirms the state record, which lets the ensign acknowledge a commit
  or order a swap. -/
  | stateRecordConfirm
  /-- ENSIGN_ONLY_ACTION (R44): An ensign-only action reaches the hub, which refuses it if its epoch is not
  current. -/
  | ensignOnlyAction (half : Nat) (epoch : W32)
  /-- ARRAY_OUT_OF_SERVICE (R583): An array is taken out of service and its columns are covered by the DPA. -/
  | arrayOutOfService (t a : Nat)
  /-- FAULT (R589): A FAULT message reaches the step root, which orders it against the next outcome and sends
  ROLLBACK or HALT. -/
  | fault (cls : Nat) (halt : Bool) (source : Nat)
  /-- ROLLBACK (R591): A device receives ROLLBACK, stops, discards later state, restores the recovery state and
  sends FLUSHCNT. -/
  | rollback (o : W64) (recov : Nat)
  /-- FLUSHCNT (R592): A FLUSHCNT message gives the next flow sequences, against which the receiver judges its
  flows drained. -/
  | flushcnt (source next1 next2 next3 : Nat)
  /-- RBACK (R593): An RBACK message reaches the step root, which sends RESUME once every device balances. -/
  | rback (source : Nat) (localDone : Bool) (sent drained : Nat)
  /-- RESUME (R593): A device receives RESUME, grants credits, re-sends the parameter return and restarts step o +
  1. -/
  | resume
  /-- OREQ (R590): A device asks the step root to re-send an outcome. -/
  | oreq (step : W64) (source : Nat)
  /-- HALT (R596): A device receives HALT and stops, keeping the recovery state. -/
  | halt
  /-- RBACK_TIMEOUT (R596): An RBACK is still missing 100 ms after ROLLBACK, and the step root issues HALT. -/
  | rbackTimeout
  /-- FAULT_RESEND_TIMEOUT (R596): A FAULT has had no answer for 10 ms and is re-sent, with a local halt after the
  third send. -/
  | faultResendTimeout
  /-- CRST (R598): A write of RST_CTRL.CRST performs a compute reset. -/
  | crst
  /-- PRST (R599): A write of RST_CTRL.PRST bit n performs a partition reset of PTn. -/
  | prst (mask : Nat)
  /-- DUMP (R612): A write of RST_CTRL.DUMP starts a crash dump. -/
  | dump
  /-- DUMP_UNIT_TIMEOUT (R614): A unit does not answer within 10 µs and is recorded as unreachable, using its
  mirrors. -/
  | dumpUnitTimeout (unit : Nat)
  /-- DUMP_STREAM (R615): The captured dump is streamed to the host buffer. -/
  | dumpStream
  /-- RELEASE (R615): A write of RST_CTRL.RELEASE releases the frozen mirrors. -/
  | release
  /-- RST_CNT_CLR (R617): A write of RST_CTRL.CNT_CLR clears every RST_CNT_ register. -/
  | rstCntClr
  /-- RST_FLTCLS_READ (R618): A read of RST_FLTCLS latches the fault accession and step registers. -/
  | rstFltclsRead
  /-- CNT_RDVAL_LO_READ (R626): A read of CNT_RDVAL_LO latches the value, page and owner's accession number. -/
  | cntRdvalLoRead (t : Nat)
  /-- FOLIO_DRAIN (R636): The hub takes a whole record from a folio when both credits cover it and writes it to the
  destination. -/
  | folioDrain (t : Nat)
  /-- SYNC_RECORD (R634): A tile's count crosses a multiple of 2³⁰ and the tile writes a sync record. -/
  | syncRecord (t : Nat)
  /-- TRACE_MESSAGE (R635): Trace-class records arrive and are appended to this device's destination ring. -/
  | traceMessage (records : List Byte)
  /-- FOL_CONS_WRITE (R639): The host advances FOL_CONS and frees space in the host ring. -/
  | folConsWrite (v : W32)
  /-- FOL_CNT_CLR (R642): A write of FOL_CTRL.CNT_CLR clears every FOL_CNT_ register and FOL_TDROP. -/
  | folCntClr
  /-- LEDGER_REQUEST (R663): A Steward or the Warden requests a ledger write, which is queued and committed in a
  batch. -/
  | ledgerRequest (warden : Bool) (type : W16) (key : W32) (value : List Byte) (delete : Bool)
  /-- LEDGER_COMMIT (R661): A batch's commit marker is programmed and reads back correct. -/
  | ledgerCommit (n : Nat) (ok : Bool)
  /-- APPEND (R670): An LDG_CMD write that appends a host record. -/
  | append (type len : Nat)
  /-- LOOKUP (R670): An LDG_CMD write that returns a live record's value in LDG_BUF. -/
  | lookup (type : Nat)
  /-- DELETE (R670): An LDG_CMD write that appends a deletion of a host type and key. -/
  | delete (type : Nat)
  /-- UPDATE (R652): A write of SEC_CTRL.UPDATE verifies and writes a staged image set into the slot that did not
  boot. -/
  | update
  /-- SVNCOMMIT (R649): A write of SEC_CTRL.SVNCOMMIT burns the SVN counters up to the running images. -/
  | svncommit
  /-- REVOKE (R649): A write of SEC_CTRL.REVOKE burns a key set's REVOKED bit, or is refused. -/
  | revoke (rkey : Nat)
  /-- HUB_EVTMASK_WRITE (R684): A write of HUB_EVTMASK sends the event vector at once if a masked summary bit is
  set. -/
  | hubEvtmaskWrite (v : W32)
  /-- HUB_ENSIGN_READ (R683): A read of HUB_ENSIGN latches HUB_EPOCH. -/
  | hubEnsignRead
  /-- HUB_CHSTAT_READ (R416): A read of HUB_CHSTAT latches the refusal detail registers. -/
  | hubChstatRead
  /-- GOV_STAT_READ (R523): A read of GOV_STAT latches the beat, power, ceiling and junction registers. -/
  | govStatRead
  /-- CTX_LASTERR_READ (R495): A read of CTX_LASTERR latches the accession registers. -/
  | ctxLasterrRead (c : Nat)
  /-- LO_REGISTER_READ (R676): A read of a _LO register without its own latch rule latches its _HI. -/
  | loRegisterRead (off : Nat)
  /-- HI_REGISTER_WRITE (R677): A write of an RW _HI is held until the next write of its _LO. -/
  | hiRegisterWrite (off : Nat) (v : W32)
  /-- NARROW_ACCESS (R675): A narrow or boundary-crossing BAR0 access is dropped and recorded. -/
  | narrowAccess (addr n : Nat) (write : Bool)
  /-- UNMAPPED_ACCESS (R673): An access to an unallocated BAR0 offset reads 0 or is dropped, and sets
  HUB_ERR.UNMAPPED. -/
  | unmappedAccess (off : Nat) (write : Bool)
  /-- REGISTER_NO_RESPONSE (R679): A unit does not answer a register access within 10 µs, and the hub completes it
  and sets NORESP. -/
  | registerNoResponse (off : Nat) (write : Bool)
  /-- RESET_UNIT_ACCESS (R680): An access to a unit held in reset reads 0 or is dropped, and sets HUB_ERR.RESET. -/
  | resetUnitAccess (off : Nat) (write : Bool)
  /-- BAR2_OUT_OF_RANGE (R457): A BAR2 access beyond 640 GiB reads all ones or is dropped, and sets WINRANGE. -/
  | bar2OutOfRange (offset n : Nat) (write : Bool)
  /-- REGISTER_WRITE (R678): A BAR0 write to a register with no row of its own, including W1C clears, takes effect
  in order. -/
  | registerWrite (off : Nat) (v : W32)
  /-- PERST_N_DEASSERT (R690): PERST_N is deasserted and the endpoint's PCIe link training, which waited for it,
  begins. -/
  | perstNDeassert
  /-- PKG_FAULT_N_RELEASE (R691): The input falls below 10 V and PKG_FAULT_N is released. -/
  | pkgFaultNRelease (vin : Nat)
  /-- BAR2_WRITE (R457): A host write through BAR2 within 640 GiB lands at device address HAL_WIN + offset, as for
  the charter bytes, the numbering table or the initial master values of R330. -/
  | bar2Write (offset : Nat) (bytes : List Byte)
  /-- TRUST_PASS_ONE_COMPLETE (R339): An engine finishes pass 1 of a trust-ratio update, waits at the trust barrier
  and sends its per-layer sums up the scalar tree. -/
  | trustPassOneComplete (n : Nat)
  /-- REDUCTION_CREDIT_GRANT (R371): A host FRE reserves a store slot and grants reduction-class credit, so a
  waiting sender may send its next segment. -/
  | reductionCreditGrant (granted lowest : Bool) (dev : Nat)
  /-- PORT_LOSS_REPORT (R451): The numbering root receives a device's report of a lost port and recomputes and
  redistributes the routing tables. -/
  | portLossReport (serial : W64) (port : Nat)
  deriving DecidableEq, Repr

end Sys2Proof
end

