-- ==== Sys2Proof/WellFormed.lean ====
section
/-! DEFINITION. Which commands name things that the device has: tiles, arrays, banks, ports, halyards, channels, offsets.
-/

namespace Sys2Proof

/-- The fields of a tile command fit their places (R468, R469). -/
def TileCmd.wf (c : TileCmd) : Bool :=
  decide (c.acc < 2 ^ 64) && decide (c.layer < 65536) && decide (c.oper < 65536) && decide (c.flags < 256)
    && decide (c.unitsel < 256) && decide (c.mode < 8) && decide (c.tile < 512) && decide (c.ofs < 65536)
    && [c.da, c.db, c.dc, c.dd].all (fun d => decide (d < 65536))
    && [c.ta, c.tb, c.tc, c.td, c.r0, c.nr, c.k, c.p1, c.p2].all (fun v => decide (v < 2 ^ 32))

/-- A command whose operands lie in the ranges the spec gives them (R12, R462, R473, R526, R534, R578, R671). -/
def Instr.wf (i : Instr) : Bool :=
  match i with
  | .powerUp _ _ => true
  | .inputQualify _ => true
  | .inputOvervoltage _ => true
  | .inputAboveRange _ => true
  | .inputUndervoltageHold _ => true
  | .inputUndervoltageOff _ => true
  | .inputOvercurrent => true
  | .studImbalance => true
  | .efuseTrip rail => decide (rail < 8)
  | .phaseLoss rail _ => decide (rail < 8)
  | .railBackInBand rail => decide (rail < 8)
  | .oscillatorFault => true
  | .governorInterval _ _ => true
  | .beatMeasurement _ _ => true
  | .paceWindowEnd _ _ => true
  | .flowInference _ _ => true
  | .throttle => true
  | .thermalTrip => true
  | .thermalTripClear => true
  | .thermalTripHalt => true
  | .govCtrlWrite _ => true
  | .govSetWrite _ => true
  | .sentinelResult _ codes => codes.all (fun k => decide (k < 4096))
  | .sentinelPowerDown => true
  | .sentinelStartUp => true
  | .sentinelLoopEnd => true
  | .urgentRequest chan _ => decide (chan < 64)
  | .sncUrgWrite chan => decide (chan < 64)
  | .sncQstatRead => true
  | .sncThrWrite chan _ => decide (chan < 64)
  | .shadowTableWrite entry word _ => decide (entry < 48) && decide (word < 2)
  | .swap => true
  | .sncCntClr => true
  | .perstNAssert => true
  | .flr => true
  | .hostLinkDown => true
  | .hostLinkRetrain => true
  | .hostMemoryFault acc => decide (acc < 2 ^ 64)
  | .getVersion _ => true
  | .getCapabilities _ => true
  | .negotiateAlgorithms _ => true
  | .getDigests _ => true
  | .getCertificate _ => true
  | .challenge _ => true
  | .getMeasurements _ => true
  | .commandDoorbell h _ => decide (h < 17)
  | .feedDoorbell f _ => decide (f < 64)
  | .checkpointDoorbell _ => true
  | .halEnable h => decide (h < 17)
  | .halStop h => decide (h < 17)
  | .halyardStopped h => decide (h < 17)
  | .commandFetch h => decide (h < 17)
  | .halCqheadWrite h _ => decide (h < 17)
  | .halIrqWrite h _ => decide (h < 17)
  | .irqAgeTimeout h => decide (h < 17)
  | .nop acc => decide (acc < 2 ^ 64)
  | .load acc _ _ => decide (acc < 2 ^ 64)
  | .start acc _ => decide (acc < 2 ^ 64)
  | .stop acc _ => decide (acc < 2 ^ 64)
  | .unload acc => decide (acc < 2 ^ 64)
  | .abort acc _ => decide (acc < 2 ^ 64)
  | .checkpoint acc => decide (acc < 2 ^ 64)
  | .restore acc _ _ => decide (acc < 2 ^ 64)
  | .copy acc _ _ _ _ _ => decide (acc < 2 ^ 64)
  | .retire acc _ _ _ _ => decide (acc < 2 ^ 64)
  | .test acc _ _ _ _ => decide (acc < 2 ^ 64)
  | .tensor acc record => decide (acc < 2 ^ 64) && decide (record.length = 48)
  | .mvm c => c.wf
  | .opeProduct c => c.wf
  | .dpaProduct c => c.wf
  | .lnf c => c.wf
  | .rmsf c => c.wf
  | .smf c => c.wf
  | .lnb c => c.wf
  | .rmsb c => c.wf
  | .smb c => c.wf
  | .xent c => c.wf
  | .convert c => c.wf
  | .amax c => c.wf
  | .stash c => c.wf
  | .unstash c => c.wf
  | .send c => c.wf
  | .gradadd c => c.wf
  | .tilNstatRead t => decide (t < 512)
  | .tilRseLossHiRead t => decide (t < 512)
  | .arrayMvm t a acc _ slice _ _ d => decide (t < 512) && decide (a < 8) && decide (acc < 2 ^ 64) && decide (slice < 3) && decide (d.length = 512)
  | .converterPowerDown t a => decide (t < 512) && decide (a < 8)
  | .arrCntClr t a => decide (t < 512) && decide (a < 8)
  | .residualCorrection t a _ _ => decide (t < 512) && decide (a < 8)
  | .cover t a _ _ => decide (t < 512) && decide (a < 8)
  | .coverStaging t => decide (t < 512)
  | .panelFetch t a _ => decide (t < 512) && decide (a < 8)
  | .stationaryOperandFetch t _ _ => decide (t < 512)
  | .opeCntClr t => decide (t < 512)
  | .rewriteStart t a => decide (t < 512) && decide (a < 8)
  | .bankClear t a => decide (t < 512) && decide (a < 8)
  | .programmingCycle t => decide (t < 512)
  | .programmingSuspend t a => decide (t < 512) && decide (a < 8)
  | .refreshIntervalExpiry => true
  | .rvnow => true
  | .remap t a b j _ => decide (t < 512) && decide (a < 8) && decide (b < 2) && decide (j < 512)
  | .activeBankReverify t a => decide (t < 512) && decide (a < 8)
  | .residualMeasurement t a => decide (t < 512) && decide (a < 8)
  | .factorBuild t a => decide (t < 512) && decide (a < 8)
  | .pn4ImageBuild t a b => decide (t < 512) && decide (a < 8) && decide (b < 2)
  | .groupSpill t => decide (t < 512)
  | .groupReload t acc => decide (t < 512) && decide (acc < 2 ^ 64)
  | .itemSelect => true
  | .phaseChange => true
  | .halfDrained half => decide (half < 2)
  | .stepBoundary => true
  | .feedDescriptorCopy ring => decide (ring < 64)
  | .bucketSend => true
  | .reductionSegment _ => true
  | .segmentDelivery _ _ => true
  | .contrib _ _ _ _ _ => true
  | .clipMessage _ _ => true
  | .updateApplyComplete n => decide (n < 8)
  | .report _ _ _ _ _ => true
  | .trust _ _ _ _ _ => true
  | .vreq _ _ _ _ => true
  | .outcome _ _ _ _ => true
  | .ack _ _ => true
  | .parameterMessage _ => true
  | .ready _ _ _ => true
  | .activationMessage _ _ _ _ _ => true
  | .creditReturn _ _ => true
  | .freCntClr => true
  | .freOutcomeRead => true
  | .updGnormRead n => decide (n < 8)
  | .linkTraining p _ => decide (p < 32)
  | .trainingRetry p _ => decide (p < 32)
  | .linkFrame p _ => decide (p < 32)
  | .retryTimeout p => decide (p < 32)
  | .laneLoss p lane _ => decide (p < 32) && decide (lane < 4)
  | .portDown p => decide (p < 32)
  | .fabricMessage p => decide (p < 32)
  | .flowGapTimeout src cls => decide (src < 65536) && decide (cls < 5)
  | .unreachableTimeout => true
  | .discovery _ => true
  | .discoveryAnnouncement p _ => decide (p < 32)
  | .tableSet _ _ _ _ _ => true
  | .dctrlStart _ => true
  | .retrain p => decide (p < 32)
  | .portEnableWrite p _ => decide (p < 32)
  | .fabCntClr => true
  | .checkpointStream => true
  | .checkpointBufferTimeout => true
  | .calibration t a _ => decide (t < 512) && decide (a < 8)
  | .calibrationSuspend t a => decide (t < 512) && decide (a < 8)
  | .redundancyCompare t _ _ => decide (t < 512)
  | .testRequest t kind mode array _ _ => decide (t < 512) && decide (kind < 6) && decide (mode < 3) && decide (array < 8)
  | .testEnd t => decide (t < 512)
  | .injCtrlWrite _ => true
  | .memoryCorrectableError addr => decide (addr < 640 * 2 ^ 30)
  | .memoryUncorrectableError addr => decide (addr < 640 * 2 ^ 30)
  | .watchdogExpiry ukind _ _ _ => decide (ukind < 16)
  | .suspectReplay _ => true
  | .stewardHeartbeatTimeout half => decide (half < 2)
  | .stewardRestartComplete half => decide (half < 2)
  | .stateRecord => true
  | .stateRecordConfirm => true
  | .ensignOnlyAction half _ => decide (half < 2)
  | .arrayOutOfService t a => decide (t < 512) && decide (a < 8)
  | .fault cls _ source => decide (cls < 256) && decide (source < 65536)
  | .rollback _ _ => true
  | .flushcnt _ _ _ _ => true
  | .rback _ _ _ _ => true
  | .resume => true
  | .oreq _ _ => true
  | .halt => true
  | .rbackTimeout => true
  | .faultResendTimeout => true
  | .crst => true
  | .prst mask => decide (mask < 16)
  | .dump => true
  | .dumpUnitTimeout unit => decide (unit < 8204)
  | .dumpStream => true
  | .release => true
  | .rstCntClr => true
  | .rstFltclsRead => true
  | .cntRdvalLoRead t => decide (t < 512)
  | .folioDrain t => decide (t < 512)
  | .syncRecord t => decide (t < 512)
  | .traceMessage _ => true
  | .folConsWrite _ => true
  | .folCntClr => true
  | .ledgerRequest _ _ _ _ _ => true
  | .ledgerCommit _ _ => true
  | .append type len => decide (type < 65536) && decide (len < 2049)
  | .lookup type => decide (type < 65536)
  | .delete type => decide (type < 65536)
  | .update => true
  | .svncommit => true
  | .revoke rkey => decide (rkey < 4)
  | .hubEvtmaskWrite _ => true
  | .hubEnsignRead => true
  | .hubChstatRead => true
  | .govStatRead => true
  | .ctxLasterrRead c => decide (c < 16)
  | .loRegisterRead off => decide (off < 2 ^ 26)
  | .hiRegisterWrite off _ => decide (off < 2 ^ 26)
  | .narrowAccess addr n _ => decide (addr < 2 ^ 26) && decide (n < 5)
  | .unmappedAccess off _ => decide (off < 2 ^ 26)
  | .registerNoResponse off _ => decide (off < 2 ^ 26)
  | .resetUnitAccess off _ => decide (off < 2 ^ 26)
  | .bar2OutOfRange _ _ _ => true
  | .registerWrite off _ => decide (off < 2 ^ 26)
  | .perstNDeassert => true
  | .pkgFaultNRelease _ => true
  | .bar2Write _ _ => true
  | .trustPassOneComplete n => decide (n < 8)
  | .reductionCreditGrant _ _ dev => decide (dev < 65536)
  | .portLossReport _ port => decide (port < 32)

end Sys2Proof
end

