-- ==== Sys2Proof/Machine/Bits.lean ====
section
/-! DEFINITION. Bit fields (R14: bit 0 is the least significant, ranges include both ends), little-endian bytes
(R14), signed readings and CRC32C.
-/

namespace Sys2Proof.Machine

/-- Bits [hi:lo] of a word, as a number (R14). -/
def bits {n : Nat} (w : BitVec n) (hi lo : Nat) : Nat := w.toNat / 2 ^ lo % 2 ^ (hi + 1 - lo)

/-- Bit i of a word (R14). -/
def bit {n : Nat} (w : BitVec n) (i : Nat) : Bool := bits w i i == 1

/-- A register with bits [hi:lo] set to v, v cut to the field's width. -/
def putBits (w : W32) (hi lo v : Nat) : W32 :=
  BitVec.ofNat 32 (w.toNat - bits w hi lo * 2 ^ lo + v % 2 ^ (hi + 1 - lo) * 2 ^ lo)

/-- A number made of fields: (lo, value) pairs, each already inside its field. -/
def packNat : List (Nat × Nat) → Nat
  | [] => 0
  | (lo, v) :: fs => v * 2 ^ lo + packNat fs

/-- A register made of fields. -/
def pack (fs : List (Nat × Nat)) : W32 := BitVec.ofNat 32 (packNat fs)

/-- A Boolean as a one-bit field. -/
def b2n (b : Bool) : Nat := if b then 1 else 0

/-- The low and the high half of a 64-bit value (a _LO and _HI pair, R676). -/
def lo32 (v : Nat) : W32 := BitVec.ofNat 32 v
/-- The high half of a 64-bit value. -/
def hi32 (v : Nat) : W32 := BitVec.ofNat 32 (v / 2 ^ 32)

/-- The value of little-endian bytes (R14). -/
def leNat : List Byte → Nat
  | [] => 0
  | b :: bs => b.toNat + 256 * leNat bs

/-- n little-endian bytes of a value (R14). -/
def leBytes : Nat → Nat → List Byte
  | 0, _ => []
  | n + 1, v => BitVec.ofNat 8 v :: leBytes n (v / 256)

/-- The two's complement reading of the low w bits of v. -/
def signed (w v : Nat) : Int :=
  let u := v % 2 ^ w
  if u < 2 ^ (w - 1) then (u : Int) else (u : Int) - 2 ^ w

/-- The low w bits of an integer (two's complement). -/
def unsigned (w : Nat) (i : Int) : Nat := (i % (2 ^ w : Int)).toNat

/-- One step of the bitwise CRC32C register: reflected polynomial 0x82F6_3B78.
PRESUMED: the spec names CRC32C and gives no polynomial (log 6). -/
def crcBit (c : Nat) : Nat := if c % 2 = 1 then (c / 2) ^^^ 0x82F63B78 else c / 2

/-- One byte into the CRC register. -/
def crcByte (c : Nat) (b : Byte) : Nat :=
  crcBit (crcBit (crcBit (crcBit (crcBit (crcBit (crcBit (crcBit (c ^^^ b.toNat))))))))

/-- CRC32C over bytes, as the spec uses it throughout (R307, R367, R390, R423, R430 and others). -/
def crc32c (bs : List Byte) : W32 := BitVec.ofNat 32 ((bs.foldl crcByte 0xFFFFFFFF) ^^^ 0xFFFFFFFF)

/-- n bytes of zero. -/
def zeros (n : Nat) : List Byte := List.replicate n 0

/-- Bytes [at, at + n) of a byte string; missing bytes are left out. -/
def slice (bs : List Byte) (off n : Nat) : List Byte := (bs.drop off).take n

/-- The little-endian number of n bytes at an offset of a byte string. -/
def leAt (bs : List Byte) (off n : Nat) : Nat := leNat (slice bs off n)

/-- Round up to a multiple of a. -/
def roundUp (v a : Nat) : Nat := (v + a - 1) / a * a

/-- ⌈n ÷ d⌉. -/
def ceilDiv (n d : Nat) : Nat := (n + d - 1) / d

/-- floor(v) clamped to the 16-bit, 32-bit ... all-ones value: counters that saturate. -/
def satAdd (w v n : Nat) : Nat := min (v + n) (2 ^ w - 1)

end Sys2Proof.Machine
end

