-- ==== Sys2Proof/Machine/Float.lean ====
section
/-! DEFINITION. Exact values and the float formats of R55: decoding, the one rounding to nearest even (R57, R76,
R80), canonical NaNs (R59), and the R99 operations under a numeric policy (R103 to R105).
-/

namespace Sys2Proof.Machine

/-- A value as the digital path sees it: NaN, a signed infinity, or (−1)^neg × m × 2^e, exactly. A zero keeps its
sign (R60). -/
inductive FVal where
  | nan
  | inf (neg : Bool)
  | num (neg : Bool) (m : Nat) (e : Int)
  deriving DecidableEq, Repr

/-- +0. -/
def FVal.zero : FVal := .num false 0 0

/-- The numeric policy of a command or operation (R103): NP = 0 SATURATE, NP = 1 PROPAGATE. -/
inductive Policy where
  | saturate
  | propagate
  deriving DecidableEq, Repr

/-- NP as R103 codes it. -/
def policyOf (np : Bool) : Policy := if np then .propagate else .saturate

/-- What a float format does with its largest exponent field (R55). -/
inductive FloatKind where
  | ieee    -- infinities and NaNs
  | e4m3    -- one NaN, no infinity
  | numeric -- neither
  deriving DecidableEq, Repr

/-- A float format of R55. -/
structure FloatFmt where
  ebits : Nat
  mbits : Nat
  bias  : Nat
  kind  : FloatKind
  nanCode : Nat
  deriving DecidableEq, Repr

def fmtFP32 : FloatFmt := ⟨8, 23, 127, .ieee, 0x7FC00000⟩
def fmtBF16 : FloatFmt := ⟨8, 7, 127, .ieee, 0x7FC0⟩
def fmtFP16 : FloatFmt := ⟨5, 10, 15, .ieee, 0x7E00⟩
def fmtE4M3 : FloatFmt := ⟨4, 3, 7, .e4m3, 0x7F⟩
def fmtE5M2 : FloatFmt := ⟨5, 2, 15, .ieee, 0x7E⟩
def fmtE3M2 : FloatFmt := ⟨3, 2, 3, .numeric, 0⟩
def fmtE2M1 : FloatFmt := ⟨2, 1, 1, .numeric, 0⟩
/-- The unsigned E5M3 scale of PN4 (R69), read as a float without a sign bit. -/
def fmtE5M3 : FloatFmt := ⟨5, 3, 15, .e4m3, 0xFF⟩

/-- The largest finite value of a format as (m, e). -/
def maxFinite (f : FloatFmt) : Nat × Int :=
  match f.kind with
  | .ieee => (2 ^ (f.mbits + 1) - 1, (2 ^ f.ebits - 2 : Int) - f.bias - f.mbits)
  | .e4m3 => (2 ^ (f.mbits + 1) - 2, (2 ^ f.ebits - 1 : Int) - f.bias - f.mbits)
  | .numeric => (2 ^ (f.mbits + 1) - 1, (2 ^ f.ebits - 1 : Int) - f.bias - f.mbits)

/-- ±largest finite (R81, R105). -/
def maxFVal (f : FloatFmt) (neg : Bool) : FVal := .num neg (maxFinite f).1 (maxFinite f).2

/-- Decode an element of a float format (R55, R59): every NaN encoding reads as NaN. -/
def decodeFloat (f : FloatFmt) (w : Nat) : FVal :=
  let m := w % 2 ^ f.mbits
  let e := w / 2 ^ f.mbits % 2 ^ f.ebits
  let neg := w / 2 ^ (f.mbits + f.ebits) % 2 == 1
  let top := 2 ^ f.ebits - 1
  if e == 0 then .num neg m (1 - (f.bias : Int) - f.mbits)
  else if e == top && f.kind == .ieee then (if m == 0 then .inf neg else .nan)
  else if e == top && f.kind == .e4m3 && m == 2 ^ f.mbits - 1 then .nan
  else .num neg (2 ^ f.mbits + m) ((e : Int) - f.bias - f.mbits)

/-- n ÷ d rounded to the nearest integer, ties to even. -/
def rneDiv (n d : Nat) : Nat :=
  let q := n / d
  let r := n % d
  if 2 * r < d then q else if d < 2 * r then q + 1 else if q % 2 == 0 then q else q + 1

/-- n ÷ d × 2^k as a fraction. -/
def scaleFrac (n d : Nat) (k : Int) : Nat × Nat :=
  if 0 ≤ k then (n * 2 ^ k.toNat, d) else (n, d * 2 ^ (-k).toNat)

/-- n ÷ d × 2^k rounded to the nearest integer, ties to even. -/
def rneScaled (n d : Nat) (k : Int) : Nat :=
  let (a, b) := scaleFrac n d k
  rneDiv a b

/-- floor(log2 (n ÷ d)) for positive n and d. -/
def floorLog2 (n d : Nat) : Int :=
  let l : Int := (n.log2 : Int) - d.log2
  let (a, b) := scaleFrac n d (-l)
  if a < b then l - 1 else l

/-- The rounding to nearest even of n ÷ d × 2^e into a format with an unbounded exponent range (R80): a count of
quanta and the quantum's exponent. -/
def roundMag (f : FloatFmt) (n d : Nat) (e : Int) : Nat × Int :=
  if n = 0 then (0, 0) else
    let top := floorLog2 n d + e
    let q := max (top - f.mbits) (1 - (f.bias : Int) - f.mbits)
    (rneScaled n d (e - q), q)

/-- m₁ × 2^e₁ < m₂ × 2^e₂. -/
def ltMag (m₁ : Nat) (e₁ : Int) (m₂ : Nat) (e₂ : Int) : Bool :=
  let lo := min e₁ e₂
  m₁ * 2 ^ (e₁ - lo).toNat < m₂ * 2 ^ (e₂ - lo).toNat

/-- Does a rounded magnitude overflow the format (R80)? -/
def overflows (f : FloatFmt) (m : Nat) (e : Int) : Bool := ltMag (maxFinite f).1 (maxFinite f).2 m e

/-- The encoding of a value that lies in the format (after rounding). -/
def encodeFloat (f : FloatFmt) (v : FVal) : Nat :=
  let sgn (neg : Bool) := b2n neg * 2 ^ (f.mbits + f.ebits)
  match v with
  | .nan => f.nanCode
  | .inf neg => sgn neg + (2 ^ f.ebits - 1) * 2 ^ f.mbits
  | .num neg m e =>
    if m = 0 then sgn neg else
      let sub := 1 - (f.bias : Int) - f.mbits
      let ex := max (floorLog2 m 1 + e - f.mbits) sub
      let s := rneScaled m 1 (e - ex)
      if s < 2 ^ f.mbits then sgn neg + s
      else sgn neg + ((ex + f.mbits + f.bias).toNat) * 2 ^ f.mbits + (s - 2 ^ f.mbits)

/-- Computations that count saturation events (R107). -/
abbrev Cnt := StateM Nat

/-- Count one saturation event. -/
def countSat : Cnt Unit := modify (· + 1)

/-- The value after rounding (−1)^neg × n ÷ d × 2^e once into f; an overflow follows the policy (R97, R104,
R105). -/
def roundTo (f : FloatFmt) (p : Policy) (neg : Bool) (n d : Nat) (e : Int) : Cnt FVal := do
  let (m, q) := roundMag f n d e
  if overflows f m q then
    match p with
    | .propagate => pure (.inf neg)
    | .saturate => countSat; pure (maxFVal f neg)
  else pure (.num neg m q)

/-- A value rounded once to FP32. -/
def toFP32 (p : Policy) : FVal → Cnt FVal
  | .nan => pure .nan
  | .inf neg => pure (.inf neg)
  | .num neg m e => roundTo fmtFP32 p neg m 1 e

/-- Is the value zero? -/
def FVal.isZero : FVal → Bool
  | .num _ m _ => m == 0
  | _ => false

/-- Is the value finite? -/
def FVal.isFinite : FVal → Bool
  | .num _ _ _ => true
  | _ => false

/-- The sign bit of a value (NaN reads as positive, R59). -/
def FVal.sign : FVal → Bool
  | .nan => false
  | .inf neg => neg
  | .num neg _ _ => neg

/-- −x. -/
def FVal.neg : FVal → FVal
  | .nan => .nan
  | .inf s => .inf (!s)
  | .num s m e => .num (!s) m e

/-- |x|. -/
def FVal.abs : FVal → FVal
  | .nan => .nan
  | .inf _ => .inf false
  | .num _ m e => .num false m e

/-- A signed significand at exponent lo (lo ≤ e). -/
def alignTo (lo : Int) (neg : Bool) (m : Nat) (e : Int) : Int :=
  let v : Int := (m * 2 ^ (e - lo).toNat : Nat)
  if neg then -v else v

/-- The exact sum of two finite values; an exact zero is +0 unless both are −0 (binary32 addition, R57). -/
def exactAdd (s₁ : Bool) (m₁ : Nat) (e₁ : Int) (s₂ : Bool) (m₂ : Nat) (e₂ : Int) : FVal :=
  let lo := min e₁ e₂
  let v := alignTo lo s₁ m₁ e₁ + alignTo lo s₂ m₂ e₂
  if v = 0 then .num (s₁ && s₂ && m₁ == 0 && m₂ == 0) 0 0
  else .num (v < 0) v.natAbs lo

/-- Exact addition with the special values of R99. -/
def addExact : FVal → FVal → FVal
  | .nan, _ => .nan
  | _, .nan => .nan
  | .inf a, .inf b => if a == b then .inf a else .nan
  | .inf a, _ => .inf a
  | _, .inf b => .inf b
  | .num s₁ m₁ e₁, .num s₂ m₂ e₂ => exactAdd s₁ m₁ e₁ s₂ m₂ e₂

/-- Exact multiplication with the special values of R89 and R99. -/
def mulExact : FVal → FVal → FVal
  | .nan, _ => .nan
  | _, .nan => .nan
  | .inf a, .inf b => .inf (a != b)
  | .inf a, .num b m _ => if m = 0 then .nan else .inf (a != b)
  | .num a m _, .inf b => if m = 0 then .nan else .inf (a != b)
  | .num a m₁ e₁, .num b m₂ e₂ => .num (a != b) (m₁ * m₂) (e₁ + e₂)

/-- Correctly rounded addition (R99). -/
def fadd (p : Policy) (a b : FVal) : Cnt FVal := toFP32 p (addExact a b)
/-- Correctly rounded subtraction (R99). -/
def fsub (p : Policy) (a b : FVal) : Cnt FVal := fadd p a b.neg
/-- Correctly rounded multiplication (R99). -/
def fmul (p : Policy) (a b : FVal) : Cnt FVal := toFP32 p (mulExact a b)
/-- Fused multiply-add, one rounding (R99). -/
def ffma (p : Policy) (a b c : FVal) : Cnt FVal := toFP32 p (addExact (mulExact a b) c)

/-- Correctly rounded division; a finite nonzero value by zero follows the policy and is counted under SATURATE
(R104, R105). -/
def fdiv (p : Policy) (a b : FVal) : Cnt FVal :=
  match a, b with
  | .nan, _ => pure .nan
  | _, .nan => pure .nan
  | .inf _, .inf _ => pure .nan
  | .inf s, .num t _ _ => pure (.inf (s != t))
  | .num s _ _, .inf t => pure (.num (s != t) 0 0)
  | .num s m₁ e₁, .num t m₂ e₂ =>
    if m₂ = 0 then
      if m₁ = 0 then pure .nan
      else match p with
        | .propagate => pure (.inf (s != t))
        | .saturate => do countSat; pure (maxFVal fmtFP32 (s != t))
    else roundTo fmtFP32 p (s != t) m₁ m₂ (e₁ - e₂)

/-- The integer square root, by bits from the top. -/
def isqrtFrom (n : Nat) : Nat → Nat → Nat
  | 0, r => r
  | b + 1, r => let c := r + 2 ^ b; isqrtFrom n b (if c * c ≤ n then c else r)

/-- floor(√n). -/
def isqrt (n : Nat) : Nat := isqrtFrom n (n.log2 / 2 + 1) 0

/-- Correctly rounded square root; √−0 is −0, below zero is NaN (R99). The root is taken with a sticky bit far below
the format's last place, so that the one rounding to nearest even is right. -/
def fsqrt (p : Policy) (a : FVal) : Cnt FVal :=
  match a with
  | .nan => pure .nan
  | .inf neg => pure (if neg then .nan else .inf false)
  | .num neg m e =>
    if m = 0 then pure (.num neg 0 0)
    else if neg then pure .nan
    else
      let e' := if e % 2 = 0 then e else e - 1
      let m' := if e % 2 = 0 then m else 2 * m
      let big := m' * 2 ^ 80
      let r := isqrt big
      let r' := 2 * r + (if r * r = big then 0 else 1)
      roundTo fmtFP32 p false r' 1 (e' / 2 - 41)

/-- a < b as values; false when either is NaN. −0 and +0 are equal. -/
def FVal.lt : FVal → FVal → Bool
  | .nan, _ => false
  | _, .nan => false
  | .inf a, .inf b => a && !b
  | .inf a, .num _ _ _ => a
  | .num _ _ _, .inf b => !b
  | .num s₁ m₁ e₁, .num s₂ m₂ e₂ =>
    let lo := min e₁ e₂
    alignTo lo s₁ m₁ e₁ < alignTo lo s₂ m₂ e₂

/-- a ≤ b as values; false when either is NaN. -/
def FVal.le (a b : FVal) : Bool :=
  match a, b with
  | .nan, _ => false
  | _, .nan => false
  | _, _ => !(FVal.lt b a)

/-- An FP32 word as a value, and a value in FP32 as a word. -/
def ofFP32 (w : W32) : FVal := decodeFloat fmtFP32 w.toNat
/-- The FP32 encoding of a value that lies in FP32. -/
def fp32Bits (v : FVal) : W32 := BitVec.ofNat 32 (encodeFloat fmtFP32 v)

/-- An integer as a value. -/
def FVal.ofInt (i : Int) : FVal := .num (i < 0) i.natAbs 0

/-- x × 2^k, exactly. -/
def FVal.scale (v : FVal) (k : Int) : FVal :=
  match v with
  | .num s m e => .num s m (e + k)
  | w => w

/-- The value rounded to the nearest integer, ties to even; 0 for a value that is not finite. -/
def FVal.rne : FVal → Int
  | .num s m e => let r : Int := (rneScaled m 1 e : Nat); if s then -r else r
  | _ => 0

/-- ldexp of R267: p × 2^k rounded once to FP32. -/
def fldexp (p : Policy) (v : FVal) (k : Int) : Cnt FVal := toFP32 p (v.scale k)

end Sys2Proof.Machine
end

