-- ==== Sys2Proof/Machine/Formats.lean ====
section
/-! DEFINITION. Number formats (02_number_formats.md): descriptors, element decoding, packing, pennant blocks and
the one conversion of R75 to R81.
-/

namespace Sys2Proof.Machine

/-! ### The format descriptor (R52, R53) -/

/-- CODE, the format code (R50). -/
def descCode (d : W16) : Nat := bits d 3 0
/-- U: unsigned block codes. -/
def descU (d : W16) : Bool := bit d 4
/-- ZPE: the zero point applies. -/
def descZpe (d : W16) : Bool := bit d 5
/-- The zero point in force: ZP when ZPE is 1, else 0 (R61, R62). -/
def descZp (d : W16) : Nat := if descZpe d then bits d 15 8 else 0

/-- A descriptor that breaks no constraint of R51 or R52. -/
def descValid (d : W16) : Bool :=
  let c := descCode d
  c != 15 && bits d 7 6 == 0
  && (!descZpe d || c == 8 || c == 10)
  && (!descU d || c == 12 || c == 13)
  && (descZpe d || bits d 15 8 == 0)
  && (c != 10 || bits d 15 12 == 0)

/-- The float format of a code, for codes 0x0 to 0x6 (R55). -/
def floatOf : Nat → Option FloatFmt
  | 0 => some fmtFP32
  | 1 => some fmtBF16
  | 2 => some fmtFP16
  | 3 => some fmtE4M3
  | 4 => some fmtE5M2
  | 5 => some fmtE3M2
  | 6 => some fmtE2M1
  | _ => none

/-- Codes that expand to narrow operands (R84). -/
def isNarrow (d : W16) : Bool := 3 ≤ descCode d && descCode d ≤ 12
/-- Codes that expand to wide operands (R84). -/
def isWide (d : W16) : Bool := descCode d == 1 || descCode d == 2
/-- Codes that are never multiplier operands (R85). -/
def notOperand (d : W16) : Bool := descCode d == 0 || descCode d == 13 || descCode d == 14

/-- The 4-bit class of R231: INT4, INT2, FP4, PN4, and UINT4 with ZPE = 0. -/
def is4bit (d : W16) : Bool :=
  let c := descCode d
  c == 6 || c == 9 || c == 11 || c == 12 || (c == 10 && !descZpe d)

/-- Elements in one storage unit or block (R50, R233). -/
def unitElems : Nat → Nat
  | 5 => 4
  | 6 => 2
  | 9 => 2
  | 10 => 2
  | 11 => 4
  | 12 => 16
  | 13 => 32
  | _ => 1

/-- Bytes in one storage unit or block (R50). -/
def unitBytes : Nat → Nat
  | 0 => 4
  | 1 => 2
  | 2 => 2
  | 5 => 3
  | 12 => 9
  | 13 => 34
  | 14 => 8
  | _ => 1

/-- The packed bytes of a row of n elements (R63, R64, R66, R67). -/
def packedSize (d : W16) (n : Nat) : Nat := ceilDiv n (unitElems (descCode d)) * unitBytes (descCode d)

/-! ### Reading elements -/

/-- The pair value hi + lo of FP32P, exactly, with the signed zero of R73. -/
def pairValue (hi lo : W32) : FVal := addExact (ofFP32 hi) (ofFP32 lo)

/-- The signed or unsigned reading of a block code (R68). -/
def blockCode (u : Bool) (w c : Nat) : Int := if u then (c : Int) else signed w c

/-- Element i of a pennant block decodes to code × scale (R70). -/
def pennantValue (scale : FVal) (c : Int) : FVal :=
  match scale with
  | .nan => .nan
  | .inf _ => .nan
  | .num s m e => if m = 0 || c = 0 then FVal.zero else .num (s != decide (c < 0)) (c.natAbs * m) e

/-- Element i of a packed row, from the row's bytes (R55, R61, R63, R66 to R70, R73). -/
def decodeElem (d : W16) (row : Nat → Byte) (i : Nat) : FVal :=
  let c := descCode d
  let b (j : Nat) : Nat := (row j).toNat
  let le (j n : Nat) : Nat := leNat ((List.range n).map (fun t => row (j + t)))
  if c = 0 then decodeFloat fmtFP32 (le (4 * i) 4)
  else if c = 1 then decodeFloat fmtBF16 (le (2 * i) 2)
  else if c = 2 then decodeFloat fmtFP16 (le (2 * i) 2)
  else if c = 3 then decodeFloat fmtE4M3 (b i)
  else if c = 4 then decodeFloat fmtE5M2 (b i)
  else if c = 5 then decodeFloat fmtE3M2 (le (3 * (i / 4)) 3 / 2 ^ (6 * (i % 4)) % 64)
  else if c = 6 then decodeFloat fmtE2M1 (b (i / 2) / 2 ^ (4 * (i % 2)) % 16)
  else if c = 7 then FVal.ofInt (signed 8 (b i))
  else if c = 8 then FVal.ofInt ((b i : Int) - descZp d)
  else if c = 9 then FVal.ofInt (signed 4 (b (i / 2) / 2 ^ (4 * (i % 2))))
  else if c = 10 then FVal.ofInt (((b (i / 2) / 2 ^ (4 * (i % 2)) % 16 : Nat) : Int) - descZp d)
  else if c = 11 then FVal.ofInt (signed 2 (b (i / 4) / 2 ^ (2 * (i % 4))))
  else if c = 12 then
    let base := 9 * (i / 16)
    let j := i % 16
    pennantValue (decodeFloat fmtE5M3 (b (base + 8)))
      (blockCode (descU d) 4 (b (base + j / 2) / 2 ^ (4 * (j % 2)) % 16))
  else if c = 13 then
    let base := 34 * (i / 32)
    pennantValue (decodeFloat fmtBF16 (le (base + 32) 2)) (blockCode (descU d) 8 (b (base + i % 32)))
  else if c = 14 then
    pairValue (BitVec.ofNat 32 (le (8 * i) 4)) (BitVec.ofNat 32 (le (8 * i + 4) 4))
  else .nan

/-- The format whose largest finite value replaces an infinite element of this descriptor (R105); FP32 for FP32P. -/
def infFmt (d : W16) : FloatFmt := (floatOf (descCode d)).getD fmtFP32

/-- An operand as a unit first decodes it: under SATURATE an infinity becomes ±largest finite of its format and is
counted (R87, R105). -/
def readOperand (p : Policy) (d : W16) (v : FVal) : Cnt FVal :=
  match p, v with
  | .saturate, .inf neg => do countSat; pure (maxFVal (infFmt d) neg)
  | _, _ => pure v

/-! ### Conversion (R75 to R81) -/

/-- What an output element adds to the special-value flag (R106), coded as TIL_NSTAT.CAUSE (R109). -/
inductive Special where
  | none
  | nanOut
  | infOut
  | absorbed
  | drop
  deriving DecidableEq, Repr

/-- Drop the counts of an element that was counted during accumulation (R107). -/
def unlessCounted {α : Type} (counted : Bool) (act : Cnt α) : Cnt α := do
  let n ← get
  let a ← act
  if counted then set n
  pure a

/-- An integer target (R77, R81): rounded, the zero point added, clamped to the code range, a clamp counted. -/
def convInt (lo hi zp : Int) (v : FVal) : Cnt (Int × Special) :=
  match v with
  | .nan => pure (zp, .drop)
  | .inf neg => do countSat; pure (if neg then lo else hi, .none)
  | .num _ _ _ => do
    let c := v.rne + zp
    if c < lo then do countSat; pure (lo, .none)
    else if hi < c then do countSat; pure (hi, .none)
    else pure (c, .none)

/-- A float target (R80, R81). -/
def convFloat (f : FloatFmt) (p : Policy) (v : FVal) : Cnt (Nat × Special) :=
  let big (neg : Bool) : Cnt (Nat × Special) := do
    countSat; pure (encodeFloat f (maxFVal f neg), .none)
  let ovf (neg : Bool) : Cnt (Nat × Special) :=
    match f.kind, p with
    | .numeric, _ => big neg
    | _, .saturate => big neg
    | .ieee, .propagate => pure (encodeFloat f (.inf neg), .infOut)
    | .e4m3, .propagate => pure (f.nanCode, .nanOut)
  match v with
  | .nan => pure (match f.kind with | .numeric => (0, .drop) | _ => (f.nanCode, .nanOut))
  | .inf neg => ovf neg
  | .num neg m e =>
    let (r, q) := roundMag f m 1 e
    if overflows f r q then ovf neg else pure (encodeFloat f (.num neg r q), .none)

/-- A target of FP32P (R78, R81), as hi and lo. Where lo rounds to half a unit in hi's last place the pair of R78 is not
normalised in the sense of R74; DESIGN CHOICE: R78 is followed (log 62). -/
def convPair (p : Policy) (v : FVal) : Cnt (W32 × W32 × Special) := do
  match v with
  | .nan => pure (fp32Bits .nan, 0, .nanOut)
  | _ =>
    let (c, sp) ← convFloat fmtFP32 p v
    let hi := ofFP32 (BitVec.ofNat 32 c)
    match v, hi with
    | .num _ m e, .num _ _ _ =>
      let (r, q) := roundMag fmtFP32 m 1 e
      if overflows fmtFP32 r q then pure (BitVec.ofNat 32 c, 0, sp)
      else
        let lo ← toFP32 p (addExact v hi.neg)
        pure (BitVec.ofNat 32 c, fp32Bits lo, sp)
    | _, _ => pure (BitVec.ofNat 32 c, 0, sp)

/-- One element of a target that is no pennant format: its code and flag (R81). -/
def convElem (d : W16) (p : Policy) (v : FVal) : Cnt (Nat × Special) :=
  let zp : Int := descZp d
  match descCode d with
  | 7 => do let (c, s) ← convInt (-128) 127 0 v; pure (unsigned 8 c, s)
  | 8 => do let (c, s) ← convInt 0 255 zp v; pure (unsigned 8 c, s)
  | 9 => do let (c, s) ← convInt (-8) 7 0 v; pure (unsigned 4 c, s)
  | 10 => do let (c, s) ← convInt 0 15 zp v; pure (unsigned 4 c, s)
  | 11 => do let (c, s) ← convInt (-2) 1 0 v; pure (unsigned 2 c, s)
  | 14 => do let (h, l, s) ← convPair p v; pure (h.toNat + 2 ^ 32 * l.toNat, s)
  | c =>
    match floatOf c with
    | some f => convFloat f p v
    | none => pure (0, .none)

/-- The quotient x ÷ s rounded to the nearest integer, ties to even; an infinite quotient keeps its sign. -/
def blockQuotient (x : FVal) (m : Nat) (e : Int) (lo hi : Int) : Int :=
  match x with
  | .nan => 0
  | .inf neg => if neg then lo - 1 else hi + 1
  | .num neg mx ex => let q : Int := (rneScaled mx m (ex - e) : Nat); if neg then -q else q

/-- The largest magnitude over elements that are not NaN; infinity counts as infinity (R71). -/
def blockMax : List FVal → FVal
  | [] => FVal.zero
  | x :: xs =>
    let a := blockMax xs
    match x with
    | .nan => a
    | _ => if FVal.lt a x.abs then x.abs else a

/-- One element's code of a block with scale m × 2^e (R71). -/
def blockElem (m : Nat) (e : Int) (cmin cmax : Int) (x : FVal) (counted : Bool) : Cnt (Int × Special) :=
  match x with
  | .nan => pure (0, .drop)
  | _ => do
    let q := blockQuotient x m e cmin cmax
    if cmin == 0 && q < 0 then unlessCounted counted countSat
    pure (max cmin (min cmax q), .none)

/-- encode_block of R71: the scale code, the element codes and their flags. Each input is a value and whether it
was counted during accumulation (R107). -/
def encodeBlock (sf : FloatFmt) (cmin cmax : Int) (p : Policy) (xs : List (FVal × Bool)) :
    Cnt (Nat × List (Int × Special)) :=
  let nanBlock : Nat × List (Int × Special) := (sf.nanCode, xs.map (fun _ => (0, .nanOut)))
  let zeroBlock : Nat × List (Int × Special) :=
    (0, xs.map (fun x => (0, if x.1 = .nan then .drop else .none)))
  if p = .propagate && xs.any (fun x => x.1 = .nan) then pure nanBlock
  else
    let a := blockMax (xs.map (·.1))
    if a.isZero then pure zeroBlock
    else
      let (m, e, ovf) : Nat × Int × Bool :=
        match a with
        | .num _ ma ea =>
          let (r, q) := roundMag sf ma cmax.toNat ea
          (r, q, overflows sf r q)
        | _ => (0, 0, true)
      if ovf && p = .propagate then pure nanBlock
      else do
        if ovf then
          unlessCounted (xs.any (fun x => x.2 && FVal.le a x.1.abs)) countSat
        let (m, e) := if ovf then maxFinite sf else (m, e)
        if m = 0 then pure zeroBlock
        else
          let cs ← xs.mapM (fun x => blockElem m e cmin cmax x.1 x.2)
          pure (encodeFloat sf (.num false m e), cs)

/-- A list cut into pieces of n, with fuel. -/
def chunksOf {α : Type} (n : Nat) : Nat → List α → List (List α)
  | 0, _ => []
  | _, [] => []
  | f + 1, xs => xs.take n :: chunksOf n f (xs.drop n)

/-- A list cut into pieces of n. -/
def chunks {α : Type} (n : Nat) (xs : List α) : List (List α) := chunksOf n xs.length xs

/-- A list padded on the right to n entries. -/
def padTo {α : Type} (n : Nat) (z : α) (xs : List α) : List α := xs ++ List.replicate (n - xs.length) z

/-- The bytes of one PN4 or PN8 block (R66, R67). -/
def blockBytes (c : Nat) (scale : Nat) (codes : List Int) : List Byte :=
  if c = 12 then
    (chunks 2 codes).map (fun q => BitVec.ofNat 8 (unsigned 4 (q.getD 0 0) + 16 * unsigned 4 (q.getD 1 0)))
      ++ [BitVec.ofNat 8 scale]
  else codes.map (fun q => BitVec.ofNat 8 (unsigned 8 q)) ++ leBytes 2 scale

/-- One block of a row, padded with zeros (R64). -/
def encodeRowBlock (d : W16) (p : Policy) (xs : List (FVal × Bool)) : Cnt (List Byte × List Special) := do
  let c := descCode d
  let n := unitElems c
  let full := padTo n (FVal.zero, false) xs
  let (cmin, cmax) : Int × Int :=
    if c = 12 then (if descU d then (0, 15) else (-7, 7)) else (if descU d then (0, 255) else (-127, 127))
  let (s, cs) ← encodeBlock (if c = 12 then fmtE5M3 else fmtBF16) cmin cmax p full
  pure (blockBytes c s (cs.map (·.1)), (cs.map (·.2)).take xs.length)

/-- The bytes of one storage unit of codes (R63). -/
def unitOfCodes (c : Nat) (codes : List Nat) : List Byte :=
  let w := unitBytes c * 8 / unitElems c
  leBytes (unitBytes c) ((padTo (unitElems c) 0 codes).foldr (fun q acc => q + 2 ^ w * acc) 0)

/-- A whole row converted and packed (R63 to R65, R75): its bytes and the flag of each element. Each input is the
value x of R75 and whether it was counted during accumulation. -/
def encodeRow (d : W16) (p : Policy) (xs : List (FVal × Bool)) : Cnt (List Byte × List Special) := do
  let c := descCode d
  if c = 12 || c = 13 then
    let bs ← (chunks (unitElems c) xs).mapM (encodeRowBlock d p)
    pure (bs.flatMap (·.1), bs.flatMap (·.2))
  else
    let cs ← xs.mapM (fun x => unlessCounted x.2 (convElem d p x.1))
    pure ((chunks (unitElems c) (cs.map (·.1))).flatMap (unitOfCodes c), cs.map (·.2))

/-- The largest magnitude FMAX of a scaled tensor's format (R309). -/
def fmaxOf (d : W16) : Nat :=
  match descCode d with
  | 3 => 448
  | 4 => 57344
  | 5 => 28
  | 6 => 6
  | 7 => 127
  | 9 => 7
  | 11 => 1
  | 8 => 255 - descZp d
  | 10 => 15 - descZp d
  | _ => 0

end Sys2Proof.Machine
end

