-- ==== Sys2Proof/Machine/Arith.lean ====
section
/-! DEFINITION. Digital arithmetic (03_digital_arithmetic.md): the two accumulation classes, pair arithmetic, the
Philox generator and stochastic rounding, and the fixed-order row sum of R265.
-/

namespace Sys2Proof.Machine

/-! ### Accumulation classes -/

/-- A finite signed dyadic m × 2^e. -/
structure Dyadic where
  m : Int
  e : Int
  deriving DecidableEq, Repr

/-- The exact sum of two dyadics. -/
def Dyadic.add (a b : Dyadic) : Dyadic :=
  if a.m = 0 then b else if b.m = 0 then a else
    let lo := min a.e b.e
    ⟨a.m * 2 ^ (a.e - lo).toNat + b.m * 2 ^ (b.e - lo).toNat, lo⟩

/-- A dyadic as a value; zero is +0. -/
def Dyadic.val (a : Dyadic) : FVal := .num (a.m < 0) a.m.natAbs a.e

/-- round_28 (R96): a 27-bit magnitude significand, ties to even. -/
def round28 (v : Dyadic) : Dyadic :=
  if v.m = 0 then v else
    let q := floorLog2 v.m.natAbs 1 + v.e - 26
    let s : Int := (rneScaled v.m.natAbs 1 (v.e - q) : Nat)
    ⟨if v.m < 0 then -s else s, q⟩

/-- What the products of a block held beside finite values (R95). -/
structure NonFinite where
  nanSeen  : Bool := false
  posInf   : Bool := false
  negInf   : Bool := false
  absorbed : Bool := false
  deriving DecidableEq, Repr

/-- One product of a block as R95 takes it: finite ones stay, others are noted and become +0. -/
def takeProduct (p : Policy) (nf : NonFinite) (v : FVal) : NonFinite × FVal :=
  match v with
  | .num _ _ _ => (nf, v)
  | .nan =>
    match p with
    | .propagate => ({ nf with nanSeen := true }, FVal.zero)
    | .saturate => ({ nf with absorbed := true }, FVal.zero)
  | .inf neg => (if neg then { nf with negInf := true } else { nf with posInf := true }, FVal.zero)

/-- Every product of a block as R95 takes it. -/
def takeProducts (p : Policy) (nf : NonFinite) : List FVal → NonFinite × List FVal
  | [] => (nf, [])
  | v :: vs =>
    let (nf, v) := takeProduct p nf v
    let (nf, vs) := takeProducts p nf vs
    (nf, v :: vs)

/-- floor(log2 |p|) of the largest nonzero product of a group, if there is one. -/
def groupTop : List FVal → Option Int
  | [] => none
  | v :: vs =>
    match v with
    | .num _ m e =>
      if m = 0 then groupTop vs
      else
        let t := floorLog2 m 1 + e
        match groupTop vs with
        | none => some t
        | some u => some (max t u)
    | _ => groupTop vs

/-- S of a group (R95): each term rounded to an integer at 2^(22 − emax), summed exactly. -/
def groupSum (emax : Int) (g : List FVal) : Int := (g.map (fun v => (v.scale (22 - emax)).rne)).sum

/-- One group added into the run (R95). -/
def addGroup (run : Dyadic) (g : List FVal) : Dyadic :=
  match groupTop g with
  | none => run
  | some emax => round28 (run.add ⟨groupSum emax g, emax - 22⟩)

/-- One run of up to 16 groups promoted into the FP32 accumulator (R95, R97). -/
def addRun (p : Policy) (acc : FVal) (r : List FVal) : Cnt FVal := do
  let run := (chunks 16 r).foldl addGroup ⟨0, 0⟩
  fadd p acc (← toFP32 p run.val)

/-- The runs of a block in order. -/
def addRuns (p : Policy) (acc : FVal) : List (List FVal) → Cnt FVal
  | [] => pure acc
  | r :: rs => do addRuns p (← addRun p acc r) rs

/-- The end of a block (R95, R97): NaN in the accumulator or among the products, infinities, and zero results are +0. -/
def blockEnd (nf : NonFinite) (acc : FVal) : FVal :=
  if nf.nanSeen || acc = .nan || (nf.posInf && nf.negInf) then .nan
  else if nf.posInf then (if acc = .inf true then .nan else .inf false)
  else if nf.negInf then (if acc = .inf false then .nan else .inf true)
  else if acc.isZero then FVal.zero else acc

/-- A result element before its output conversion: its value, whether a NaN was absorbed into it, and whether a
saturation was counted while it was formed (R106, R107). -/
structure Elem where
  val      : FVal
  absorbed : Bool := false
  counted  : Bool := false
  deriving DecidableEq, Repr

/-- A computed value as a result element: it is marked where a saturation was counted while it was formed (R107). -/
def elemOf (v : Cnt FVal) : Cnt Elem := do
  let n ← get
  let x ← v
  let n' ← get
  pure { val := x, counted := n != n' }

/-- narrow_run of R95 over the exact products of a block in ascending k. -/
def narrowRun (p : Policy) (ps : List FVal) : Cnt Elem := do
  let n ← get
  let (nf, qs) := takeProducts p {} ps
  let acc ← addRuns p FVal.zero (chunks 256 qs)
  let n' ← get
  pure { val := blockEnd nf acc, absorbed := nf.absorbed, counted := n != n' }

/-- A finite product in units of 2^-34, the weight of the exact register's last place (R93). -/
def exactUnits : FVal → Int
  | .num s m e =>
    let v : Int := (rneScaled m 1 (e + 34) : Nat)
    if s then -v else v
  | _ => 0

/-- The exact class (R93, R94): every finite product added exactly; the one rounding is the output conversion's. -/
def exactBlock (p : Policy) (ps : List FVal) : Elem :=
  let (nf, qs) := takeProducts p {} ps
  let s := (qs.map exactUnits).sum
  { val := blockEnd nf (Dyadic.val ⟨s, -34⟩), absorbed := nf.absorbed }

/-- A block in the accumulation class that AC names (R90). -/
def accumulate (ac : Bool) (p : Policy) (ps : List FVal) : Cnt Elem :=
  if ac then pure (exactBlock p ps) else narrowRun p ps

/-- The exact products of two operand vectors, in ascending k (R88, R89). -/
def products (a b : List FVal) : List FVal := List.zipWith mulExact a b

/-! ### Pair arithmetic (R101, R102) -/

/-- An FP32P value as the pair it is held in. -/
abbrev Pair := FVal × FVal

/-- (+0, +0). -/
def Pair.zero : Pair := (FVal.zero, FVal.zero)

/-- two_sum (R101), with R102: an infinite or NaN s has lo +0. -/
def twoSum (p : Policy) (a b : FVal) : Cnt Pair := do
  let s ← fadd p a b
  if s.isFinite then
    let bp ← fsub p s a
    let ap ← fsub p s bp
    let da ← fsub p a ap
    let db ← fsub p b bp
    pure (s, ← fadd p da db)
  else pure (s, FVal.zero)

/-- two_prod (R101), with R102. -/
def twoProd (p : Policy) (a b : FVal) : Cnt Pair := do
  let q ← fmul p a b
  if q.isFinite then pure (q, ← ffma p a b q.neg) else pure (q, FVal.zero)

/-- pair_add (R101). -/
def pairAdd (p : Policy) (x y : Pair) : Cnt Pair := do
  let (s, e) ← twoSum p x.1 y.1
  if s.isFinite then
    let t ← fadd p x.2 y.2
    let e ← fadd p e t
    twoSum p s e
  else pure (s, FVal.zero)

/-- pair_mul (R101). -/
def pairMul (p : Policy) (x : Pair) (b : FVal) : Cnt Pair := do
  let (q, e) ← twoProd p x.1 b
  if q.isFinite then twoSum p q (← ffma p x.2 b e) else pure (q, FVal.zero)

/-- A list of pairs added in order from (+0, +0). -/
def pairSum (p : Policy) : Pair → List Pair → Cnt Pair
  | acc, [] => pure acc
  | acc, x :: xs => do pairSum p (← pairAdd p acc x) xs

/-- A sum of squares as R340 forms it: pair_add(acc, two_prod(x, x)) in order. -/
def sumSquares (p : Policy) : Pair → List FVal → Cnt Pair
  | acc, [] => pure acc
  | acc, x :: xs => do sumSquares p (← pairAdd p acc (← twoProd p x x)) xs

/-! ### The fixed binary tree (R341, R364) and row sums (R265) -/

/-- One level of a binary tree: neighbours combined, a node without a partner passed through. -/
def treeLevel {α : Type} (f : α → α → Cnt α) : List α → Cnt (List α)
  | a :: b :: xs => do
    let c ← f a b
    let cs ← treeLevel f xs
    pure (c :: cs)
  | xs => pure xs

/-- The root of the tree over a list, with fuel for the levels. -/
def treeFold {α : Type} (f : α → α → Cnt α) (z : α) : Nat → List α → Cnt α
  | 0, xs => pure (xs.headD z)
  | n + 1, xs =>
    match xs with
    | [] => pure z
    | [a] => pure a
    | _ => do treeFold f z n (← treeLevel f xs)

/-- The elements of a row that fall to lane l of row_sum (R265): l, l + 128, ... -/
def laneOf {α : Type} (l : Nat) (xs : List α) : List α :=
  (chunks 128 xs).filterMap (fun c => (c.drop l).head?)

/-- A lane's running sum in ascending order (R265). -/
def laneSum (p : Policy) : FVal → List FVal → Cnt FVal
  | acc, [] => pure acc
  | acc, x :: xs => do laneSum p (← fadd p acc x) xs

/-- row_sum of R265: 128 lanes, then the tree; with PAIR the hi part of pair sums. -/
def rowSum (p : Policy) (pair : Bool) (xs : List FVal) : Cnt FVal := do
  if pair then
    let lanes ← (List.range 128).mapM (fun l => pairSum p Pair.zero ((laneOf l xs).map (fun v => (v, FVal.zero))))
    let r ← treeFold (pairAdd p) Pair.zero 7 lanes
    pure r.1
  else
    let lanes ← (List.range 128).mapM (fun l => laneSum p FVal.zero (laneOf l xs))
    treeFold (fadd p) FVal.zero 7 lanes

/-! ### Philox4x32-10 and stochastic rounding (R113, R114) -/

/-- One Philox round (R113). -/
def philoxRound (k0 k1 : Nat) (c : Nat × Nat × Nat × Nat) : Nat × Nat × Nat × Nat :=
  let (c0, c1, c2, c3) := c
  let p0 := 0xD2511F53 * c0
  let p1 := 0xCD9E8D57 * c2
  ((p1 / 2 ^ 32) ^^^ c1 ^^^ k0, p1 % 2 ^ 32, (p0 / 2 ^ 32) ^^^ c3 ^^^ k1, p0 % 2 ^ 32)

/-- n Philox rounds with the key bumped between them. -/
def philoxRounds : Nat → Nat → Nat → Nat × Nat × Nat × Nat → Nat × Nat × Nat × Nat
  | 0, _, _, c => c
  | n + 1, k0, k1, c =>
    philoxRounds n ((k0 + 0x9E3779B9) % 2 ^ 32) ((k1 + 0xBB67AE85) % 2 ^ 32) (philoxRound k0 k1 c)

/-- The random word of a parameter and a step (R113). -/
def randomWord (seed param step : Nat) : Nat :=
  (philoxRounds 10 (seed % 2 ^ 32) (seed / 2 ^ 32 % 2 ^ 32)
    (param % 2 ^ 32, param / 2 ^ 32 % 2 ^ 16, step % 2 ^ 32, step / 2 ^ 32 % 2 ^ 32)).1

/-- Stochastic rounding of a value to BF16 with a random word (R114); an overflow follows R80 and R81. -/
def stochasticBF16 (p : Policy) (u : Nat) (v : FVal) : Cnt (Nat × Special) :=
  match v with
  | .num neg m e =>
    if m = 0 then pure (encodeFloat fmtBF16 (.num neg 0 0), .none)
    else if overflows fmtBF16 m e then convFloat fmtBF16 p v
    else
      let q := max (floorLog2 m 1 + e - 7) (-133 : Int)
      let (n, d) := scaleFrac m 1 (e - q)
      let a := n / d
      let f := 2 ^ 32 * (n % d) / d
      let r := if u < f then a + 1 else a
      pure (encodeFloat fmtBF16 (.num neg r q), .none)
  | _ => convFloat fmtBF16 p v

end Sys2Proof.Machine
end

