-- ==== Sys2Proof/Config.lean ====
section
/-! DEFINITION. What a part fixes and the values the spec leaves open: constants without a body, so that nothing
can evaluate them. A free value is one of these functions applied to State's counter `free` (logs 5, 7, 8).
-/

namespace Sys2Proof.Config

/-! ### What the fuses of one part hold (R454, R647, R669, R682; log 5) -/

/-- The device serial burnt into the fuses (FAB_SERIAL, R454). -/
opaque serial : BitVec 64
/-- HUB_ID MAJOR and MINOR (R682). -/
opaque stepping : BitVec 8
/-- PRESENT bits of the four key-set slots at manufacture (R647). -/
opaque keysPresent : BitVec 4
/-- REVOKED bits at the first power-up of the run (R647). -/
opaque keysRevoked : BitVec 4
/-- The thermometer counter of an image kind (1 Warden, 2 Steward, 3 microcode) at the first power-up (R647). -/
opaque fusedSvn : Nat → Nat
/-- The fused SHA-384 digest of a key set (R647). -/
opaque keyDigest : Nat → BitVec 384
/-- What the flash holds before the first power-up of the run: the boot headers, the images, the certificates and
the ledger as delivered (R644). An address beyond what was delivered reads whatever this says. -/
opaque flashByte : Nat → BitVec 8
/-- The flash size in bytes that SFDP reports (R643). -/
opaque flashSize : Nat
/-- The device address at which the Warden places a flash charter (R650 step 7 names none). -/
opaque flashCharterAddr : Nat

/-! ### Named standards (R648, R654, R658; log 8) -/

/-- SHA-384 (FIPS 180-4). -/
opaque sha384 : List (BitVec 8) → BitVec 384
/-- Pure Ed25519 verification (RFC 8032): public key, message, signature. -/
opaque ed25519Verify : List (BitVec 8) → List (BitVec 8) → List (BitVec 8) → Bool
/-- Pure ML-DSA-65 verification (FIPS 204, empty context): public key, message, signature. -/
opaque mldsaVerify : List (BitVec 8) → List (BitVec 8) → List (BitVec 8) → Bool
/-- The 64 signature bytes of the identity key pair under Ed25519 (R654, R658): byte index, message. -/
opaque ed25519SignByte : Nat → List (BitVec 8) → BitVec 8
/-- The 3,309 signature bytes of the identity key pair under ML-DSA-65 (R654, R658). -/
opaque mldsaSignByte : Nat → List (BitVec 8) → BitVec 8
/-- A DER byte of the ML-DSA-65 identity certificate (R655) and its length. -/
opaque mldsaCertByte : Nat → BitVec 8
opaque mldsaCertLen : Nat
/-- A byte of the slot 0 chain and its length (R656). -/
opaque chainByte : Nat → BitVec 8
opaque chainLen : Nat
/-- A byte of SPDM CAPABILITIES, whose values the spec does not list. -/
opaque spdmCapByte : Nat → BitVec 8
/-- The responder's nonce bytes of the n-th signed SPDM response. -/
opaque spdmNonceByte : Nat → Nat → BitVec 8
/-- How the Warden's FP32 logarithm of a positive ratio is rounded (R528 gives no rounding): used between -1 and 1, in units of
the last place from the nearest value. -/
opaque lnUlp : BitVec 32 → Int
/-- What the Warden's FP32 logarithm gives for a ratio that has none (R528): zero, below zero, infinite or no number. -/
opaque lnBits : BitVec 32 → BitVec 32

/-! ### The analogue path (R2, R137, R138, R167, R168, R217; log 7) -/

/-- The gain factor γ of an integration, at the n-th draw. -/
opaque gamma : Nat → ℚ
/-- The error of physical column c's converter value in LSBs, at the n-th draw (R137, R217). -/
opaque codeError : Nat → Nat → ℚ
/-- The error of column pair c's verify code in codes, at the n-th draw (R167). -/
opaque verifyError : Nat → Nat → ℚ
/-- How far a pulse moves the cell of column pair c, in levels per unit of strength, at the n-th draw (R168). -/
opaque pulseMove : Nat → Nat → ℚ
/-- The level a cell holds before the first power-up of the run: nothing states it (key of the cell). -/
opaque cellLevel : Nat → ℚ
/-- In an engine self-test of a tile, an output's CRC32C differs from the stored value (R570): the spec gives neither the command set
of the tile microcode image nor the values; by draw and tile. -/
opaque selfTestFails : Nat → Nat → Bool

/-- How many units of P a verify code is (R167 gives four codes a level and no drive). -/
opaque verifyUnits : ℚ

/-! ### Bytes the spec leaves undefined -/

/-- A byte of an output range after an abort (R489), at the n-th draw. -/
opaque undefinedByte : Nat → Nat → BitVec 8
/-- The state record of a unit in a dump (R614): draw, unit, index; and its length. -/
opaque unitStateByte : Nat → Nat → Nat → BitVec 8
opaque unitStateLen : Nat → Nat
/-- The 56 bytes of sequencer state in a mirrored command record (R613). -/
opaque sequencerByte : Nat → Nat → BitVec 8
/-- How many beats a command ran, at the n-th draw (R620 event 0x01: timing is outside the model, log 11). -/
opaque runBeats : Nat → Nat
/-- The accumulator bit that an injected checksum error flips (R573 points 0x07 and 0x08), at the n-th draw: the
element's index in its output tile or run, and the bit. -/
opaque flipElem : Nat → Nat
opaque flipBit : Nat → Nat
/-- How far the governor moves the VCORE set point at the n-th draw, in mV (R517 gives only the bound of 10 mV). -/
opaque vcoreMove : Nat → Nat
/-- The exponent of a scale before its clamp, where FMAX is 0 and R309 has no largest one, by the bits of a. -/
opaque scaleStepOpen : BitVec 32 → Int
/-- A statistic the spec does not round to a register's unit (CAPT and RMS units of R227). -/
opaque roundedStat : ℚ → Nat

end Sys2Proof.Config
end

