-- ==== Sys2Proof/Machine/Regs.lean ====
section
/-! DEFINITION. The BAR0 registers (R671 to R674 and the register tables of the chapters): offsets, fields, access
masks (R15) and reset values. R.X is the BAR0 offset of register X, F.X_Y the place of its field Y; a register of a
tile, array, engine, halyard, port, feed or context window takes the numbers of its windows.
-/

namespace Sys2Proof.Machine

/-- A field of a register: the register's BAR0 offset and its bits [hi:lo] (R14). -/
structure Fld where
  off : Nat
  hi  : Nat
  lo  : Nat
  deriving DecidableEq, Repr

/-- A row of the register tables. The register stands at base + i × s1 + j × s2 + k × s3 for i < n1, j < n2, k < n3;
rw, w1c, wo and rws are the masks of the fields with that access (R15), and kind is 1 to 3
for a register with a reset table, 4 for the _LO register of a pair that no latch rule of its chapter names (R676). -/
structure RegRow where
  base : Nat
  n1   : Nat
  s1   : Nat
  n2   : Nat
  s2   : Nat
  n3   : Nat
  s3   : Nat
  rw   : Nat
  w1c  : Nat
  wo   : Nat
  rws  : Nat
  kind : Nat
  rst  : Nat
  deriving DecidableEq, Repr

/-- TIL_ rows, in the order of the chapters. -/
def rowsTIL0 : List RegRow := [
  /- TIL_NSTAT (R109) -/ RegRow.mk 0x1000200 1 0x100000000 1 0x100000000 512 0x4000 0x0 0x0 0x0 0x0 0 0,
  /- TIL_NROW (R109) -/ RegRow.mk 0x1000204 1 0x100000000 1 0x100000000 512 0x4000 0x0 0x0 0x0 0x0 0 0,
  /- TIL_NCOL (R109) -/ RegRow.mk 0x1000208 1 0x100000000 1 0x100000000 512 0x4000 0x0 0x0 0x0 0x0 0 0,
  /- TIL_NSAT (R109) -/ RegRow.mk 0x100020c 1 0x100000000 1 0x100000000 512 0x4000 0x0 0x0 0x0 0x0 0 0,
  /- TIL_NACC_LO (R109) -/ RegRow.mk 0x1000210 1 0x100000000 1 0x100000000 512 0x4000 0x0 0x0 0x0 0x0 0 0,
  /- TIL_NACC_HI (R109) -/ RegRow.mk 0x1000214 1 0x100000000 1 0x100000000 512 0x4000 0x0 0x0 0x0 0x0 0 0,
  /- TIL_NSUM (R109) -/ RegRow.mk 0x1000218 1 0x100000000 1 0x100000000 512 0x4000 0x0 0x7 0x0 0x0 0 0,
  /- TIL_RSE_STAT (R287) -/ RegRow.mk 0x1000300 1 0x100000000 1 0x100000000 512 0x4000 0x0 0x0 0x0 0x0 0 0,
  /- TIL_RSE_REC (R287) -/ RegRow.mk 0x1000304 1 0x100000000 1 0x100000000 512 0x4000 0x0 0x0 0x0 0x0 0 0,
  /- TIL_RSE_SPILLED (R287) -/ RegRow.mk 0x1000308 1 0x100000000 1 0x100000000 512 0x4000 0x0 0x0 0x0 0x0 0 0,
  /- TIL_RSE_PEAK (R287) -/ RegRow.mk 0x100030c 1 0x100000000 1 0x100000000 512 0x4000 0x0 0x0 0x0 0x0 0 0,
  /- TIL_RSE_EVT (R287) -/ RegRow.mk 0x1000310 1 0x100000000 1 0x100000000 512 0x4000 0x0 0x7 0x0 0x0 0 0]

/-- TIL_ rows, in the order of the chapters. -/
def rowsTIL1 : List RegRow := [
  /- TIL_RSE_CNT_SPILL (R287) -/ RegRow.mk 0x1000314 1 0x100000000 1 0x100000000 512 0x4000 0x0 0x0 0x0 0x0 0 0,
  /- TIL_RSE_CNT_RELOAD (R287) -/ RegRow.mk 0x1000318 1 0x100000000 1 0x100000000 512 0x4000 0x0 0x0 0x0 0x0 0 0,
  /- TIL_RSE_CNT_RWAIT (R287) -/ RegRow.mk 0x100031c 1 0x100000000 1 0x100000000 512 0x4000 0x0 0x0 0x0 0x0 0 0,
  /- TIL_RSE_CNT_IGNORE (R287) -/ RegRow.mk 0x1000320 1 0x100000000 1 0x100000000 512 0x4000 0x0 0x0 0x0 0x0 0 0,
  /- TIL_RSE_CNT_BADLBL (R287) -/ RegRow.mk 0x1000324 1 0x100000000 1 0x100000000 512 0x4000 0x0 0x0 0x0 0x0 0 0,
  /- TIL_RSE_LOSS_HI (R287) -/ RegRow.mk 0x1000328 1 0x100000000 1 0x100000000 512 0x4000 0x0 0x0 0x0 0x0 0 0,
  /- TIL_RSE_LOSS_LO (R287) -/ RegRow.mk 0x100032c 1 0x100000000 1 0x100000000 512 0x4000 0x0 0x0 0x0 0x0 0 0,
  /- TIL_CHKCTRL (R576) -/ RegRow.mk 0x1000400 1 0x100000000 1 0x100000000 512 0x4000 0x3 0x0 0x0 0x0 0 0,
  /- TIL_CHKEVT (R576) -/ RegRow.mk 0x1000404 1 0x100000000 1 0x100000000 512 0x4000 0x0 0x3 0x0 0x0 0 0,
  /- TIL_CNT_CHKFAIL (R576) -/ RegRow.mk 0x1000408 1 0x100000000 1 0x100000000 512 0x4000 0x0 0x0 0x0 0x0 0 0,
  /- TIL_CNT_CHKHARD (R576) -/ RegRow.mk 0x100040c 1 0x100000000 1 0x100000000 512 0x4000 0x0 0x0 0x0 0x0 0 0,
  /- TIL_CNT_REDMIS (R576) -/ RegRow.mk 0x1000410 1 0x100000000 1 0x100000000 512 0x4000 0x0 0x0 0x0 0x0 0 0]

/-- TIL_ rows, in the order of the chapters. -/
def rowsTIL2 : List RegRow := [
  /- TIL_REDSTAT (R576) -/ RegRow.mk 0x1000414 1 0x100000000 1 0x100000000 512 0x4000 0x0 0x0 0x0 0x0 0 0,
  /- TIL_TESTSTAT (R576) -/ RegRow.mk 0x1000418 1 0x100000000 1 0x100000000 512 0x4000 0x0 0x0 0x0 0x0 0 0,
  /- TIL_CALPT (R576) -/ RegRow.mk 0x100041c 1 0x100000000 1 0x100000000 512 0x4000 0x0 0x0 0x0 0x0 0 0,
  /- TIL_CNT_TEST (R576) -/ RegRow.mk 0x1000420 1 0x100000000 1 0x100000000 512 0x4000 0x0 0x0 0x0 0x0 0 0,
  /- TIL_CNT_TESTDROP (R576) -/ RegRow.mk 0x1000424 1 0x100000000 1 0x100000000 512 0x4000 0x0 0x0 0x0 0x0 0 0]

/-- Every TIL_ row. -/
def rowsTIL : List RegRow := rowsTIL0 ++ rowsTIL1 ++ rowsTIL2

/-- ARR_ rows, in the order of the chapters. -/
def rowsARR0 : List RegRow := [
  /- ARR_CTRL (R157) -/ RegRow.mk 0x1002000 1 0x100000000 512 0x4000 8 0x400 0xe 0x0 0x100 0x0 0 0xe,
  /- ARR_STAT (R157) -/ RegRow.mk 0x1002004 1 0x100000000 512 0x4000 8 0x400 0x0 0x0 0x0 0x0 0 0,
  /- ARR_EVT (R157) -/ RegRow.mk 0x1002008 1 0x100000000 512 0x4000 8 0x400 0x0 0xf 0x0 0x0 0 0,
  /- ARR_CHKTOL (R157) -/ RegRow.mk 0x100200c 1 0x100000000 512 0x4000 8 0x400 0xffff 0x0 0x0 0x0 0 0x80,
  /- ARR_REFTOL (R157) -/ RegRow.mk 0x1002010 1 0x100000000 512 0x4000 8 0x400 0xff 0x0 0x0 0x0 0 0x3c,
  /- ARR_QCAL (R157) -/ RegRow.mk 0x1002014 1 0x100000000 512 0x4000 8 0x400 0x0 0x0 0x0 0x0 0 0,
  /- ARR_QAVG (R157) -/ RegRow.mk 0x1002018 1 0x100000000 512 0x4000 8 0x400 0x0 0x0 0x0 0x0 0 0,
  /- ARR_WS0 (R157) -/ RegRow.mk 0x100201c 1 0x100000000 512 0x4000 8 0x400 0x0 0x0 0x0 0x0 0 0,
  /- ARR_WS1 (R157) -/ RegRow.mk 0x1002020 1 0x100000000 512 0x4000 8 0x400 0x0 0x0 0x0 0x0 0 0,
  /- ARR_CHKVEC (R157) -/ RegRow.mk 0x1002024 1 0x100000000 512 0x4000 8 0x400 0x0 0x0 0x0 0x0 0 0,
  /- ARR_CHKACC_LO (R157) -/ RegRow.mk 0x1002028 1 0x100000000 512 0x4000 8 0x400 0x0 0x0 0x0 0x0 4 0,
  /- ARR_CHKACC_HI (R157) -/ RegRow.mk 0x100202c 1 0x100000000 512 0x4000 8 0x400 0x0 0x0 0x0 0x0 0 0]

/-- ARR_ rows, in the order of the chapters. -/
def rowsARR1 : List RegRow := [
  /- ARR_CNT_MVM_LO (R157) -/ RegRow.mk 0x1002030 1 0x100000000 512 0x4000 8 0x400 0x0 0x0 0x0 0x0 4 0,
  /- ARR_CNT_MVM_HI (R157) -/ RegRow.mk 0x1002034 1 0x100000000 512 0x4000 8 0x400 0x0 0x0 0x0 0x0 0 0,
  /- ARR_CNT_ZSKIP (R157) -/ RegRow.mk 0x1002038 1 0x100000000 512 0x4000 8 0x400 0x0 0x0 0x0 0x0 0 0,
  /- ARR_CNT_CLIP (R157) -/ RegRow.mk 0x100203c 1 0x100000000 512 0x4000 8 0x400 0x0 0x0 0x0 0x0 0 0,
  /- ARR_CNT_CHK (R157) -/ RegRow.mk 0x1002040 1 0x100000000 512 0x4000 8 0x400 0x0 0x0 0x0 0x0 0 0,
  /- ARR_CNT_CHKSUP (R157) -/ RegRow.mk 0x1002044 1 0x100000000 512 0x4000 8 0x400 0x0 0x0 0x0 0x0 0 0,
  /- ARR_CNT_START (R157) -/ RegRow.mk 0x1002048 1 0x100000000 512 0x4000 8 0x400 0x0 0x0 0x0 0x0 0 0,
  /- ARR_CNT_REF (R157) -/ RegRow.mk 0x100204c 1 0x100000000 512 0x4000 8 0x400 0x0 0x0 0x0 0x0 0 0,
  /- ARR_CNT_NONFIN (R157) -/ RegRow.mk 0x1002050 1 0x100000000 512 0x4000 8 0x400 0x0 0x0 0x0 0x0 0 0,
  /- ARR_GAIN0 (R157) -/ RegRow.mk 0x1002100 512 0x4000 8 0x400 34 0x4 0x0 0x0 0x0 0x0 0 0,
  /- ARR_GAIN1 (R157) -/ RegRow.mk 0x1002200 512 0x4000 8 0x400 34 0x4 0x0 0x0 0x0 0x0 0 0,
  /- ARR_PRGSTAT (R200) -/ RegRow.mk 0x1002060 1 0x100000000 512 0x4000 8 0x400 0x0 0x0 0x0 0x0 0 0]

/-- ARR_ rows, in the order of the chapters. -/
def rowsARR2 : List RegRow := [
  /- ARR_VER0 (R200) -/ RegRow.mk 0x1002064 1 0x100000000 512 0x4000 8 0x400 0x0 0x0 0x0 0x0 0 0,
  /- ARR_VER1 (R200) -/ RegRow.mk 0x1002068 1 0x100000000 512 0x4000 8 0x400 0x0 0x0 0x0 0x0 0 0,
  /- ARR_PRGLIM (R200) -/ RegRow.mk 0x100206c 1 0x100000000 512 0x4000 8 0x400 0xffff 0x0 0x0 0x0 0 0x410,
  /- ARR_CNT_PULSE_LO (R200) -/ RegRow.mk 0x1002070 1 0x100000000 512 0x4000 8 0x400 0x0 0x0 0x0 0x0 4 0,
  /- ARR_CNT_PULSE_HI (R200) -/ RegRow.mk 0x1002074 1 0x100000000 512 0x4000 8 0x400 0x0 0x0 0x0 0x0 0 0,
  /- ARR_CNT_UNREACH (R200) -/ RegRow.mk 0x1002078 1 0x100000000 512 0x4000 8 0x400 0x0 0x0 0x0 0x0 0 0,
  /- ARR_CNT_CLAMP (R200) -/ RegRow.mk 0x100207c 1 0x100000000 512 0x4000 8 0x400 0x0 0x0 0x0 0x0 0 0,
  /- ARR_CNT_SUSP (R200) -/ RegRow.mk 0x1002080 1 0x100000000 512 0x4000 8 0x400 0x0 0x0 0x0 0x0 0 0,
  /- ARR_CNT_REMAP (R200) -/ RegRow.mk 0x1002084 1 0x100000000 512 0x4000 8 0x400 0x0 0x0 0x0 0x0 0 0,
  /- ARR_WEARSEL (R200) -/ RegRow.mk 0x1002088 1 0x100000000 512 0x4000 8 0x400 0x7ff 0x0 0x0 0x0 0 0,
  /- ARR_WEARVAL (R200) -/ RegRow.mk 0x100208c 1 0x100000000 512 0x4000 8 0x400 0x0 0x0 0x0 0x0 0 0,
  /- ARR_WEARMAX0 (R200) -/ RegRow.mk 0x1002090 1 0x100000000 512 0x4000 8 0x400 0x0 0x0 0x0 0x0 0 0]

/-- ARR_ rows, in the order of the chapters. -/
def rowsARR3 : List RegRow := [
  /- ARR_WEARMAX1 (R200) -/ RegRow.mk 0x1002094 1 0x100000000 512 0x4000 8 0x400 0x0 0x0 0x0 0x0 0 0,
  /- ARR_REMAP0 (R200) -/ RegRow.mk 0x1002300 512 0x4000 8 0x400 16 0x4 0x0 0x0 0x0 0x0 0 0,
  /- ARR_REMAP1 (R200) -/ RegRow.mk 0x1002340 512 0x4000 8 0x400 16 0x4 0x0 0x0 0x0 0x0 0 0,
  /- ARR_RESCFG (R227) -/ RegRow.mk 0x10020a0 1 0x100000000 512 0x4000 8 0x400 0x0 0x0 0x0 0x0 0 0x202,
  /- ARR_RESSTAT (R227) -/ RegRow.mk 0x10020a4 1 0x100000000 512 0x4000 8 0x400 0x0 0x0 0x0 0x0 0 0,
  /- ARR_RESRMS (R227) -/ RegRow.mk 0x10020a8 1 0x100000000 512 0x4000 8 0x400 0x0 0x0 0x0 0x0 0 0,
  /- ARR_RESLIM (R227) -/ RegRow.mk 0x10020ac 1 0x100000000 512 0x4000 8 0x400 0xffff 0x0 0x0 0x0 0 0x733,
  /- ARR_RESCOLN (R227) -/ RegRow.mk 0x10020b0 1 0x100000000 512 0x4000 8 0x400 0x0 0x0 0x0 0x0 0 0,
  /- ARR_BSTAT (R227) -/ RegRow.mk 0x10020b4 1 0x100000000 512 0x4000 8 0x400 0x0 0x0 0x0 0x0 0 0,
  /- ARR_BEVT (R227) -/ RegRow.mk 0x10020b8 1 0x100000000 512 0x4000 8 0x400 0x0 0x3 0x0 0x0 0 0,
  /- ARR_CNT_HMVM (R227) -/ RegRow.mk 0x10020bc 1 0x100000000 512 0x4000 8 0x400 0x0 0x0 0x0 0x0 0 0,
  /- ARR_CNT_EXCL (R227) -/ RegRow.mk 0x10020c0 1 0x100000000 512 0x4000 8 0x400 0x0 0x0 0x0 0x0 0 0]

/-- ARR_ rows, in the order of the chapters. -/
def rowsARR4 : List RegRow := [
  /- ARR_CNT_BOUT (R227) -/ RegRow.mk 0x10020c4 1 0x100000000 512 0x4000 8 0x400 0x0 0x0 0x0 0x0 0 0,
  /- ARR_CNT_CORRSTALL (R227) -/ RegRow.mk 0x10020c8 1 0x100000000 512 0x4000 8 0x400 0x0 0x0 0x0 0x0 0 0,
  /- ARR_CALSTAT (R575) -/ RegRow.mk 0x10020d0 1 0x100000000 512 0x4000 8 0x400 0x0 0x0 0x0 0x0 0 0,
  /- ARR_QCALI (R575) -/ RegRow.mk 0x10020d4 1 0x100000000 512 0x4000 8 0x400 0x0 0x0 0x0 0x0 0 0,
  /- ARR_CALLIM (R575) -/ RegRow.mk 0x10020d8 1 0x100000000 512 0x4000 8 0x400 0xffff 0x0 0x0 0x0 0 0x1008,
  /- ARR_CALEVT (R575) -/ RegRow.mk 0x10020dc 1 0x100000000 512 0x4000 8 0x400 0x0 0x3 0x0 0x0 0 0,
  /- ARR_CNT_CAL (R575) -/ RegRow.mk 0x10020e0 1 0x100000000 512 0x4000 8 0x400 0x0 0x0 0x0 0x0 0 0,
  /- ARR_CNT_CALFAIL (R575) -/ RegRow.mk 0x10020e4 1 0x100000000 512 0x4000 8 0x400 0x0 0x0 0x0 0x0 0 0,
  /- ARR_TRIMSEL (R575) -/ RegRow.mk 0x10020e8 1 0x100000000 512 0x4000 8 0x400 0x800003ff 0x0 0x0 0x0 0 0,
  /- ARR_TRIMVAL (R575) -/ RegRow.mk 0x10020ec 1 0x100000000 512 0x4000 8 0x400 0x0 0x0 0x0 0x0 0 0,
  /- ARR_CNT_GAINCUT (R319) -/ RegRow.mk 0x10020cc 1 0x100000000 512 0x4000 8 0x400 0x0 0x0 0x0 0x0 0 0]

/-- Every ARR_ row. -/
def rowsARR : List RegRow := rowsARR0 ++ rowsARR1 ++ rowsARR2 ++ rowsARR3 ++ rowsARR4

/-- HUB_ rows, in the order of the chapters. -/
def rowsHUB0 : List RegRow := [
  /- HUB_PRGCFG (R202) -/ RegRow.mk 0x800 1 0x100000000 1 0x100000000 1 0x100000000 0xffffff 0x0 0x0 0x0 0 0x800f0,
  /- HUB_PRGSTAT (R202) -/ RegRow.mk 0x804 1 0x100000000 1 0x100000000 1 0x100000000 0x0 0x0 0x0 0x0 0 0,
  /- HUB_CNT_HOLD (R202) -/ RegRow.mk 0x808 1 0x100000000 1 0x100000000 1 0x100000000 0x0 0x0 0x0 0x0 0 0,
  /- HUB_HOLDTIME_LO (R202) -/ RegRow.mk 0x80c 1 0x100000000 1 0x100000000 1 0x100000000 0x0 0x0 0x0 0x0 4 0,
  /- HUB_HOLDTIME_HI (R202) -/ RegRow.mk 0x810 1 0x100000000 1 0x100000000 1 0x100000000 0x0 0x0 0x0 0x0 0 0,
  /- HUB_PRGCMD (R202) -/ RegRow.mk 0x814 1 0x100000000 1 0x100000000 1 0x100000000 0x0 0x0 0x1 0x0 0 0,
  /- HUB_STEP_LO (R318) -/ RegRow.mk 0x900 1 0x100000000 1 0x100000000 1 0x100000000 0x0 0x0 0x0 0x0 4 0,
  /- HUB_STEP_HI (R318) -/ RegRow.mk 0x904 1 0x100000000 1 0x100000000 1 0x100000000 0x0 0x0 0x0 0x0 0 0,
  /- HUB_STEPSTAT (R318) -/ RegRow.mk 0x908 1 0x100000000 1 0x100000000 1 0x100000000 0x0 0x0 0x0 0x0 0 0,
  /- HUB_STEPEVT (R318) -/ RegRow.mk 0x90c 1 0x100000000 1 0x100000000 1 0x100000000 0x0 0x7 0x0 0x0 0 0,
  /- HUB_CNT_PHASE (R318) -/ RegRow.mk 0x910 1 0x100000000 1 0x100000000 1 0x100000000 0x0 0x0 0x0 0x0 0 0,
  /- HUB_CNT_BUBBLE (R318) -/ RegRow.mk 0x914 1 0x100000000 1 0x100000000 1 0x100000000 0x0 0x0 0x0 0x0 0 0]

/-- HUB_ rows, in the order of the chapters. -/
def rowsHUB1 : List RegRow := [
  /- HUB_BUBBLETIME_LO (R318) -/ RegRow.mk 0x918 1 0x100000000 1 0x100000000 1 0x100000000 0x0 0x0 0x0 0x0 4 0,
  /- HUB_BUBBLETIME_HI (R318) -/ RegRow.mk 0x91c 1 0x100000000 1 0x100000000 1 0x100000000 0x0 0x0 0x0 0x0 0 0,
  /- HUB_BUBCAUSE (R318) -/ RegRow.mk 0x920 1 0x100000000 1 0x100000000 1 0x100000000 0x0 0x0 0x0 0x0 0 0,
  /- HUB_CNT_SCALECUT (R318) -/ RegRow.mk 0x924 1 0x100000000 1 0x100000000 1 0x100000000 0x0 0x0 0x0 0x0 0 0,
  /- HUB_CNT_JIT (R318) -/ RegRow.mk 0x928 1 0x100000000 1 0x100000000 1 0x100000000 0x0 0x0 0x0 0x0 0 0,
  /- HUB_CNT_WATCH (R318) -/ RegRow.mk 0x92c 1 0x100000000 1 0x100000000 1 0x100000000 0x0 0x0 0x0 0x0 0 0,
  /- HUB_WCHFIRST (R318) -/ RegRow.mk 0x930 1 0x100000000 1 0x100000000 1 0x100000000 0x0 0x0 0x0 0x0 0 0,
  /- HUB_STASHOCC0 (R318) -/ RegRow.mk 0x934 1 0x100000000 1 0x100000000 1 0x100000000 0x0 0x0 0x0 0x0 0 0,
  /- HUB_STASHOCC1 (R318) -/ RegRow.mk 0x938 1 0x100000000 1 0x100000000 1 0x100000000 0x0 0x0 0x0 0x0 0 0,
  /- HUB_STASHPEAK (R318) -/ RegRow.mk 0x93c 1 0x100000000 1 0x100000000 1 0x100000000 0x0 0x0 0x0 0x0 0 0,
  /- HUB_CHSTAT (R415) -/ RegRow.mk 0xa00 1 0x100000000 1 0x100000000 1 0x100000000 0x0 0x0 0x0 0x0 0 0,
  /- HUB_CHSECT (R415) -/ RegRow.mk 0xa04 1 0x100000000 1 0x100000000 1 0x100000000 0x0 0x0 0x0 0x0 0 0]

/-- HUB_ rows, in the order of the chapters. -/
def rowsHUB2 : List RegRow := [
  /- HUB_CHENTRY (R415) -/ RegRow.mk 0xa08 1 0x100000000 1 0x100000000 1 0x100000000 0x0 0x0 0x0 0x0 0 0,
  /- HUB_CHQTY_LO (R415) -/ RegRow.mk 0xa0c 1 0x100000000 1 0x100000000 1 0x100000000 0x0 0x0 0x0 0x0 0 0,
  /- HUB_CHQTY_HI (R415) -/ RegRow.mk 0xa10 1 0x100000000 1 0x100000000 1 0x100000000 0x0 0x0 0x0 0x0 0 0,
  /- HUB_CHLIM_LO (R415) -/ RegRow.mk 0xa14 1 0x100000000 1 0x100000000 1 0x100000000 0x0 0x0 0x0 0x0 0 0,
  /- HUB_CHLIM_HI (R415) -/ RegRow.mk 0xa18 1 0x100000000 1 0x100000000 1 0x100000000 0x0 0x0 0x0 0x0 0 0,
  /- HUB_CHID_LO (R415) -/ RegRow.mk 0xa1c 1 0x100000000 1 0x100000000 1 0x100000000 0x0 0x0 0x0 0x0 4 0,
  /- HUB_CHID_HI (R415) -/ RegRow.mk 0xa20 1 0x100000000 1 0x100000000 1 0x100000000 0x0 0x0 0x0 0x0 0 0,
  /- HUB_CNT_REFUSE (R415) -/ RegRow.mk 0xa24 1 0x100000000 1 0x100000000 1 0x100000000 0x0 0x0 0x0 0x0 0 0,
  /- HUB_CHMISDEV (R415) -/ RegRow.mk 0xa28 1 0x100000000 1 0x100000000 1 0x100000000 0x0 0x0 0x0 0x0 0 0,
  /- HUB_QFWD (R415) -/ RegRow.mk 0xa30 1 0x100000000 1 0x100000000 1 0x100000000 0x0 0x0 0x0 0x0 0 0,
  /- HUB_QBWD (R415) -/ RegRow.mk 0xa34 1 0x100000000 1 0x100000000 1 0x100000000 0x0 0x0 0x0 0x0 0 0,
  /- HUB_CREDIT (R415) -/ RegRow.mk 0xa38 1 0x100000000 1 0x100000000 1 0x100000000 0x0 0x0 0x0 0x0 0 0]

/-- HUB_ rows, in the order of the chapters. -/
def rowsHUB3 : List RegRow := [
  /- HUB_CNT_CREDITWAIT (R415) -/ RegRow.mk 0xa3c 1 0x100000000 1 0x100000000 1 0x100000000 0x0 0x0 0x0 0x0 0 0,
  /- HUB_CREDITTIME_LO (R415) -/ RegRow.mk 0xa40 1 0x100000000 1 0x100000000 1 0x100000000 0x0 0x0 0x0 0x0 4 0,
  /- HUB_CREDITTIME_HI (R415) -/ RegRow.mk 0xa44 1 0x100000000 1 0x100000000 1 0x100000000 0x0 0x0 0x0 0x0 0 0,
  /- HUB_FTIME (R415) -/ RegRow.mk 0xa48 1 0x100000000 1 0x100000000 1 0x100000000 0x0 0x0 0x0 0x0 0 0,
  /- HUB_BTIME (R415) -/ RegRow.mk 0xa4c 1 0x100000000 1 0x100000000 1 0x100000000 0x0 0x0 0x0 0x0 0 0,
  /- HUB_ID (R682) -/ RegRow.mk 0x0 1 0x100000000 1 0x100000000 1 0x100000000 0x0 0x0 0x0 0x0 0 (0x40960000 + 0x200 + Config.stepping.toNat),
  /- HUB_CAP (R682) -/ RegRow.mk 0x4 1 0x100000000 1 0x100000000 1 0x100000000 0x0 0x0 0x0 0x0 0 0x10822200,
  /- HUB_MEMCAP (R682) -/ RegRow.mk 0x8 1 0x100000000 1 0x100000000 1 0x100000000 0x0 0x0 0x0 0x0 0 0x280,
  /- HUB_ENSIGN (R682) -/ RegRow.mk 0xc 1 0x100000000 1 0x100000000 1 0x100000000 0x0 0x0 0x0 0x0 0 0,
  /- HUB_EPOCH (R682) -/ RegRow.mk 0x10 1 0x100000000 1 0x100000000 1 0x100000000 0x0 0x0 0x0 0x0 0 0,
  /- HUB_DEVSTAT (R682) -/ RegRow.mk 0x14 1 0x100000000 1 0x100000000 1 0x100000000 0x0 0x0 0x0 0x0 0 0,
  /- HUB_EVTSUM (R682) -/ RegRow.mk 0x18 1 0x100000000 1 0x100000000 1 0x100000000 0x0 0x0 0x0 0x0 0 0]

/-- HUB_ rows, in the order of the chapters. -/
def rowsHUB4 : List RegRow := [
  /- HUB_EVTMASK (R682) -/ RegRow.mk 0x1c 1 0x100000000 1 0x100000000 1 0x100000000 0x3fff 0x0 0x0 0x0 0 0,
  /- HUB_ERR (R682) -/ RegRow.mk 0x20 1 0x100000000 1 0x100000000 1 0x100000000 0x0 0xf 0x0 0x0 0 0,
  /- HUB_ERRADDR (R682) -/ RegRow.mk 0x24 1 0x100000000 1 0x100000000 1 0x100000000 0x0 0x0 0x0 0x0 0 0,
  /- HUB_SCRATCH (R682) -/ RegRow.mk 0x28 1 0x100000000 1 0x100000000 1 0x100000000 0xffffffff 0x0 0x0 0xffffffff 0 0,
  /- HUB_OSC_LO (R682) -/ RegRow.mk 0x30 1 0x100000000 1 0x100000000 1 0x100000000 0x0 0x0 0x0 0x0 4 0,
  /- HUB_OSC_HI (R682) -/ RegRow.mk 0x34 1 0x100000000 1 0x100000000 1 0x100000000 0x0 0x0 0x0 0x0 0 0,
  /- HUB_TEVT (R682) -/ RegRow.mk 0x40 1 0x100000000 1 0x100000000 16 0x4 0x0 0x0 0x0 0x0 0 0,
  /- HUB_CNT_TESTHOLD (R577) -/ RegRow.mk 0xb00 1 0x100000000 1 0x100000000 1 0x100000000 0x0 0x0 0x0 0x0 0 0,
  /- HUB_TESTTIME_LO (R577) -/ RegRow.mk 0xb04 1 0x100000000 1 0x100000000 1 0x100000000 0x0 0x0 0x0 0x0 4 0,
  /- HUB_TESTTIME_HI (R577) -/ RegRow.mk 0xb08 1 0x100000000 1 0x100000000 1 0x100000000 0x0 0x0 0x0 0x0 0 0]

/-- Every HUB_ row. -/
def rowsHUB : List RegRow := rowsHUB0 ++ rowsHUB1 ++ rowsHUB2 ++ rowsHUB3 ++ rowsHUB4

/-- OPE_ rows, in the order of the chapters. -/
def rowsOPE0 : List RegRow := [
  /- OPE_CTRL (R259) -/ RegRow.mk 0x1001000 1 0x100000000 1 0x100000000 512 0x4000 0x0 0x0 0x100 0x0 0 0,
  /- OPE_STAT (R259) -/ RegRow.mk 0x1001004 1 0x100000000 1 0x100000000 512 0x4000 0x0 0x0 0x0 0x0 0 0,
  /- OPE_LCTX (R259) -/ RegRow.mk 0x1001008 1 0x100000000 1 0x100000000 512 0x4000 0x0 0x0 0x0 0x0 0 0,
  /- OPE_DPACFG (R259) -/ RegRow.mk 0x100100c 1 0x100000000 1 0x100000000 512 0x4000 0x0 0x0 0x0 0x0 0 0x10,
  /- OPE_COVSTAT (R259) -/ RegRow.mk 0x1001010 1 0x100000000 1 0x100000000 512 0x4000 0x0 0x0 0x0 0x0 0 0,
  /- OPE_EVT (R259) -/ RegRow.mk 0x1001014 1 0x100000000 1 0x100000000 512 0x4000 0x0 0x3 0x0 0x0 0 0,
  /- OPE_CNT_BUSY_LO (R259) -/ RegRow.mk 0x1001020 1 0x100000000 1 0x100000000 512 0x4000 0x0 0x0 0x0 0x0 4 0,
  /- OPE_CNT_BUSY_HI (R259) -/ RegRow.mk 0x1001024 1 0x100000000 1 0x100000000 512 0x4000 0x0 0x0 0x0 0x0 0 0,
  /- OPE_CNT_CORR_LO (R259) -/ RegRow.mk 0x1001028 1 0x100000000 1 0x100000000 512 0x4000 0x0 0x0 0x0 0x0 4 0,
  /- OPE_CNT_CORR_HI (R259) -/ RegRow.mk 0x100102c 1 0x100000000 1 0x100000000 512 0x4000 0x0 0x0 0x0 0x0 0 0,
  /- OPE_CNT_LOAD (R259) -/ RegRow.mk 0x1001030 1 0x100000000 1 0x100000000 512 0x4000 0x0 0x0 0x0 0x0 0 0,
  /- OPE_CNT_LSTALL (R259) -/ RegRow.mk 0x1001034 1 0x100000000 1 0x100000000 512 0x4000 0x0 0x0 0x0 0x0 0 0]

/-- OPE_ rows, in the order of the chapters. -/
def rowsOPE1 : List RegRow := [
  /- OPE_CNT_DSTALL (R259) -/ RegRow.mk 0x1001038 1 0x100000000 1 0x100000000 512 0x4000 0x0 0x0 0x0 0x0 0 0,
  /- OPE_CNT_TURN (R259) -/ RegRow.mk 0x100103c 1 0x100000000 1 0x100000000 512 0x4000 0x0 0x0 0x0 0x0 0 0,
  /- OPE_CNT_KEEPMISS (R259) -/ RegRow.mk 0x1001040 1 0x100000000 1 0x100000000 512 0x4000 0x0 0x0 0x0 0x0 0 0,
  /- OPE_DPA_CNT_BUSY_LO (R259) -/ RegRow.mk 0x1001050 1 0x100000000 1 0x100000000 512 0x4000 0x0 0x0 0x0 0x0 4 0,
  /- OPE_DPA_CNT_BUSY_HI (R259) -/ RegRow.mk 0x1001054 1 0x100000000 1 0x100000000 512 0x4000 0x0 0x0 0x0 0x0 0 0,
  /- OPE_DPA_CNT_PANEL (R259) -/ RegRow.mk 0x1001058 1 0x100000000 1 0x100000000 512 0x4000 0x0 0x0 0x0 0x0 0 0,
  /- OPE_DPA_CNT_COVER (R259) -/ RegRow.mk 0x100105c 1 0x100000000 1 0x100000000 512 0x4000 0x0 0x0 0x0 0x0 0 0,
  /- OPE_DPA_CNT_HOLD (R259) -/ RegRow.mk 0x1001060 1 0x100000000 1 0x100000000 512 0x4000 0x0 0x0 0x0 0x0 0 0]

/-- Every OPE_ row. -/
def rowsOPE : List RegRow := rowsOPE0 ++ rowsOPE1

/-- UPD_ rows, in the order of the chapters. -/
def rowsUPD0 : List RegRow := [
  /- UPD_STAT (R356) -/ RegRow.mk 0x80000 1 0x100000000 1 0x100000000 8 0x400 0x0 0x0 0x0 0x0 0 0,
  /- UPD_STEP_LO (R356) -/ RegRow.mk 0x80004 1 0x100000000 1 0x100000000 8 0x400 0x0 0x0 0x0 0x0 4 0,
  /- UPD_STEP_HI (R356) -/ RegRow.mk 0x80008 1 0x100000000 1 0x100000000 8 0x400 0x0 0x0 0x0 0x0 0 0,
  /- UPD_COUNT_LO (R356) -/ RegRow.mk 0x8000c 1 0x100000000 1 0x100000000 8 0x400 0x0 0x0 0x0 0x0 4 0,
  /- UPD_COUNT_HI (R356) -/ RegRow.mk 0x80010 1 0x100000000 1 0x100000000 8 0x400 0x0 0x0 0x0 0x0 0 0,
  /- UPD_GNORM (R356) -/ RegRow.mk 0x80014 1 0x100000000 1 0x100000000 8 0x400 0x0 0x0 0x0 0x0 0 0,
  /- UPD_KAPPA (R356) -/ RegRow.mk 0x80018 1 0x100000000 1 0x100000000 8 0x400 0x0 0x0 0x0 0x0 0 0,
  /- UPD_EVT (R356) -/ RegRow.mk 0x8001c 1 0x100000000 1 0x100000000 8 0x400 0x0 0xf 0x0 0x0 0 0,
  /- UPD_VETOCAUSE (R356) -/ RegRow.mk 0x80020 1 0x100000000 1 0x100000000 8 0x400 0x0 0x0 0x0 0x0 0 0,
  /- UPD_CNT_APPLIED (R356) -/ RegRow.mk 0x80024 1 0x100000000 1 0x100000000 8 0x400 0x0 0x0 0x0 0x0 0 0,
  /- UPD_CNT_VETO (R356) -/ RegRow.mk 0x80028 1 0x100000000 1 0x100000000 8 0x400 0x0 0x0 0x0 0x0 0 0,
  /- UPD_CNT_CLIP (R356) -/ RegRow.mk 0x8002c 1 0x100000000 1 0x100000000 8 0x400 0x0 0x0 0x0 0x0 0 0]

/-- UPD_ rows, in the order of the chapters. -/
def rowsUPD1 : List RegRow := [
  /- UPD_CNT_SAT (R356) -/ RegRow.mk 0x80030 1 0x100000000 1 0x100000000 8 0x400 0x0 0x0 0x0 0x0 0 0,
  /- UPD_CNT_TRUSTCLAMP (R356) -/ RegRow.mk 0x80034 1 0x100000000 1 0x100000000 8 0x400 0x0 0x0 0x0 0x0 0 0,
  /- UPD_RATIOMAX (R356) -/ RegRow.mk 0x80038 1 0x100000000 1 0x100000000 8 0x400 0x0 0x0 0x0 0x0 0 0,
  /- UPD_RATIOLAYER (R356) -/ RegRow.mk 0x8003c 1 0x100000000 1 0x100000000 8 0x400 0x0 0x0 0x0 0x0 0 0,
  /- UPD_CNT_BUSY_LO (R356) -/ RegRow.mk 0x80040 1 0x100000000 1 0x100000000 8 0x400 0x0 0x0 0x0 0x0 4 0,
  /- UPD_CNT_BUSY_HI (R356) -/ RegRow.mk 0x80044 1 0x100000000 1 0x100000000 8 0x400 0x0 0x0 0x0 0x0 0 0]

/-- Every UPD_ row. -/
def rowsUPD : List RegRow := rowsUPD0 ++ rowsUPD1

/-- FRE_ rows, in the order of the chapters. -/
def rowsFRE0 : List RegRow := [
  /- FRE_CTRL (R385) -/ RegRow.mk 0x12000 1 0x100000000 1 0x100000000 1 0x100000000 0x0 0x0 0x100 0x0 0 0,
  /- FRE_STAT (R385) -/ RegRow.mk 0x12004 1 0x100000000 1 0x100000000 1 0x100000000 0x0 0x0 0x0 0x0 0 0,
  /- FRE_RANK (R385) -/ RegRow.mk 0x12008 1 0x100000000 1 0x100000000 1 0x100000000 0x0 0x0 0x0 0x0 0 0,
  /- FRE_EVT (R385) -/ RegRow.mk 0x1200c 1 0x100000000 1 0x100000000 1 0x100000000 0x0 0x1f 0x0 0x0 0 0,
  /- FRE_CNT_SEG_LO (R385) -/ RegRow.mk 0x12010 1 0x100000000 1 0x100000000 1 0x100000000 0x0 0x0 0x0 0x0 4 0,
  /- FRE_CNT_SEG_HI (R385) -/ RegRow.mk 0x12014 1 0x100000000 1 0x100000000 1 0x100000000 0x0 0x0 0x0 0x0 0 0,
  /- FRE_CNT_SVF (R385) -/ RegRow.mk 0x12018 1 0x100000000 1 0x100000000 1 0x100000000 0x0 0x0 0x0 0x0 0 0,
  /- FRE_CNT_SAT (R385) -/ RegRow.mk 0x1201c 1 0x100000000 1 0x100000000 1 0x100000000 0x0 0x0 0x0 0x0 0 0,
  /- FRE_CNT_SLOTWAIT (R385) -/ RegRow.mk 0x12020 1 0x100000000 1 0x100000000 1 0x100000000 0x0 0x0 0x0 0x0 0 0,
  /- FRE_CNT_CRC (R385) -/ RegRow.mk 0x12024 1 0x100000000 1 0x100000000 1 0x100000000 0x0 0x0 0x0 0x0 0 0,
  /- FRE_SLOTPEAK (R385) -/ RegRow.mk 0x12028 1 0x100000000 1 0x100000000 1 0x100000000 0x0 0x0 0x0 0x0 0 0,
  /- FRE_OUTCOME (R385) -/ RegRow.mk 0x1202c 1 0x100000000 1 0x100000000 1 0x100000000 0x0 0x0 0x0 0x0 0 0]

/-- FRE_ rows, in the order of the chapters. -/
def rowsFRE1 : List RegRow := [
  /- FRE_OUTSTEP_LO (R385) -/ RegRow.mk 0x12030 1 0x100000000 1 0x100000000 1 0x100000000 0x0 0x0 0x0 0x0 0 0,
  /- FRE_OUTSTEP_HI (R385) -/ RegRow.mk 0x12034 1 0x100000000 1 0x100000000 1 0x100000000 0x0 0x0 0x0 0x0 0 0,
  /- FRE_VETOSRC (R385) -/ RegRow.mk 0x12038 1 0x100000000 1 0x100000000 1 0x100000000 0x0 0x0 0x0 0x0 0 0,
  /- FRE_VETOSHARD (R385) -/ RegRow.mk 0x1203c 1 0x100000000 1 0x100000000 1 0x100000000 0x0 0x0 0x0 0x0 0 0,
  /- FRE_CNT_COMMIT (R385) -/ RegRow.mk 0x12040 1 0x100000000 1 0x100000000 1 0x100000000 0x0 0x0 0x0 0x0 0 0,
  /- FRE_CNT_VETO (R385) -/ RegRow.mk 0x12044 1 0x100000000 1 0x100000000 1 0x100000000 0x0 0x0 0x0 0x0 0 0,
  /- FRE_CNT_LATE (R385) -/ RegRow.mk 0x12048 1 0x100000000 1 0x100000000 1 0x100000000 0x0 0x0 0x0 0x0 0 0,
  /- FRE_CNT_DUP (R385) -/ RegRow.mk 0x1204c 1 0x100000000 1 0x100000000 1 0x100000000 0x0 0x0 0x0 0x0 0 0]

/-- Every FRE_ row. -/
def rowsFRE : List RegRow := rowsFRE0 ++ rowsFRE1

/-- FAB_ rows, in the order of the chapters. -/
def rowsFAB0 : List RegRow := [
  /- FAB_DEVNUM (R454) -/ RegRow.mk 0x18000 1 0x100000000 1 0x100000000 1 0x100000000 0x0 0x0 0x0 0x0 0 0,
  /- FAB_SERIAL_LO (R454) -/ RegRow.mk 0x18004 1 0x100000000 1 0x100000000 1 0x100000000 0x0 0x0 0x0 0x0 4 (Config.serial.toNat % 2 ^ 32),
  /- FAB_SERIAL_HI (R454) -/ RegRow.mk 0x18008 1 0x100000000 1 0x100000000 1 0x100000000 0x0 0x0 0x0 0x0 0 (Config.serial.toNat / 2 ^ 32),
  /- FAB_EPOCH (R454) -/ RegRow.mk 0x1800c 1 0x100000000 1 0x100000000 1 0x100000000 0x0 0x0 0x0 0x0 0 0,
  /- FAB_ROOT_LO (R454) -/ RegRow.mk 0x18010 1 0x100000000 1 0x100000000 1 0x100000000 0x0 0x0 0x0 0x0 4 0,
  /- FAB_ROOT_HI (R454) -/ RegRow.mk 0x18014 1 0x100000000 1 0x100000000 1 0x100000000 0x0 0x0 0x0 0x0 0 0,
  /- FAB_DCTRL (R454) -/ RegRow.mk 0x18018 1 0x100000000 1 0x100000000 1 0x100000000 0x0 0x0 0x101 0x0 0 0,
  /- FAB_DNUMTAB (R454) -/ RegRow.mk 0x1801c 1 0x100000000 1 0x100000000 1 0x100000000 0xffffffff 0x0 0x0 0x0 0 0,
  /- FAB_DNUMCNT (R454) -/ RegRow.mk 0x18020 1 0x100000000 1 0x100000000 1 0x100000000 0x1ffff 0x0 0x0 0x0 0 0,
  /- FAB_ACC_LO (R454) -/ RegRow.mk 0x18024 1 0x100000000 1 0x100000000 1 0x100000000 0x0 0x0 0x0 0x0 4 0,
  /- FAB_ACC_HI (R454) -/ RegRow.mk 0x18028 1 0x100000000 1 0x100000000 1 0x100000000 0x0 0x0 0x0 0x0 0 0,
  /- FAB_EVT (R454) -/ RegRow.mk 0x1802c 1 0x100000000 1 0x100000000 1 0x100000000 0x0 0x7f 0x0 0x0 0 0]

/-- FAB_ rows, in the order of the chapters. -/
def rowsFAB1 : List RegRow := [
  /- FAB_CNT_HOPDROP (R454) -/ RegRow.mk 0x18030 1 0x100000000 1 0x100000000 1 0x100000000 0x0 0x0 0x0 0x0 0 0,
  /- FAB_CNT_DUP (R454) -/ RegRow.mk 0x18034 1 0x100000000 1 0x100000000 1 0x100000000 0x0 0x0 0x0 0x0 0 0,
  /- FAB_CNT_REORDER (R454) -/ RegRow.mk 0x18038 1 0x100000000 1 0x100000000 1 0x100000000 0x0 0x0 0x0 0x0 0 0,
  /- FAB_CNT_TABLE (R454) -/ RegRow.mk 0x1803c 1 0x100000000 1 0x100000000 1 0x100000000 0x0 0x0 0x0 0x0 0 0,
  /- FAB_CNT_PCRC (R454) -/ RegRow.mk 0x18040 1 0x100000000 1 0x100000000 1 0x100000000 0x0 0x0 0x0 0x0 0 0,
  /- FAB_GRPTBL (R454) -/ RegRow.mk 0x18400 1 0x100000000 1 0x100000000 256 0x4 0x0 0x0 0x0 0x0 0 0,
  /- FAB_MEMTBL (R454) -/ RegRow.mk 0x18800 1 0x100000000 1 0x100000000 256 0x4 0x0 0x0 0x0 0x0 0 0,
  /- FAB_PCTRL (R454) -/ RegRow.mk 0x19000 1 0x100000000 1 0x100000000 32 0x80 0x1 0x0 0x2 0x0 0 0x1,
  /- FAB_PSTAT (R454) -/ RegRow.mk 0x19004 1 0x100000000 1 0x100000000 32 0x80 0x0 0x0 0x0 0x0 0 0,
  /- FAB_PNBR_LO (R454) -/ RegRow.mk 0x19008 1 0x100000000 1 0x100000000 32 0x80 0x0 0x0 0x0 0x0 4 0,
  /- FAB_PNBR_HI (R454) -/ RegRow.mk 0x1900c 1 0x100000000 1 0x100000000 32 0x80 0x0 0x0 0x0 0x0 0 0,
  /- FAB_PNBRDEV (R454) -/ RegRow.mk 0x19010 1 0x100000000 1 0x100000000 32 0x80 0x0 0x0 0x0 0x0 0 0]

/-- FAB_ rows, in the order of the chapters. -/
def rowsFAB2 : List RegRow := [
  /- FAB_PEVT (R454) -/ RegRow.mk 0x19014 1 0x100000000 1 0x100000000 32 0x80 0x0 0x1f 0x0 0x0 0 0,
  /- FAB_PCNT_RETRY (R454) -/ RegRow.mk 0x19018 1 0x100000000 1 0x100000000 32 0x80 0x0 0x0 0x0 0x0 0 0,
  /- FAB_PCNT_CRC (R454) -/ RegRow.mk 0x1901c 1 0x100000000 1 0x100000000 32 0x80 0x0 0x0 0x0 0x0 0 0,
  /- FAB_PCNT_LANELOSS (R454) -/ RegRow.mk 0x19020 1 0x100000000 1 0x100000000 32 0x80 0x0 0x0 0x0 0x0 0 0,
  /- FAB_PCNT_DOWN (R454) -/ RegRow.mk 0x19024 1 0x100000000 1 0x100000000 32 0x80 0x0 0x0 0x0 0x0 0 0,
  /- FAB_PCNT_FECUNC (R454) -/ RegRow.mk 0x19028 1 0x100000000 1 0x100000000 32 0x80 0x0 0x0 0x0 0x0 0 0,
  /- FAB_PCNT_TX_LO (R454) -/ RegRow.mk 0x1902c 1 0x100000000 1 0x100000000 32 0x80 0x0 0x0 0x0 0x0 4 0,
  /- FAB_PCNT_TX_HI (R454) -/ RegRow.mk 0x19030 1 0x100000000 1 0x100000000 32 0x80 0x0 0x0 0x0 0x0 0 0,
  /- FAB_PCNT_RX_LO (R454) -/ RegRow.mk 0x19034 1 0x100000000 1 0x100000000 32 0x80 0x0 0x0 0x0 0x0 4 0,
  /- FAB_PCNT_RX_HI (R454) -/ RegRow.mk 0x19038 1 0x100000000 1 0x100000000 32 0x80 0x0 0x0 0x0 0x0 0 0,
  /- FAB_PRTT (R454) -/ RegRow.mk 0x1903c 1 0x100000000 1 0x100000000 32 0x80 0x0 0x0 0x0 0x0 0 0]

/-- Every FAB_ row. -/
def rowsFAB : List RegRow := rowsFAB0 ++ rowsFAB1 ++ rowsFAB2

/-- HAL_ rows, in the order of the chapters. -/
def rowsHAL0 : List RegRow := [
  /- HAL_CTRL (R493) -/ RegRow.mk 0x20000 1 0x100000000 1 0x100000000 17 0x100 0x1 0x0 0x0 0x0 0 0,
  /- HAL_SIZE (R493) -/ RegRow.mk 0x20004 1 0x100000000 1 0x100000000 17 0x100 0x1f 0x0 0x0 0x0 0 0x6,
  /- HAL_SQBASE_LO (R493) -/ RegRow.mk 0x20008 1 0x100000000 1 0x100000000 17 0x100 0xffffffff 0x0 0x0 0x0 4 0,
  /- HAL_SQBASE_HI (R493) -/ RegRow.mk 0x2000c 1 0x100000000 1 0x100000000 17 0x100 0xffffffff 0x0 0x0 0x0 0 0,
  /- HAL_CQBASE_LO (R493) -/ RegRow.mk 0x20010 1 0x100000000 1 0x100000000 17 0x100 0xffffffff 0x0 0x0 0x0 4 0,
  /- HAL_CQBASE_HI (R493) -/ RegRow.mk 0x20014 1 0x100000000 1 0x100000000 17 0x100 0xffffffff 0x0 0x0 0x0 0 0,
  /- HAL_SQPROD (R493) -/ RegRow.mk 0x20018 1 0x100000000 1 0x100000000 17 0x100 0x0 0x0 0x0 0x0 0 0,
  /- HAL_SQCONS (R493) -/ RegRow.mk 0x2001c 1 0x100000000 1 0x100000000 17 0x100 0x0 0x0 0x0 0x0 0 0,
  /- HAL_CQTAIL (R493) -/ RegRow.mk 0x20020 1 0x100000000 1 0x100000000 17 0x100 0x0 0x0 0x0 0x0 0 0,
  /- HAL_CQHEAD (R493) -/ RegRow.mk 0x20024 1 0x100000000 1 0x100000000 17 0x100 0xffffffff 0x0 0x0 0x0 0 0,
  /- HAL_IRQ (R493) -/ RegRow.mk 0x20028 1 0x100000000 1 0x100000000 17 0x100 0x803fffff 0x0 0x0 0x0 0 0x100,
  /- HAL_STAT (R493) -/ RegRow.mk 0x2002c 1 0x100000000 1 0x100000000 17 0x100 0x0 0x0 0x0 0x0 0 0]

/-- HAL_ rows, in the order of the chapters. -/
def rowsHAL1 : List RegRow := [
  /- HAL_EVT (R493) -/ RegRow.mk 0x20030 1 0x100000000 1 0x100000000 17 0x100 0x0 0x7 0x0 0x0 0 0,
  /- HAL_FDBASE_LO (R493) -/ RegRow.mk 0x22000 1 0x100000000 1 0x100000000 64 0x40 0xffffffff 0x0 0x0 0x0 4 0,
  /- HAL_FDBASE_HI (R493) -/ RegRow.mk 0x22004 1 0x100000000 1 0x100000000 64 0x40 0xffffffff 0x0 0x0 0x0 0 0,
  /- HAL_FDSIZE (R493) -/ RegRow.mk 0x22008 1 0x100000000 1 0x100000000 64 0x40 0x1f 0x0 0x0 0x0 0 0,
  /- HAL_FDPROD (R493) -/ RegRow.mk 0x2200c 1 0x100000000 1 0x100000000 64 0x40 0x0 0x0 0x0 0x0 0 0,
  /- HAL_FDCONS (R493) -/ RegRow.mk 0x22010 1 0x100000000 1 0x100000000 64 0x40 0x0 0x0 0x0 0x0 0 0,
  /- HAL_FDEVT (R493) -/ RegRow.mk 0x22014 1 0x100000000 1 0x100000000 64 0x40 0x0 0x7 0x0 0x0 0 0,
  /- HAL_FDREL (R493) -/ RegRow.mk 0x22018 1 0x100000000 1 0x100000000 64 0x40 0x0 0x0 0x0 0x0 0 0,
  /- HAL_CKBASE_LO (R493) -/ RegRow.mk 0x23000 1 0x100000000 1 0x100000000 1 0x100000000 0xffffffff 0x0 0x0 0x0 4 0,
  /- HAL_CKBASE_HI (R493) -/ RegRow.mk 0x23004 1 0x100000000 1 0x100000000 1 0x100000000 0xffffffff 0x0 0x0 0x0 0 0,
  /- HAL_CKSIZE (R493) -/ RegRow.mk 0x23008 1 0x100000000 1 0x100000000 1 0x100000000 0x1f 0x0 0x0 0x0 0 0,
  /- HAL_CKCONS (R493) -/ RegRow.mk 0x2300c 1 0x100000000 1 0x100000000 1 0x100000000 0x0 0x0 0x0 0x0 0 0]

/-- HAL_ rows, in the order of the chapters. -/
def rowsHAL2 : List RegRow := [
  /- HAL_CKSTAT (R493) -/ RegRow.mk 0x23010 1 0x100000000 1 0x100000000 1 0x100000000 0x0 0x0 0x0 0x0 0 0,
  /- HAL_CKSTEP_LO (R493) -/ RegRow.mk 0x23014 1 0x100000000 1 0x100000000 1 0x100000000 0x0 0x0 0x0 0x0 4 0,
  /- HAL_CKSTEP_HI (R493) -/ RegRow.mk 0x23018 1 0x100000000 1 0x100000000 1 0x100000000 0x0 0x0 0x0 0x0 0 0,
  /- HAL_WIN_LO (R493) -/ RegRow.mk 0x23100 1 0x100000000 1 0x100000000 1 0x100000000 0xffffffff 0x0 0x0 0x0 4 0,
  /- HAL_WIN_HI (R493) -/ RegRow.mk 0x23104 1 0x100000000 1 0x100000000 1 0x100000000 0xffffffff 0x0 0x0 0x0 0 0,
  /- HAL_EVTVEC (R493) -/ RegRow.mk 0x23108 1 0x100000000 1 0x100000000 1 0x100000000 0x3f 0x0 0x0 0x0 0 0,
  /- HAL_GEVT (R493) -/ RegRow.mk 0x2310c 1 0x100000000 1 0x100000000 1 0x100000000 0x0 0x3 0x0 0x0 0 0]

/-- Every HAL_ row. -/
def rowsHAL : List RegRow := rowsHAL0 ++ rowsHAL1 ++ rowsHAL2

/-- CTX_ rows, in the order of the chapters. -/
def rowsCTX : List RegRow := [
  /- CTX_STAT (R494) -/ RegRow.mk 0x24000 1 0x100000000 1 0x100000000 16 0x40 0x0 0x0 0x0 0x0 0 0,
  /- CTX_CNT_CMD (R494) -/ RegRow.mk 0x24004 1 0x100000000 1 0x100000000 16 0x40 0x0 0x0 0x0 0x0 0 0,
  /- CTX_CNT_ERR (R494) -/ RegRow.mk 0x24008 1 0x100000000 1 0x100000000 16 0x40 0x0 0x0 0x0 0x0 0 0,
  /- CTX_LASTERR (R494) -/ RegRow.mk 0x2400c 1 0x100000000 1 0x100000000 16 0x40 0x0 0x0 0x0 0x0 0 0,
  /- CTX_LASTACC_LO (R494) -/ RegRow.mk 0x24010 1 0x100000000 1 0x100000000 16 0x40 0x0 0x0 0x0 0x0 0 0,
  /- CTX_LASTACC_HI (R494) -/ RegRow.mk 0x24014 1 0x100000000 1 0x100000000 16 0x40 0x0 0x0 0x0 0x0 0 0]

/-- GOV_ rows, in the order of the chapters. -/
def rowsGOV0 : List RegRow := [
  /- GOV_CTRL (R522) -/ RegRow.mk 0x10000 1 0x100000000 1 0x100000000 1 0x100000000 0x3 0x0 0x0 0x0 0 0,
  /- GOV_SET (R522) -/ RegRow.mk 0x10004 1 0x100000000 1 0x100000000 1 0x100000000 0x7ff 0x0 0x0 0x0 0 0x708,
  /- GOV_STAT (R522) -/ RegRow.mk 0x10008 1 0x100000000 1 0x100000000 1 0x100000000 0x0 0x0 0x0 0x0 0 0x2bc,
  /- GOV_BEAT (R522) -/ RegRow.mk 0x1000c 1 0x100000000 1 0x100000000 1 0x100000000 0x0 0x0 0x0 0x0 0 0,
  /- GOV_PWR1 (R522) -/ RegRow.mk 0x10010 1 0x100000000 1 0x100000000 1 0x100000000 0x0 0x0 0x0 0x0 0 0,
  /- GOV_PWR100 (R522) -/ RegRow.mk 0x10014 1 0x100000000 1 0x100000000 1 0x100000000 0x0 0x0 0x0 0x0 0 0,
  /- GOV_CEIL (R522) -/ RegRow.mk 0x10018 1 0x100000000 1 0x100000000 1 0x100000000 0x0 0x0 0x0 0x0 0 0x708,
  /- GOV_VIN (R522) -/ RegRow.mk 0x1001c 1 0x100000000 1 0x100000000 1 0x100000000 0x0 0x0 0x0 0x0 0 0,
  /- GOV_TCOOL (R522) -/ RegRow.mk 0x10020 1 0x100000000 1 0x100000000 1 0x100000000 0x0 0x0 0x0 0x0 0 0xffffffff,
  /- GOV_FLOW (R522) -/ RegRow.mk 0x10024 1 0x100000000 1 0x100000000 1 0x100000000 0x0 0x0 0x0 0x0 0 0xffff,
  /- GOV_TJ (R522) -/ RegRow.mk 0x10028 1 0x100000000 1 0x100000000 1 0x100000000 0x0 0x0 0x0 0x0 0 0,
  /- GOV_PHASE (R522) -/ RegRow.mk 0x1002c 1 0x100000000 1 0x100000000 1 0x100000000 0x0 0x0 0x0 0x0 0 0]

/-- GOV_ rows, in the order of the chapters. -/
def rowsGOV1 : List RegRow := [
  /- GOV_EVT (R522) -/ RegRow.mk 0x10030 1 0x100000000 1 0x100000000 1 0x100000000 0x0 0x3ff 0x0 0x0 0 0,
  /- GOV_CNT_THROTTIME (R522) -/ RegRow.mk 0x10034 1 0x100000000 1 0x100000000 1 0x100000000 0x0 0x0 0x0 0x0 0 0,
  /- GOV_CNT_GATE (R522) -/ RegRow.mk 0x10038 1 0x100000000 1 0x100000000 1 0x100000000 0x0 0x0 0x0 0x0 0 0,
  /- GOV_CNT_PHASE (R522) -/ RegRow.mk 0x1003c 1 0x100000000 1 0x100000000 1 0x100000000 0x0 0x0 0x0 0x0 0 0,
  /- GOV_STEPPER (R522) -/ RegRow.mk 0x10040 1 0x100000000 1 0x100000000 1 0x100000000 0x0 0x0 0x0 0x0 0 0,
  /- GOV_CNT_BANDOUT (R522) -/ RegRow.mk 0x10044 1 0x100000000 1 0x100000000 1 0x100000000 0x0 0x0 0x0 0x0 0 0]

/-- Every GOV_ row. -/
def rowsGOV : List RegRow := rowsGOV0 ++ rowsGOV1

/-- SNC_ rows, in the order of the chapters. -/
def rowsSNC0 : List RegRow := [
  /- SNC_CTRL (R545) -/ RegRow.mk 0x11000 1 0x100000000 1 0x100000000 1 0x100000000 0x4 0x0 0x102 0x0 0 0x4,
  /- SNC_STAT (R545) -/ RegRow.mk 0x11004 1 0x100000000 1 0x100000000 1 0x100000000 0x0 0x0 0x0 0x0 0 0,
  /- SNC_EVT (R545) -/ RegRow.mk 0x11008 1 0x100000000 1 0x100000000 1 0x100000000 0x0 0x3f 0x0 0x0 0 0,
  /- SNC_PATHCH (R545) -/ RegRow.mk 0x1100c 1 0x100000000 1 0x100000000 1 0x100000000 0x0 0x0 0x0 0x0 0 0,
  /- SNC_TDAC (R545) -/ RegRow.mk 0x11010 1 0x100000000 1 0x100000000 1 0x100000000 0xff03ff 0x0 0x0 0x0 0 0x100200,
  /- SNC_URG (R545) -/ RegRow.mk 0x11014 1 0x100000000 1 0x100000000 1 0x100000000 0x0 0x0 0x3f 0x0 0 0,
  /- SNC_OFS (R545) -/ RegRow.mk 0x11018 1 0x100000000 1 0x100000000 1 0x100000000 0x0 0x0 0x0 0x0 0 0x8000,
  /- SNC_QSTAT (R545) -/ RegRow.mk 0x11020 1 0x100000000 1 0x100000000 1 0x100000000 0x0 0x0 0x0 0x0 0 0,
  /- SNC_QACC_LO (R545) -/ RegRow.mk 0x11024 1 0x100000000 1 0x100000000 1 0x100000000 0x0 0x0 0x0 0x0 0 0,
  /- SNC_QACC_HI (R545) -/ RegRow.mk 0x11028 1 0x100000000 1 0x100000000 1 0x100000000 0x0 0x0 0x0 0x0 0 0,
  /- SNC_QTIME (R545) -/ RegRow.mk 0x1102c 1 0x100000000 1 0x100000000 1 0x100000000 0x0 0x0 0x0 0x0 0 0,
  /- SNC_CNT_CONV_LO (R545) -/ RegRow.mk 0x11030 1 0x100000000 1 0x100000000 1 0x100000000 0x0 0x0 0x0 0x0 4 0]

/-- SNC_ rows, in the order of the chapters. -/
def rowsSNC1 : List RegRow := [
  /- SNC_CNT_CONV_HI (R545) -/ RegRow.mk 0x11034 1 0x100000000 1 0x100000000 1 0x100000000 0x0 0x0 0x0 0x0 0 0,
  /- SNC_CNT_QDROP (R545) -/ RegRow.mk 0x11038 1 0x100000000 1 0x100000000 1 0x100000000 0x0 0x0 0x0 0x0 0 0,
  /- SNC_CNT_URG (R545) -/ RegRow.mk 0x1103c 1 0x100000000 1 0x100000000 1 0x100000000 0x0 0x0 0x0 0x0 0 0,
  /- SNC_CNT_UWAIT (R545) -/ RegRow.mk 0x11040 1 0x100000000 1 0x100000000 1 0x100000000 0x0 0x0 0x0 0x0 0 0,
  /- SNC_CNT_START (R545) -/ RegRow.mk 0x11044 1 0x100000000 1 0x100000000 1 0x100000000 0x0 0x0 0x0 0x0 0 0,
  /- SNC_CNT_THR (R545) -/ RegRow.mk 0x11048 1 0x100000000 1 0x100000000 1 0x100000000 0x0 0x0 0x0 0x0 0 0,
  /- SNC_CNT_PATH (R545) -/ RegRow.mk 0x1104c 1 0x100000000 1 0x100000000 1 0x100000000 0x0 0x0 0x0 0x0 0 0,
  /- SNC_TSTAT_LO (R545) -/ RegRow.mk 0x11050 1 0x100000000 1 0x100000000 1 0x100000000 0x0 0x0 0x0 0x0 4 0,
  /- SNC_TSTAT_HI (R545) -/ RegRow.mk 0x11054 1 0x100000000 1 0x100000000 1 0x100000000 0x0 0x0 0x0 0x0 0 0,
  /- SNC_TEVT_LO (R545) -/ RegRow.mk 0x11058 1 0x100000000 1 0x100000000 1 0x100000000 0x0 0xffffffff 0x0 0x0 4 0,
  /- SNC_TEVT_HI (R545) -/ RegRow.mk 0x1105c 1 0x100000000 1 0x100000000 1 0x100000000 0x0 0xffffffff 0x0 0x0 0 0,
  /- SNC_VAL (R545) -/ RegRow.mk 0x11100 1 0x100000000 1 0x100000000 64 0x4 0x0 0x0 0x0 0x0 0 0]

/-- SNC_ rows, in the order of the chapters. -/
def rowsSNC2 : List RegRow := [
  /- SNC_THR (R545) -/ RegRow.mk 0x11200 1 0x100000000 1 0x100000000 64 0x4 0xffffffff 0x0 0x0 0x0 0 0xfff00000,
  /- SNC_SEQA_W0 (R545) -/ RegRow.mk 0x11400 1 0x100000000 1 0x100000000 48 0x8 0x0 0x0 0x0 0x0 1 0,
  /- SNC_SEQA_W1 (R545) -/ RegRow.mk 0x11404 1 0x100000000 1 0x100000000 48 0x8 0x0 0x0 0x0 0x0 2 0,
  /- SNC_SEQB_W0 (R545) -/ RegRow.mk 0x11600 1 0x100000000 1 0x100000000 48 0x8 0xffffffff 0x0 0x0 0x0 1 0,
  /- SNC_SEQB_W1 (R545) -/ RegRow.mk 0x11604 1 0x100000000 1 0x100000000 48 0x8 0xffffffff 0x0 0x0 0x0 2 0]

/-- Every SNC_ row. -/
def rowsSNC : List RegRow := rowsSNC0 ++ rowsSNC1 ++ rowsSNC2

/-- INJ_ rows, in the order of the chapters. -/
def rowsINJ : List RegRow := [
  /- INJ_CTRL (R578) -/ RegRow.mk 0x14000 1 0x100000000 1 0x100000000 1 0x100000000 0xc0ff00ff 0x0 0x0 0x0 0 0,
  /- INJ_TARGET (R578) -/ RegRow.mk 0x14004 1 0x100000000 1 0x100000000 1 0x100000000 0xfffffc00 0x0 0x0 0x0 0 0,
  /- INJ_STAT (R578) -/ RegRow.mk 0x14008 1 0x100000000 1 0x100000000 1 0x100000000 0x0 0xa0000000 0x0 0x0 0 0x40000000,
  /- INJ_ACC_LO (R578) -/ RegRow.mk 0x1400c 1 0x100000000 1 0x100000000 1 0x100000000 0x0 0x0 0x0 0x0 4 0,
  /- INJ_ACC_HI (R578) -/ RegRow.mk 0x14010 1 0x100000000 1 0x100000000 1 0x100000000 0x0 0x0 0x0 0x0 0 0,
  /- INJ_CNT (R578) -/ RegRow.mk 0x14014 1 0x100000000 1 0x100000000 1 0x100000000 0x0 0x0 0x0 0x0 0 0]

/-- RST_ rows, in the order of the chapters. -/
def rowsRST0 : List RegRow := [
  /- RST_CTRL (R617) -/ RegRow.mk 0x13000 1 0x100000000 1 0x100000000 1 0x100000000 0x0 0x0 0x1fd 0x0 0 0,
  /- RST_STAT (R617) -/ RegRow.mk 0x13004 1 0x100000000 1 0x100000000 1 0x100000000 0x0 0x0 0x0 0x0 0 0,
  /- RST_FLTCLS (R617) -/ RegRow.mk 0x13008 1 0x100000000 1 0x100000000 1 0x100000000 0x0 0x0 0x0 0x0 0 0,
  /- RST_FLTACC_LO (R617) -/ RegRow.mk 0x1300c 1 0x100000000 1 0x100000000 1 0x100000000 0x0 0x0 0x0 0x0 0 0,
  /- RST_FLTACC_HI (R617) -/ RegRow.mk 0x13010 1 0x100000000 1 0x100000000 1 0x100000000 0x0 0x0 0x0 0x0 0 0,
  /- RST_FLTSTEP_LO (R617) -/ RegRow.mk 0x13014 1 0x100000000 1 0x100000000 1 0x100000000 0x0 0x0 0x0 0x0 0 0,
  /- RST_FLTSTEP_HI (R617) -/ RegRow.mk 0x13018 1 0x100000000 1 0x100000000 1 0x100000000 0x0 0x0 0x0 0x0 0 0,
  /- RST_RBSTEP_LO (R617) -/ RegRow.mk 0x1301c 1 0x100000000 1 0x100000000 1 0x100000000 0x0 0x0 0x0 0x0 4 0,
  /- RST_RBSTEP_HI (R617) -/ RegRow.mk 0x13020 1 0x100000000 1 0x100000000 1 0x100000000 0x0 0x0 0x0 0x0 0 0,
  /- RST_EVT (R617) -/ RegRow.mk 0x13024 1 0x100000000 1 0x100000000 1 0x100000000 0x0 0x7f 0x0 0x0 0 0,
  /- RST_WDLIM (R617) -/ RegRow.mk 0x13028 1 0x100000000 1 0x100000000 1 0x100000000 0xffffffff 0x0 0x0 0x0 0 0x2710,
  /- RST_CNT_CRST (R617) -/ RegRow.mk 0x1302c 1 0x100000000 1 0x100000000 1 0x100000000 0x0 0x0 0x0 0x0 0 0]

/-- RST_ rows, in the order of the chapters. -/
def rowsRST1 : List RegRow := [
  /- RST_CNT_PRST (R617) -/ RegRow.mk 0x13030 1 0x100000000 1 0x100000000 1 0x100000000 0x0 0x0 0x0 0x0 0 0,
  /- RST_CNT_ROLLBACK (R617) -/ RegRow.mk 0x13034 1 0x100000000 1 0x100000000 1 0x100000000 0x0 0x0 0x0 0x0 0 0,
  /- RST_CNT_HANG (R617) -/ RegRow.mk 0x13038 1 0x100000000 1 0x100000000 1 0x100000000 0x0 0x0 0x0 0x0 0 0,
  /- RST_CNT_REPLAY (R617) -/ RegRow.mk 0x1303c 1 0x100000000 1 0x100000000 1 0x100000000 0x0 0x0 0x0 0x0 0 0,
  /- RST_CNT_TERM (R617) -/ RegRow.mk 0x13040 1 0x100000000 1 0x100000000 1 0x100000000 0x0 0x0 0x0 0x0 0 0,
  /- RST_CNT_MEMCE (R617) -/ RegRow.mk 0x13044 1 0x100000000 1 0x100000000 1 0x100000000 0x0 0x0 0x0 0x0 0 0,
  /- RST_CNT_MEMUE (R617) -/ RegRow.mk 0x13048 1 0x100000000 1 0x100000000 1 0x100000000 0x0 0x0 0x0 0x0 0 0,
  /- RST_CNT_STEWARD (R617) -/ RegRow.mk 0x1304c 1 0x100000000 1 0x100000000 1 0x100000000 0x0 0x0 0x0 0x0 0 0,
  /- RST_CNT_CONFLICT (R617) -/ RegRow.mk 0x13050 1 0x100000000 1 0x100000000 1 0x100000000 0x0 0x0 0x0 0x0 0 0,
  /- RST_CNT_ARRFAIL (R617) -/ RegRow.mk 0x13054 1 0x100000000 1 0x100000000 1 0x100000000 0x0 0x0 0x0 0x0 0 0,
  /- RST_DUMPBASE_LO (R617) -/ RegRow.mk 0x13060 1 0x100000000 1 0x100000000 1 0x100000000 0xffffffff 0x0 0x0 0x0 4 0,
  /- RST_DUMPBASE_HI (R617) -/ RegRow.mk 0x13064 1 0x100000000 1 0x100000000 1 0x100000000 0xffffffff 0x0 0x0 0x0 0 0]

/-- RST_ rows, in the order of the chapters. -/
def rowsRST2 : List RegRow := [
  /- RST_DUMPSIZE (R617) -/ RegRow.mk 0x13068 1 0x100000000 1 0x100000000 1 0x100000000 0xffff 0x0 0x0 0x0 0 0,
  /- RST_DUMPSTAT (R617) -/ RegRow.mk 0x1306c 1 0x100000000 1 0x100000000 1 0x100000000 0x0 0x0 0x0 0x0 0 0,
  /- RST_DUMPLEN (R617) -/ RegRow.mk 0x13070 1 0x100000000 1 0x100000000 1 0x100000000 0x0 0x0 0x0 0x0 0 0,
  /- RST_CNT_DUMP (R617) -/ RegRow.mk 0x13074 1 0x100000000 1 0x100000000 1 0x100000000 0x0 0x0 0x0 0x0 0 0]

/-- Every RST_ row. -/
def rowsRST : List RegRow := rowsRST0 ++ rowsRST1 ++ rowsRST2

/-- CNT_ rows, in the order of the chapters. -/
def rowsCNT0 : List RegRow := [
  /- CNT_CTRL (R641) -/ RegRow.mk 0x1001400 1 0x100000000 1 0x100000000 512 0x4000 0xffff0000 0x0 0x0 0x0 0 0x7fff0000,
  /- CNT_FILT (R641) -/ RegRow.mk 0x1001404 1 0x100000000 1 0x100000000 512 0x4000 0xffff 0x0 0x0 0x0 0 0xffff,
  /- CNT_STAT (R641) -/ RegRow.mk 0x1001408 1 0x100000000 1 0x100000000 512 0x4000 0x0 0x0 0x0 0x0 0 0,
  /- CNT_AOWN_LO (R641) -/ RegRow.mk 0x1001410 1 0x100000000 1 0x100000000 512 0x4000 0x0 0x0 0x0 0x0 4 0,
  /- CNT_AOWN_HI (R641) -/ RegRow.mk 0x1001414 1 0x100000000 1 0x100000000 512 0x4000 0x0 0x0 0x0 0x0 0 0,
  /- CNT_BOWN_LO (R641) -/ RegRow.mk 0x1001418 1 0x100000000 1 0x100000000 512 0x4000 0x0 0x0 0x0 0x0 4 0,
  /- CNT_BOWN_HI (R641) -/ RegRow.mk 0x100141c 1 0x100000000 1 0x100000000 512 0x4000 0x0 0x0 0x0 0x0 0 0,
  /- CNT_RDSEL (R641) -/ RegRow.mk 0x1001420 1 0x100000000 1 0x100000000 512 0x4000 0x3f 0x0 0x0 0x0 0 0x20,
  /- CNT_RDVAL_LO (R641) -/ RegRow.mk 0x1001424 1 0x100000000 1 0x100000000 512 0x4000 0x0 0x0 0x0 0x0 0 0,
  /- CNT_RDVAL_HI (R641) -/ RegRow.mk 0x1001428 1 0x100000000 1 0x100000000 512 0x4000 0x0 0x0 0x0 0x0 0 0,
  /- CNT_RDACC_LO (R641) -/ RegRow.mk 0x100142c 1 0x100000000 1 0x100000000 512 0x4000 0x0 0x0 0x0 0x0 0 0,
  /- CNT_RDACC_HI (R641) -/ RegRow.mk 0x1001430 1 0x100000000 1 0x100000000 512 0x4000 0x0 0x0 0x0 0x0 0 0]

/-- CNT_ rows, in the order of the chapters. -/
def rowsCNT1 : List RegRow := [
  /- CNT_SWAPS (R641) -/ RegRow.mk 0x1001434 1 0x100000000 1 0x100000000 512 0x4000 0x0 0x0 0x0 0x0 0 0,
  /- CNT_DISPLACED (R641) -/ RegRow.mk 0x1001438 1 0x100000000 1 0x100000000 512 0x4000 0x0 0x0 0x0 0x0 0 0,
  /- CNT_SEL (R641) -/ RegRow.mk 0x1001440 1 0x100000000 512 0x4000 16 0x4 0xff 0x0 0x0 0x0 3 0]

/-- Every CNT_ row. -/
def rowsCNT : List RegRow := rowsCNT0 ++ rowsCNT1

/-- FOL_ rows, in the order of the chapters. -/
def rowsFOL0 : List RegRow := [
  /- FOL_CTRL (R642) -/ RegRow.mk 0x1c000 1 0x100000000 1 0x100000000 1 0x100000000 0xff000000 0x0 0x100 0x0 0 0,
  /- FOL_TYPES (R642) -/ RegRow.mk 0x1c004 1 0x100000000 1 0x100000000 1 0x100000000 0x7 0x0 0x0 0x0 0 0x4,
  /- FOL_BASE_LO (R642) -/ RegRow.mk 0x1c008 1 0x100000000 1 0x100000000 1 0x100000000 0xffffffff 0x0 0x0 0x0 4 0,
  /- FOL_BASE_HI (R642) -/ RegRow.mk 0x1c00c 1 0x100000000 1 0x100000000 1 0x100000000 0xffffffff 0x0 0x0 0x0 0 0,
  /- FOL_SIZE (R642) -/ RegRow.mk 0x1c010 1 0x100000000 1 0x100000000 1 0x100000000 0x3f 0x0 0x0 0x0 0 0x10,
  /- FOL_PROD_LO (R642) -/ RegRow.mk 0x1c014 1 0x100000000 1 0x100000000 1 0x100000000 0x0 0x0 0x0 0x0 4 0,
  /- FOL_PROD_HI (R642) -/ RegRow.mk 0x1c018 1 0x100000000 1 0x100000000 1 0x100000000 0x0 0x0 0x0 0x0 0 0,
  /- FOL_CONS_LO (R642) -/ RegRow.mk 0x1c01c 1 0x100000000 1 0x100000000 1 0x100000000 0xffffffff 0x0 0x0 0x0 4 0,
  /- FOL_CONS_HI (R642) -/ RegRow.mk 0x1c020 1 0x100000000 1 0x100000000 1 0x100000000 0xffffffff 0x0 0x0 0x0 0 0,
  /- FOL_RDEV (R642) -/ RegRow.mk 0x1c024 1 0x100000000 1 0x100000000 1 0x100000000 0xffff 0x0 0x0 0x0 0 0,
  /- FOL_STAT (R642) -/ RegRow.mk 0x1c028 1 0x100000000 1 0x100000000 1 0x100000000 0x0 0x0 0x0 0x0 0 0,
  /- FOL_CNT_DROP (R642) -/ RegRow.mk 0x1c030 1 0x100000000 1 0x100000000 1 0x100000000 0x0 0x0 0x0 0x0 0 0]

/-- FOL_ rows, in the order of the chapters. -/
def rowsFOL1 : List RegRow := [
  /- FOL_CNT_REC (R642) -/ RegRow.mk 0x1c034 1 0x100000000 1 0x100000000 1 0x100000000 0x0 0x0 0x0 0x0 0 0,
  /- FOL_CNT_WRAP (R642) -/ RegRow.mk 0x1c038 1 0x100000000 1 0x100000000 1 0x100000000 0x0 0x0 0x0 0x0 0 0,
  /- FOL_TOCC (R642) -/ RegRow.mk 0x1d000 1 0x100000000 1 0x100000000 512 0x10 0x0 0x0 0x0 0x0 0 0,
  /- FOL_TSEQ (R642) -/ RegRow.mk 0x1d004 1 0x100000000 1 0x100000000 512 0x10 0x0 0x0 0x0 0x0 0 0,
  /- FOL_TDROP (R642) -/ RegRow.mk 0x1d008 1 0x100000000 1 0x100000000 512 0x10 0x0 0x0 0x0 0x0 0 0]

/-- Every FOL_ row. -/
def rowsFOL : List RegRow := rowsFOL0 ++ rowsFOL1

/-- SEC_ rows, in the order of the chapters. -/
def rowsSEC : List RegRow := [
  /- SEC_BOOT (R669) -/ RegRow.mk 0x40000 1 0x100000000 1 0x100000000 1 0x100000000 0x0 0x0 0x0 0x0 0 0,
  /- SEC_FUSESVN (R669) -/ RegRow.mk 0x40004 1 0x100000000 1 0x100000000 1 0x100000000 0x0 0x0 0x0 0x0 0 (Config.fusedSvn 3 % 64 * 4096 + Config.fusedSvn 2 % 64 * 64 + Config.fusedSvn 1 % 64),
  /- SEC_RUNSVN (R669) -/ RegRow.mk 0x40008 1 0x100000000 1 0x100000000 1 0x100000000 0x0 0x0 0x0 0x0 0 0,
  /- SEC_KEYS (R669) -/ RegRow.mk 0x4000c 1 0x100000000 1 0x100000000 1 0x100000000 0x0 0x0 0x0 0x0 0 (Config.keysRevoked.toNat * 16 + Config.keysPresent.toNat),
  /- SEC_CTRL (R669) -/ RegRow.mk 0x40010 1 0x100000000 1 0x100000000 1 0x100000000 0x30 0x0 0x7 0x0 0 0,
  /- SEC_UPDSRC_LO (R669) -/ RegRow.mk 0x40014 1 0x100000000 1 0x100000000 1 0x100000000 0xffffffff 0x0 0x0 0x0 4 0,
  /- SEC_UPDSRC_HI (R669) -/ RegRow.mk 0x40018 1 0x100000000 1 0x100000000 1 0x100000000 0xffffffff 0x0 0x0 0x0 0 0,
  /- SEC_UPDLEN (R669) -/ RegRow.mk 0x4001c 1 0x100000000 1 0x100000000 1 0x100000000 0xffffffff 0x0 0x0 0x0 0 0,
  /- SEC_UPDSTAT (R669) -/ RegRow.mk 0x40020 1 0x100000000 1 0x100000000 1 0x100000000 0x0 0x0 0x0 0x0 0 0,
  /- SEC_EVT (R669) -/ RegRow.mk 0x40024 1 0x100000000 1 0x100000000 1 0x100000000 0x0 0xf 0x0 0x0 0 0,
  /- SEC_RWOFS (R669) -/ RegRow.mk 0x40028 1 0x100000000 1 0x100000000 1 0x100000000 0xffffffff 0x0 0x0 0x0 0 0,
  /- SEC_RWIN (R669) -/ RegRow.mk 0x50000 1 0x100000000 1 0x100000000 16384 0x4 0xffffffff 0x0 0x0 0x0 0 0]

/-- LDG_ rows, in the order of the chapters. -/
def rowsLDG0 : List RegRow := [
  /- LDG_STAT (R670) -/ RegRow.mk 0x15000 1 0x100000000 1 0x100000000 1 0x100000000 0x0 0x0 0x0 0x0 0 0,
  /- LDG_EPOCH (R670) -/ RegRow.mk 0x15004 1 0x100000000 1 0x100000000 1 0x100000000 0x0 0x0 0x0 0x0 0 0,
  /- LDG_CMD (R670) -/ RegRow.mk 0x15008 1 0x100000000 1 0x100000000 1 0x100000000 0x0 0x0 0xcfffffff 0x0 0 0,
  /- LDG_KEY (R670) -/ RegRow.mk 0x1500c 1 0x100000000 1 0x100000000 1 0x100000000 0xffffffff 0x0 0x0 0x0 0 0,
  /- LDG_RES (R670) -/ RegRow.mk 0x15010 1 0x100000000 1 0x100000000 1 0x100000000 0x0 0x0 0x0 0x0 0 0,
  /- LDG_ACC_LO (R670) -/ RegRow.mk 0x15014 1 0x100000000 1 0x100000000 1 0x100000000 0x0 0x0 0x0 0x0 4 0,
  /- LDG_ACC_HI (R670) -/ RegRow.mk 0x15018 1 0x100000000 1 0x100000000 1 0x100000000 0x0 0x0 0x0 0x0 0 0,
  /- LDG_LIVE (R670) -/ RegRow.mk 0x1501c 1 0x100000000 1 0x100000000 1 0x100000000 0x0 0x0 0x0 0x0 0 0,
  /- LDG_CNT_APPEND (R670) -/ RegRow.mk 0x15020 1 0x100000000 1 0x100000000 1 0x100000000 0x0 0x0 0x0 0x0 0 0,
  /- LDG_CNT_COMPACT (R670) -/ RegRow.mk 0x15024 1 0x100000000 1 0x100000000 1 0x100000000 0x0 0x0 0x0 0x0 0 0,
  /- LDG_CNT_TORN (R670) -/ RegRow.mk 0x15028 1 0x100000000 1 0x100000000 1 0x100000000 0x0 0x0 0x0 0x0 0 0,
  /- LDG_CNT_BADREC (R670) -/ RegRow.mk 0x1502c 1 0x100000000 1 0x100000000 1 0x100000000 0x0 0x0 0x0 0x0 0 0]

/-- LDG_ rows, in the order of the chapters. -/
def rowsLDG1 : List RegRow := [
  /- LDG_EVT (R670) -/ RegRow.mk 0x15030 1 0x100000000 1 0x100000000 1 0x100000000 0x0 0x7 0x0 0x0 0 0,
  /- LDG_BUF (R670) -/ RegRow.mk 0x15800 1 0x100000000 1 0x100000000 512 0x4 0xffffffff 0x0 0x0 0x0 0 0]

/-- Every LDG_ row. -/
def rowsLDG : List RegRow := rowsLDG0 ++ rowsLDG1

/-- The row of an index, where the offset is one of the row's registers. -/
def RegRow.index? (r : RegRow) (off : Nat) : Option (Nat × Nat × Nat) :=
  if off < r.base then none else
    let d := off - r.base
    let i := d / r.s1
    let d := d % r.s1
    let j := d / r.s2
    let d := d % r.s2
    let k := d / r.s3
    if i < r.n1 && j < r.n2 && k < r.n3 && d % r.s3 == 0 then some (i, j, k) else none

/-- The rows that can hold an offset, by block (R671). -/
def rowsOf (off : Nat) : List RegRow :=
  if off < 0x10000 then rowsHUB
  else if off < 0x11000 then rowsGOV
  else if off < 0x12000 then rowsSNC
  else if off < 0x13000 then rowsFRE
  else if off < 0x14000 then rowsRST
  else if off < 0x15000 then rowsINJ
  else if off < 0x18000 then rowsLDG
  else if off < 0x1C000 then rowsFAB
  else if off < 0x20000 then rowsFOL
  else if off < 0x24000 then rowsHAL
  else if off < 0x40000 then rowsCTX
  else if off < 0x80000 then rowsSEC
  else if off < 0x1000000 then rowsUPD
  else
    let t := off % 0x4000
    if t < 0x1000 then rowsTIL
    else if t < 0x1400 then rowsOPE
    else if t < 0x2000 then rowsCNT
    else rowsARR

/-- The first row of a list that holds an offset, with the register's place in it. -/
def findIn (off : Nat) : List RegRow → Option (RegRow × Nat × Nat × Nat)
  | [] => none
  | r :: rs =>
    match r.index? off with
    | some p => some (r, p)
    | none => findIn off rs

/-- The register at an offset, if R671 to R673 allocate one there. -/
def findReg (off : Nat) : Option (RegRow × Nat × Nat × Nat) := findIn off (rowsOf off)

/-- Word 0 of the default sequencer table of R538: the channel of each enabled entry. -/
def seqDefault0 (e : Nat) : Nat :=
  if e < 16 then e else if e < 22 then e + 40 else if e = 22 then 63 else 0

/-- Word 1 of the default sequencer table of R538 (fields of R534): A, EN, THR and END. -/
def seqDefault1 (e : Nat) : Nat :=
  if e < 16 then 0x503 else if e < 20 then 0x50F else if e < 22 then 0x507 else if e = 22 then 0xD0F else 0

/-- The default event of counter n (R620). -/
def cntSelDefault (n : Nat) : Nat :=
  ([0x01, 0x02, 0x03, 0x07, 0x08, 0x10, 0x11, 0x12, 0x13, 0x15, 0x20, 0x21, 0x22, 0x40, 0x42, 0x43]).getD n 0

/-- The reset value of a register of a row: its constant, or an entry of a default table. -/
def RegRow.resetOf (r : RegRow) (k : Nat) : Nat :=
  match r.kind with
  | 1 => seqDefault0 k
  | 2 => seqDefault1 k
  | 3 => cntSelDefault k
  | _ => r.rst

/-- What a register holds at power-up (R522, R545, R682 and the register tables); 0 where no register stands. -/
def regReset (off : Nat) : W32 :=
  match findReg off with
  | some (r, _, _, k) => BitVec.ofNat 32 (r.resetOf k)
  | none => 0

/-! ### Offsets -/

abbrev R.TIL_NSTAT (t : Nat) : Nat := 0x1000200 + 0x4000 * t
abbrev R.TIL_NROW (t : Nat) : Nat := 0x1000204 + 0x4000 * t
abbrev R.TIL_NCOL (t : Nat) : Nat := 0x1000208 + 0x4000 * t
abbrev R.TIL_NSAT (t : Nat) : Nat := 0x100020c + 0x4000 * t
abbrev R.TIL_NACC_LO (t : Nat) : Nat := 0x1000210 + 0x4000 * t
abbrev R.TIL_NACC_HI (t : Nat) : Nat := 0x1000214 + 0x4000 * t
abbrev R.TIL_NSUM (t : Nat) : Nat := 0x1000218 + 0x4000 * t
abbrev R.ARR_CTRL (t a : Nat) : Nat := 0x1002000 + 0x4000 * t + 0x400 * a
abbrev R.ARR_STAT (t a : Nat) : Nat := 0x1002004 + 0x4000 * t + 0x400 * a
abbrev R.ARR_EVT (t a : Nat) : Nat := 0x1002008 + 0x4000 * t + 0x400 * a
abbrev R.ARR_WS0 (t a : Nat) : Nat := 0x100201c + 0x4000 * t + 0x400 * a
abbrev R.ARR_WS1 (t a : Nat) : Nat := 0x1002020 + 0x4000 * t + 0x400 * a
abbrev R.ARR_CNT_MVM_LO (t a : Nat) : Nat := 0x1002030 + 0x4000 * t + 0x400 * a
abbrev R.ARR_CNT_MVM_HI (t a : Nat) : Nat := 0x1002034 + 0x4000 * t + 0x400 * a
abbrev R.ARR_CNT_ZSKIP (t a : Nat) : Nat := 0x1002038 + 0x4000 * t + 0x400 * a
abbrev R.ARR_CNT_CLIP (t a : Nat) : Nat := 0x100203c + 0x4000 * t + 0x400 * a
abbrev R.ARR_CNT_CHK (t a : Nat) : Nat := 0x1002040 + 0x4000 * t + 0x400 * a
abbrev R.ARR_CNT_CHKSUP (t a : Nat) : Nat := 0x1002044 + 0x4000 * t + 0x400 * a
abbrev R.ARR_CNT_START (t a : Nat) : Nat := 0x1002048 + 0x4000 * t + 0x400 * a
abbrev R.ARR_CNT_REF (t a : Nat) : Nat := 0x100204c + 0x4000 * t + 0x400 * a
abbrev R.ARR_CNT_NONFIN (t a : Nat) : Nat := 0x1002050 + 0x4000 * t + 0x400 * a
abbrev R.ARR_GAIN0 (t a i : Nat) : Nat := 0x1002100 + 0x4000 * t + 0x400 * a + 0x4 * i
abbrev R.ARR_GAIN1 (t a i : Nat) : Nat := 0x1002200 + 0x4000 * t + 0x400 * a + 0x4 * i
abbrev R.ARR_VER0 (t a : Nat) : Nat := 0x1002064 + 0x4000 * t + 0x400 * a
abbrev R.ARR_VER1 (t a : Nat) : Nat := 0x1002068 + 0x4000 * t + 0x400 * a
abbrev R.ARR_CNT_PULSE_LO (t a : Nat) : Nat := 0x1002070 + 0x4000 * t + 0x400 * a
abbrev R.ARR_CNT_PULSE_HI (t a : Nat) : Nat := 0x1002074 + 0x4000 * t + 0x400 * a
abbrev R.ARR_CNT_UNREACH (t a : Nat) : Nat := 0x1002078 + 0x4000 * t + 0x400 * a
abbrev R.ARR_CNT_CLAMP (t a : Nat) : Nat := 0x100207c + 0x4000 * t + 0x400 * a
abbrev R.ARR_CNT_SUSP (t a : Nat) : Nat := 0x1002080 + 0x4000 * t + 0x400 * a
abbrev R.ARR_CNT_REMAP (t a : Nat) : Nat := 0x1002084 + 0x4000 * t + 0x400 * a
abbrev R.ARR_WEARVAL (t a : Nat) : Nat := 0x100208c + 0x4000 * t + 0x400 * a
abbrev R.ARR_WEARMAX0 (t a : Nat) : Nat := 0x1002090 + 0x4000 * t + 0x400 * a
abbrev R.ARR_WEARMAX1 (t a : Nat) : Nat := 0x1002094 + 0x4000 * t + 0x400 * a
abbrev R.ARR_REMAP0 (t a i : Nat) : Nat := 0x1002300 + 0x4000 * t + 0x400 * a + 0x4 * i
abbrev R.ARR_REMAP1 (t a i : Nat) : Nat := 0x1002340 + 0x4000 * t + 0x400 * a + 0x4 * i
abbrev R.HUB_PRGCFG : Nat := 0x800
abbrev R.HUB_PRGCMD : Nat := 0x814
abbrev R.ARR_BSTAT (t a : Nat) : Nat := 0x10020b4 + 0x4000 * t + 0x400 * a
abbrev R.ARR_BEVT (t a : Nat) : Nat := 0x10020b8 + 0x4000 * t + 0x400 * a
abbrev R.ARR_CNT_HMVM (t a : Nat) : Nat := 0x10020bc + 0x4000 * t + 0x400 * a
abbrev R.ARR_CNT_EXCL (t a : Nat) : Nat := 0x10020c0 + 0x4000 * t + 0x400 * a
abbrev R.ARR_CNT_BOUT (t a : Nat) : Nat := 0x10020c4 + 0x4000 * t + 0x400 * a
abbrev R.ARR_CNT_CORRSTALL (t a : Nat) : Nat := 0x10020c8 + 0x4000 * t + 0x400 * a
abbrev R.OPE_CTRL (t : Nat) : Nat := 0x1001000 + 0x4000 * t
abbrev R.OPE_STAT (t : Nat) : Nat := 0x1001004 + 0x4000 * t
abbrev R.OPE_EVT (t : Nat) : Nat := 0x1001014 + 0x4000 * t
abbrev R.OPE_CNT_BUSY_LO (t : Nat) : Nat := 0x1001020 + 0x4000 * t
abbrev R.OPE_CNT_BUSY_HI (t : Nat) : Nat := 0x1001024 + 0x4000 * t
abbrev R.OPE_CNT_LOAD (t : Nat) : Nat := 0x1001030 + 0x4000 * t
abbrev R.OPE_CNT_LSTALL (t : Nat) : Nat := 0x1001034 + 0x4000 * t
abbrev R.OPE_CNT_KEEPMISS (t : Nat) : Nat := 0x1001040 + 0x4000 * t
abbrev R.OPE_DPA_CNT_PANEL (t : Nat) : Nat := 0x1001058 + 0x4000 * t
abbrev R.OPE_DPA_CNT_COVER (t : Nat) : Nat := 0x100105c + 0x4000 * t
abbrev R.OPE_DPA_CNT_HOLD (t : Nat) : Nat := 0x1001060 + 0x4000 * t
abbrev R.TIL_RSE_EVT (t : Nat) : Nat := 0x1000310 + 0x4000 * t
abbrev R.TIL_RSE_LOSS_HI (t : Nat) : Nat := 0x1000328 + 0x4000 * t
abbrev R.TIL_RSE_LOSS_LO (t : Nat) : Nat := 0x100032c + 0x4000 * t
abbrev R.HUB_STEPEVT : Nat := 0x90c
abbrev R.HUB_WCHFIRST : Nat := 0x930
abbrev R.HUB_STASHPEAK : Nat := 0x93c
abbrev R.UPD_STAT (n : Nat) : Nat := 0x80000 + 0x400 * n
abbrev R.UPD_GNORM (n : Nat) : Nat := 0x80014 + 0x400 * n
abbrev R.UPD_KAPPA (n : Nat) : Nat := 0x80018 + 0x400 * n
abbrev R.UPD_EVT (n : Nat) : Nat := 0x8001c + 0x400 * n
abbrev R.FRE_CTRL : Nat := 0x12000
abbrev R.FRE_STAT : Nat := 0x12004
abbrev R.FRE_RANK : Nat := 0x12008
abbrev R.FRE_EVT : Nat := 0x1200c
abbrev R.FRE_CNT_SEG_LO : Nat := 0x12010
abbrev R.FRE_CNT_SEG_HI : Nat := 0x12014
abbrev R.FRE_CNT_SVF : Nat := 0x12018
abbrev R.FRE_CNT_SAT : Nat := 0x1201c
abbrev R.FRE_CNT_SLOTWAIT : Nat := 0x12020
abbrev R.FRE_CNT_CRC : Nat := 0x12024
abbrev R.FRE_OUTCOME : Nat := 0x1202c
abbrev R.FRE_OUTSTEP_LO : Nat := 0x12030
abbrev R.FRE_OUTSTEP_HI : Nat := 0x12034
abbrev R.FRE_VETOSRC : Nat := 0x12038
abbrev R.FRE_VETOSHARD : Nat := 0x1203c
abbrev R.FRE_CNT_COMMIT : Nat := 0x12040
abbrev R.FRE_CNT_VETO : Nat := 0x12044
abbrev R.FRE_CNT_LATE : Nat := 0x12048
abbrev R.FRE_CNT_DUP : Nat := 0x1204c
abbrev R.HUB_CHSTAT : Nat := 0xa00
abbrev R.HUB_CHSECT : Nat := 0xa04
abbrev R.HUB_CHENTRY : Nat := 0xa08
abbrev R.HUB_CHQTY_LO : Nat := 0xa0c
abbrev R.HUB_CHQTY_HI : Nat := 0xa10
abbrev R.HUB_CHLIM_LO : Nat := 0xa14
abbrev R.HUB_CHLIM_HI : Nat := 0xa18
abbrev R.FAB_DEVNUM : Nat := 0x18000
abbrev R.FAB_SERIAL_LO : Nat := 0x18004
abbrev R.FAB_SERIAL_HI : Nat := 0x18008
abbrev R.FAB_EPOCH : Nat := 0x1800c
abbrev R.FAB_DCTRL : Nat := 0x18018
abbrev R.FAB_ACC_LO : Nat := 0x18024
abbrev R.FAB_ACC_HI : Nat := 0x18028
abbrev R.FAB_EVT : Nat := 0x1802c
abbrev R.FAB_CNT_HOPDROP : Nat := 0x18030
abbrev R.FAB_CNT_DUP : Nat := 0x18034
abbrev R.FAB_CNT_REORDER : Nat := 0x18038
abbrev R.FAB_CNT_TABLE : Nat := 0x1803c
abbrev R.FAB_CNT_PCRC : Nat := 0x18040
abbrev R.FAB_GRPTBL (i : Nat) : Nat := 0x18400 + 0x4 * i
abbrev R.FAB_MEMTBL (i : Nat) : Nat := 0x18800 + 0x4 * i
abbrev R.FAB_PCTRL (p : Nat) : Nat := 0x19000 + 0x80 * p
abbrev R.FAB_PSTAT (p : Nat) : Nat := 0x19004 + 0x80 * p
abbrev R.FAB_PNBRDEV (p : Nat) : Nat := 0x19010 + 0x80 * p
abbrev R.FAB_PEVT (p : Nat) : Nat := 0x19014 + 0x80 * p
abbrev R.FAB_PCNT_RETRY (p : Nat) : Nat := 0x19018 + 0x80 * p
abbrev R.FAB_PCNT_DOWN (p : Nat) : Nat := 0x19024 + 0x80 * p
abbrev R.FAB_PCNT_TX_LO (p : Nat) : Nat := 0x1902c + 0x80 * p
abbrev R.FAB_PCNT_RX_HI (p : Nat) : Nat := 0x19038 + 0x80 * p
abbrev R.HAL_CTRL (h : Nat) : Nat := 0x20000 + 0x100 * h
abbrev R.HAL_SIZE (h : Nat) : Nat := 0x20004 + 0x100 * h
abbrev R.HAL_SQBASE_LO (h : Nat) : Nat := 0x20008 + 0x100 * h
abbrev R.HAL_CQBASE_LO (h : Nat) : Nat := 0x20010 + 0x100 * h
abbrev R.HAL_CQBASE_HI (h : Nat) : Nat := 0x20014 + 0x100 * h
abbrev R.HAL_SQPROD (h : Nat) : Nat := 0x20018 + 0x100 * h
abbrev R.HAL_SQCONS (h : Nat) : Nat := 0x2001c + 0x100 * h
abbrev R.HAL_CQTAIL (h : Nat) : Nat := 0x20020 + 0x100 * h
abbrev R.HAL_CQHEAD (h : Nat) : Nat := 0x20024 + 0x100 * h
abbrev R.HAL_IRQ (h : Nat) : Nat := 0x20028 + 0x100 * h
abbrev R.HAL_STAT (h : Nat) : Nat := 0x2002c + 0x100 * h
abbrev R.HAL_EVT (h : Nat) : Nat := 0x20030 + 0x100 * h
abbrev R.HAL_FDBASE_LO (h : Nat) : Nat := 0x22000 + 0x40 * h
abbrev R.HAL_FDSIZE (h : Nat) : Nat := 0x22008 + 0x40 * h
abbrev R.HAL_FDPROD (h : Nat) : Nat := 0x2200c + 0x40 * h
abbrev R.HAL_FDCONS (h : Nat) : Nat := 0x22010 + 0x40 * h
abbrev R.HAL_FDEVT (h : Nat) : Nat := 0x22014 + 0x40 * h
abbrev R.HAL_FDREL (h : Nat) : Nat := 0x22018 + 0x40 * h
abbrev R.HAL_CKBASE_LO : Nat := 0x23000
abbrev R.HAL_CKSIZE : Nat := 0x23008
abbrev R.HAL_CKCONS : Nat := 0x2300c
abbrev R.HAL_CKSTAT : Nat := 0x23010
abbrev R.HAL_WIN_LO : Nat := 0x23100
abbrev R.HAL_WIN_HI : Nat := 0x23104
abbrev R.HAL_GEVT : Nat := 0x2310c
abbrev R.CTX_STAT (c : Nat) : Nat := 0x24000 + 0x40 * c
abbrev R.CTX_LASTERR (c : Nat) : Nat := 0x2400c + 0x40 * c
abbrev R.CTX_LASTACC_LO (c : Nat) : Nat := 0x24010 + 0x40 * c
abbrev R.CTX_LASTACC_HI (c : Nat) : Nat := 0x24014 + 0x40 * c
abbrev R.GOV_CTRL : Nat := 0x10000
abbrev R.GOV_SET : Nat := 0x10004
abbrev R.GOV_STAT : Nat := 0x10008
abbrev R.GOV_BEAT : Nat := 0x1000c
abbrev R.GOV_PWR1 : Nat := 0x10010
abbrev R.GOV_PWR100 : Nat := 0x10014
abbrev R.GOV_CEIL : Nat := 0x10018
abbrev R.GOV_TJ : Nat := 0x10028
abbrev R.GOV_EVT : Nat := 0x10030
abbrev R.SNC_CTRL : Nat := 0x11000
abbrev R.SNC_STAT : Nat := 0x11004
abbrev R.SNC_EVT : Nat := 0x11008
abbrev R.SNC_PATHCH : Nat := 0x1100c
abbrev R.SNC_URG : Nat := 0x11014
abbrev R.SNC_QSTAT : Nat := 0x11020
abbrev R.SNC_QTIME : Nat := 0x1102c
abbrev R.SNC_CNT_CONV_LO : Nat := 0x11030
abbrev R.SNC_CNT_CONV_HI : Nat := 0x11034
abbrev R.SNC_CNT_QDROP : Nat := 0x11038
abbrev R.SNC_CNT_URG : Nat := 0x1103c
abbrev R.SNC_CNT_UWAIT : Nat := 0x11040
abbrev R.SNC_CNT_START : Nat := 0x11044
abbrev R.SNC_CNT_THR : Nat := 0x11048
abbrev R.SNC_CNT_PATH : Nat := 0x1104c
abbrev R.SNC_TSTAT_LO : Nat := 0x11050
abbrev R.SNC_TSTAT_HI : Nat := 0x11054
abbrev R.SNC_TEVT_LO : Nat := 0x11058
abbrev R.SNC_TEVT_HI : Nat := 0x1105c
abbrev R.SNC_VAL (i : Nat) : Nat := 0x11100 + 0x4 * i
abbrev R.SNC_THR (i : Nat) : Nat := 0x11200 + 0x4 * i
abbrev R.SNC_SEQA_W0 (i : Nat) : Nat := 0x11400 + 0x8 * i
abbrev R.SNC_SEQA_W1 (i : Nat) : Nat := 0x11404 + 0x8 * i
abbrev R.SNC_SEQB_W0 (i : Nat) : Nat := 0x11600 + 0x8 * i
abbrev R.SNC_SEQB_W1 (i : Nat) : Nat := 0x11604 + 0x8 * i
abbrev R.ARR_CALEVT (t a : Nat) : Nat := 0x10020dc + 0x4000 * t + 0x400 * a
abbrev R.ARR_CNT_CAL (t a : Nat) : Nat := 0x10020e0 + 0x4000 * t + 0x400 * a
abbrev R.ARR_CNT_CALFAIL (t a : Nat) : Nat := 0x10020e4 + 0x4000 * t + 0x400 * a
abbrev R.ARR_TRIMVAL (t a : Nat) : Nat := 0x10020ec + 0x4000 * t + 0x400 * a
abbrev R.TIL_CHKCTRL (t : Nat) : Nat := 0x1000400 + 0x4000 * t
abbrev R.TIL_CHKEVT (t : Nat) : Nat := 0x1000404 + 0x4000 * t
abbrev R.TIL_REDSTAT (t : Nat) : Nat := 0x1000414 + 0x4000 * t
abbrev R.TIL_TESTSTAT (t : Nat) : Nat := 0x1000418 + 0x4000 * t
abbrev R.TIL_CALPT (t : Nat) : Nat := 0x100041c + 0x4000 * t
abbrev R.INJ_CTRL : Nat := 0x14000
abbrev R.INJ_STAT : Nat := 0x14008
abbrev R.INJ_CNT : Nat := 0x14014
abbrev R.RST_CTRL : Nat := 0x13000
abbrev R.RST_STAT : Nat := 0x13004
abbrev R.RST_FLTCLS : Nat := 0x13008
abbrev R.RST_FLTACC_LO : Nat := 0x1300c
abbrev R.RST_FLTACC_HI : Nat := 0x13010
abbrev R.RST_FLTSTEP_LO : Nat := 0x13014
abbrev R.RST_FLTSTEP_HI : Nat := 0x13018
abbrev R.RST_EVT : Nat := 0x13024
abbrev R.RST_CNT_CRST : Nat := 0x1302c
abbrev R.RST_CNT_PRST : Nat := 0x13030
abbrev R.RST_CNT_ROLLBACK : Nat := 0x13034
abbrev R.RST_CNT_HANG : Nat := 0x13038
abbrev R.RST_CNT_REPLAY : Nat := 0x1303c
abbrev R.RST_CNT_TERM : Nat := 0x13040
abbrev R.RST_CNT_MEMCE : Nat := 0x13044
abbrev R.RST_CNT_MEMUE : Nat := 0x13048
abbrev R.RST_CNT_STEWARD : Nat := 0x1304c
abbrev R.RST_CNT_CONFLICT : Nat := 0x13050
abbrev R.RST_CNT_ARRFAIL : Nat := 0x13054
abbrev R.RST_DUMPBASE_LO : Nat := 0x13060
abbrev R.RST_DUMPSTAT : Nat := 0x1306c
abbrev R.RST_CNT_DUMP : Nat := 0x13074
abbrev R.CNT_RDVAL_LO (t : Nat) : Nat := 0x1001424 + 0x4000 * t
abbrev R.CNT_RDVAL_HI (t : Nat) : Nat := 0x1001428 + 0x4000 * t
abbrev R.CNT_RDACC_LO (t : Nat) : Nat := 0x100142c + 0x4000 * t
abbrev R.CNT_RDACC_HI (t : Nat) : Nat := 0x1001430 + 0x4000 * t
abbrev R.FOL_CTRL : Nat := 0x1c000
abbrev R.FOL_BASE_LO : Nat := 0x1c008
abbrev R.FOL_SIZE : Nat := 0x1c010
abbrev R.FOL_CONS_LO : Nat := 0x1c01c
abbrev R.FOL_CONS_HI : Nat := 0x1c020
abbrev R.FOL_STAT : Nat := 0x1c028
abbrev R.FOL_CNT_DROP : Nat := 0x1c030
abbrev R.FOL_CNT_REC : Nat := 0x1c034
abbrev R.FOL_CNT_WRAP : Nat := 0x1c038
abbrev R.FOL_TDROP (t : Nat) : Nat := 0x1d008 + 0x10 * t
abbrev R.SEC_BOOT : Nat := 0x40000
abbrev R.SEC_FUSESVN : Nat := 0x40004
abbrev R.SEC_RUNSVN : Nat := 0x40008
abbrev R.SEC_KEYS : Nat := 0x4000c
abbrev R.SEC_CTRL : Nat := 0x40010
abbrev R.SEC_UPDSRC_LO : Nat := 0x40014
abbrev R.SEC_UPDSTAT : Nat := 0x40020
abbrev R.SEC_EVT : Nat := 0x40024
abbrev R.SEC_RWOFS : Nat := 0x40028
abbrev R.SEC_RWIN (i : Nat) : Nat := 0x50000 + 0x4 * i
abbrev R.LDG_STAT : Nat := 0x15000
abbrev R.LDG_CMD : Nat := 0x15008
abbrev R.LDG_KEY : Nat := 0x1500c
abbrev R.LDG_RES : Nat := 0x15010
abbrev R.LDG_EVT : Nat := 0x15030
abbrev R.LDG_BUF (i : Nat) : Nat := 0x15800 + 0x4 * i
abbrev R.HUB_ID : Nat := 0x0
abbrev R.HUB_ENSIGN : Nat := 0xc
abbrev R.HUB_EPOCH : Nat := 0x10
abbrev R.HUB_DEVSTAT : Nat := 0x14
abbrev R.HUB_EVTSUM : Nat := 0x18
abbrev R.HUB_EVTMASK : Nat := 0x1c
abbrev R.HUB_ERR : Nat := 0x20
abbrev R.HUB_ERRADDR : Nat := 0x24
abbrev R.HUB_SCRATCH : Nat := 0x28
abbrev R.HUB_OSC_LO : Nat := 0x30
abbrev R.HUB_OSC_HI : Nat := 0x34
abbrev R.HUB_TEVT (i : Nat) : Nat := 0x40 + 0x4 * i
abbrev R.ARR_CNT_GAINCUT (t a : Nat) : Nat := 0x10020cc + 0x4000 * t + 0x400 * a
abbrev R.HUB_CNT_TESTHOLD : Nat := 0xb00
abbrev R.HUB_TESTTIME_LO : Nat := 0xb04
abbrev R.HUB_TESTTIME_HI : Nat := 0xb08

/-! ### Fields -/

abbrev F.TIL_NSTAT_VALID (t : Nat) : Fld := ⟨0x1000200 + 0x4000 * t, 31, 31⟩
abbrev F.TIL_NSTAT_CTX (t : Nat) : Fld := ⟨0x1000200 + 0x4000 * t, 15, 12⟩
abbrev F.TIL_NSTAT_NP (t : Nat) : Fld := ⟨0x1000200 + 0x4000 * t, 4, 4⟩
abbrev F.TIL_NSTAT_SVF (t : Nat) : Fld := ⟨0x1000200 + 0x4000 * t, 0, 0⟩
abbrev F.TIL_NROW_ROW (t : Nat) : Fld := ⟨0x1000204 + 0x4000 * t, 23, 0⟩
abbrev F.TIL_NCOL_COL (t : Nat) : Fld := ⟨0x1000208 + 0x4000 * t, 23, 0⟩
abbrev F.TIL_NSAT_COUNT (t : Nat) : Fld := ⟨0x100020c + 0x4000 * t, 31, 0⟩
abbrev F.TIL_NACC_LO_ACC_LO (t : Nat) : Fld := ⟨0x1000210 + 0x4000 * t, 31, 0⟩
abbrev F.TIL_NACC_HI_ACC_HI (t : Nat) : Fld := ⟨0x1000214 + 0x4000 * t, 31, 0⟩
abbrev F.TIL_NSUM_ABS_ANY (t : Nat) : Fld := ⟨0x1000218 + 0x4000 * t, 2, 2⟩
abbrev F.TIL_NSUM_SAT_ANY (t : Nat) : Fld := ⟨0x1000218 + 0x4000 * t, 1, 1⟩
abbrev F.TIL_NSUM_SVF_ANY (t : Nat) : Fld := ⟨0x1000218 + 0x4000 * t, 0, 0⟩
abbrev F.ARR_CTRL_REFCHK (t a : Nat) : Fld := ⟨0x1002000 + 0x4000 * t + 0x400 * a, 3, 3⟩
abbrev F.ARR_CTRL_CHKEN (t a : Nat) : Fld := ⟨0x1002000 + 0x4000 * t + 0x400 * a, 2, 2⟩
abbrev F.ARR_CTRL_PDEN (t a : Nat) : Fld := ⟨0x1002000 + 0x4000 * t + 0x400 * a, 1, 1⟩
abbrev F.ARR_STAT_INSVC (t a : Nat) : Fld := ⟨0x1002004 + 0x4000 * t + 0x400 * a, 5, 5⟩
abbrev F.ARR_STAT_COVER (t a : Nat) : Fld := ⟨0x1002004 + 0x4000 * t + 0x400 * a, 4, 4⟩
abbrev F.ARR_STAT_IDLEBUSY (t a : Nat) : Fld := ⟨0x1002004 + 0x4000 * t + 0x400 * a, 3, 3⟩
abbrev F.ARR_STAT_CONV_ON (t a : Nat) : Fld := ⟨0x1002004 + 0x4000 * t + 0x400 * a, 1, 1⟩
abbrev F.ARR_STAT_ACTIVE (t a : Nat) : Fld := ⟨0x1002004 + 0x4000 * t + 0x400 * a, 0, 0⟩
abbrev F.ARR_EVT_NONFIN (t a : Nat) : Fld := ⟨0x1002008 + 0x4000 * t + 0x400 * a, 3, 3⟩
abbrev F.ARR_EVT_REF_FAULT (t a : Nat) : Fld := ⟨0x1002008 + 0x4000 * t + 0x400 * a, 2, 2⟩
abbrev F.ARR_EVT_CLIP (t a : Nat) : Fld := ⟨0x1002008 + 0x4000 * t + 0x400 * a, 1, 1⟩
abbrev F.ARR_EVT_CHK_MISMATCH (t a : Nat) : Fld := ⟨0x1002008 + 0x4000 * t + 0x400 * a, 0, 0⟩
abbrev F.ARR_CHKTOL_TOL (t a : Nat) : Fld := ⟨0x100200c + 0x4000 * t + 0x400 * a, 15, 0⟩
abbrev F.ARR_REFTOL_TOL (t a : Nat) : Fld := ⟨0x1002010 + 0x4000 * t + 0x400 * a, 7, 0⟩
abbrev F.ARR_QCAL_QCAL (t a : Nat) : Fld := ⟨0x1002014 + 0x4000 * t + 0x400 * a, 19, 0⟩
abbrev F.ARR_QAVG_QAVG (t a : Nat) : Fld := ⟨0x1002018 + 0x4000 * t + 0x400 * a, 19, 0⟩
abbrev F.ARR_CHKVEC_VEC (t a : Nat) : Fld := ⟨0x1002024 + 0x4000 * t + 0x400 * a, 23, 0⟩
abbrev F.ARR_CHKACC_LO_ACC_LO (t a : Nat) : Fld := ⟨0x1002028 + 0x4000 * t + 0x400 * a, 31, 0⟩
abbrev F.ARR_CHKACC_HI_ACC_HI (t a : Nat) : Fld := ⟨0x100202c + 0x4000 * t + 0x400 * a, 31, 0⟩
abbrev F.ARR_CNT_MVM_LO_COUNT (t a : Nat) : Fld := ⟨0x1002030 + 0x4000 * t + 0x400 * a, 31, 0⟩
abbrev F.ARR_CNT_MVM_HI_COUNT (t a : Nat) : Fld := ⟨0x1002034 + 0x4000 * t + 0x400 * a, 15, 0⟩
abbrev F.ARR_CNT_ZSKIP_COUNT (t a : Nat) : Fld := ⟨0x1002038 + 0x4000 * t + 0x400 * a, 31, 0⟩
abbrev F.ARR_CNT_CLIP_COUNT (t a : Nat) : Fld := ⟨0x100203c + 0x4000 * t + 0x400 * a, 31, 0⟩
abbrev F.ARR_CNT_CHK_COUNT (t a : Nat) : Fld := ⟨0x1002040 + 0x4000 * t + 0x400 * a, 31, 0⟩
abbrev F.ARR_CNT_CHKSUP_COUNT (t a : Nat) : Fld := ⟨0x1002044 + 0x4000 * t + 0x400 * a, 31, 0⟩
abbrev F.ARR_CNT_START_COUNT (t a : Nat) : Fld := ⟨0x1002048 + 0x4000 * t + 0x400 * a, 31, 0⟩
abbrev F.ARR_CNT_REF_COUNT (t a : Nat) : Fld := ⟨0x100204c + 0x4000 * t + 0x400 * a, 31, 0⟩
abbrev F.ARR_CNT_NONFIN_COUNT (t a : Nat) : Fld := ⟨0x1002050 + 0x4000 * t + 0x400 * a, 31, 0⟩
abbrev F.ARR_PRGSTAT_STATE (t a : Nat) : Fld := ⟨0x1002060 + 0x4000 * t + 0x400 * a, 31, 28⟩
abbrev F.ARR_PRGSTAT_SUSP (t a : Nat) : Fld := ⟨0x1002060 + 0x4000 * t + 0x400 * a, 27, 27⟩
abbrev F.ARR_PRGSTAT_FULL (t a : Nat) : Fld := ⟨0x1002060 + 0x4000 * t + 0x400 * a, 26, 26⟩
abbrev F.ARR_PRGSTAT_REFRESH (t a : Nat) : Fld := ⟨0x1002060 + 0x4000 * t + 0x400 * a, 25, 25⟩
abbrev F.ARR_PRGSTAT_CHKOFF1 (t a : Nat) : Fld := ⟨0x1002060 + 0x4000 * t + 0x400 * a, 24, 24⟩
abbrev F.ARR_PRGSTAT_CHKOFF0 (t a : Nat) : Fld := ⟨0x1002060 + 0x4000 * t + 0x400 * a, 23, 23⟩
abbrev F.ARR_PRGSTAT_ROW (t a : Nat) : Fld := ⟨0x1002060 + 0x4000 * t + 0x400 * a, 8, 0⟩
abbrev F.ARR_PRGLIM_UNRCOL (t a : Nat) : Fld := ⟨0x100206c + 0x4000 * t + 0x400 * a, 15, 8⟩
abbrev F.ARR_PRGLIM_CLAMPLIM (t a : Nat) : Fld := ⟨0x100206c + 0x4000 * t + 0x400 * a, 7, 0⟩
abbrev F.ARR_CNT_PULSE_LO_COUNT (t a : Nat) : Fld := ⟨0x1002070 + 0x4000 * t + 0x400 * a, 31, 0⟩
abbrev F.ARR_CNT_PULSE_HI_COUNT (t a : Nat) : Fld := ⟨0x1002074 + 0x4000 * t + 0x400 * a, 15, 0⟩
abbrev F.ARR_CNT_UNREACH_COUNT (t a : Nat) : Fld := ⟨0x1002078 + 0x4000 * t + 0x400 * a, 31, 0⟩
abbrev F.ARR_CNT_CLAMP_COUNT (t a : Nat) : Fld := ⟨0x100207c + 0x4000 * t + 0x400 * a, 31, 0⟩
abbrev F.ARR_CNT_SUSP_COUNT (t a : Nat) : Fld := ⟨0x1002080 + 0x4000 * t + 0x400 * a, 31, 0⟩
abbrev F.ARR_CNT_REMAP_COUNT (t a : Nat) : Fld := ⟨0x1002084 + 0x4000 * t + 0x400 * a, 31, 0⟩
abbrev F.ARR_WEARSEL_BANK (t a : Nat) : Fld := ⟨0x1002088 + 0x4000 * t + 0x400 * a, 10, 10⟩
abbrev F.ARR_WEARSEL_COL (t a : Nat) : Fld := ⟨0x1002088 + 0x4000 * t + 0x400 * a, 9, 0⟩
abbrev F.HUB_PRGCFG_RVTEMP : Fld := ⟨0x800, 23, 16⟩
abbrev F.HUB_PRGCFG_RVINT : Fld := ⟨0x800, 15, 0⟩
abbrev F.HUB_PRGSTAT_POLICY : Fld := ⟨0x804, 31, 31⟩
abbrev F.HUB_PRGSTAT_HOLD : Fld := ⟨0x804, 30, 30⟩
abbrev F.HUB_CNT_HOLD_COUNT : Fld := ⟨0x808, 31, 0⟩
abbrev F.HUB_HOLDTIME_LO_TIME : Fld := ⟨0x80c, 31, 0⟩
abbrev F.HUB_HOLDTIME_HI_TIME : Fld := ⟨0x810, 15, 0⟩
abbrev F.ARR_RESCFG_ITER (t a : Nat) : Fld := ⟨0x10020a0 + 0x4000 * t + 0x400 * a, 10, 8⟩
abbrev F.ARR_RESCFG_RANK (t a : Nat) : Fld := ⟨0x10020a0 + 0x4000 * t + 0x400 * a, 2, 0⟩
abbrev F.ARR_RESSTAT_VALID (t a : Nat) : Fld := ⟨0x10020a4 + 0x4000 * t + 0x400 * a, 31, 31⟩
abbrev F.ARR_RESSTAT_RANK_ACT (t a : Nat) : Fld := ⟨0x10020a4 + 0x4000 * t + 0x400 * a, 30, 28⟩
abbrev F.ARR_RESSTAT_MBANK (t a : Nat) : Fld := ⟨0x10020a4 + 0x4000 * t + 0x400 * a, 27, 27⟩
abbrev F.ARR_RESSTAT_CAPT (t a : Nat) : Fld := ⟨0x10020a4 + 0x4000 * t + 0x400 * a, 15, 0⟩
abbrev F.ARR_RESRMS_TOT (t a : Nat) : Fld := ⟨0x10020a8 + 0x4000 * t + 0x400 * a, 31, 16⟩
abbrev F.ARR_RESRMS_UNC (t a : Nat) : Fld := ⟨0x10020a8 + 0x4000 * t + 0x400 * a, 15, 0⟩
abbrev F.ARR_RESLIM_LIM (t a : Nat) : Fld := ⟨0x10020ac + 0x4000 * t + 0x400 * a, 15, 0⟩
abbrev F.ARR_RESCOLN_FIRST (t a : Nat) : Fld := ⟨0x10020b0 + 0x4000 * t + 0x400 * a, 25, 16⟩
abbrev F.ARR_RESCOLN_COUNT (t a : Nat) : Fld := ⟨0x10020b0 + 0x4000 * t + 0x400 * a, 9, 0⟩
abbrev F.ARR_BSTAT_RVCFG (t a : Nat) : Fld := ⟨0x10020b4 + 0x4000 * t + 0x400 * a, 6, 6⟩
abbrev F.ARR_BSTAT_NOFACT (t a : Nat) : Fld := ⟨0x10020b4 + 0x4000 * t + 0x400 * a, 5, 5⟩
abbrev F.ARR_BSTAT_RESCOL (t a : Nat) : Fld := ⟨0x10020b4 + 0x4000 * t + 0x400 * a, 4, 4⟩
abbrev F.ARR_BSTAT_RVDUE (t a : Nat) : Fld := ⟨0x10020b4 + 0x4000 * t + 0x400 * a, 3, 3⟩
abbrev F.ARR_BSTAT_THOT (t a : Nat) : Fld := ⟨0x10020b4 + 0x4000 * t + 0x400 * a, 2, 2⟩
abbrev F.ARR_BSTAT_TCOLD (t a : Nat) : Fld := ⟨0x10020b4 + 0x4000 * t + 0x400 * a, 1, 1⟩
abbrev F.ARR_BSTAT_INBUD (t a : Nat) : Fld := ⟨0x10020b4 + 0x4000 * t + 0x400 * a, 0, 0⟩
abbrev F.ARR_BEVT_LEAVE (t a : Nat) : Fld := ⟨0x10020b8 + 0x4000 * t + 0x400 * a, 1, 1⟩
abbrev F.ARR_BEVT_RESCOL (t a : Nat) : Fld := ⟨0x10020b8 + 0x4000 * t + 0x400 * a, 0, 0⟩
abbrev F.ARR_CNT_HMVM_COUNT (t a : Nat) : Fld := ⟨0x10020bc + 0x4000 * t + 0x400 * a, 31, 0⟩
abbrev F.ARR_CNT_EXCL_COUNT (t a : Nat) : Fld := ⟨0x10020c0 + 0x4000 * t + 0x400 * a, 31, 0⟩
abbrev F.ARR_CNT_BOUT_COUNT (t a : Nat) : Fld := ⟨0x10020c4 + 0x4000 * t + 0x400 * a, 31, 0⟩
abbrev F.ARR_CNT_CORRSTALL_COUNT (t a : Nat) : Fld := ⟨0x10020c8 + 0x4000 * t + 0x400 * a, 31, 0⟩
abbrev F.OPE_LCTX_CTX3 (t : Nat) : Fld := ⟨0x1001008 + 0x4000 * t, 15, 12⟩
abbrev F.OPE_LCTX_CTX2 (t : Nat) : Fld := ⟨0x1001008 + 0x4000 * t, 11, 8⟩
abbrev F.OPE_LCTX_CTX1 (t : Nat) : Fld := ⟨0x1001008 + 0x4000 * t, 7, 4⟩
abbrev F.OPE_LCTX_CTX0 (t : Nat) : Fld := ⟨0x1001008 + 0x4000 * t, 3, 0⟩
abbrev F.OPE_DPACFG_RUN (t : Nat) : Fld := ⟨0x100100c + 0x4000 * t, 7, 0⟩
abbrev F.OPE_COVSTAT_ARRMASK (t : Nat) : Fld := ⟨0x1001010 + 0x4000 * t, 31, 24⟩
abbrev F.OPE_COVSTAT_COLS (t : Nat) : Fld := ⟨0x1001010 + 0x4000 * t, 9, 0⟩
abbrev F.OPE_EVT_COVOVF (t : Nat) : Fld := ⟨0x1001014 + 0x4000 * t, 1, 1⟩
abbrev F.OPE_EVT_PACE (t : Nat) : Fld := ⟨0x1001014 + 0x4000 * t, 0, 0⟩
abbrev F.OPE_CNT_BUSY_LO_COUNT (t : Nat) : Fld := ⟨0x1001020 + 0x4000 * t, 31, 0⟩
abbrev F.OPE_CNT_BUSY_HI_COUNT (t : Nat) : Fld := ⟨0x1001024 + 0x4000 * t, 15, 0⟩
abbrev F.OPE_CNT_CORR_LO_COUNT (t : Nat) : Fld := ⟨0x1001028 + 0x4000 * t, 31, 0⟩
abbrev F.OPE_CNT_CORR_HI_COUNT (t : Nat) : Fld := ⟨0x100102c + 0x4000 * t, 15, 0⟩
abbrev F.OPE_CNT_LOAD_COUNT (t : Nat) : Fld := ⟨0x1001030 + 0x4000 * t, 31, 0⟩
abbrev F.OPE_CNT_LSTALL_COUNT (t : Nat) : Fld := ⟨0x1001034 + 0x4000 * t, 31, 0⟩
abbrev F.OPE_CNT_DSTALL_COUNT (t : Nat) : Fld := ⟨0x1001038 + 0x4000 * t, 31, 0⟩
abbrev F.OPE_CNT_TURN_COUNT (t : Nat) : Fld := ⟨0x100103c + 0x4000 * t, 31, 0⟩
abbrev F.OPE_CNT_KEEPMISS_COUNT (t : Nat) : Fld := ⟨0x1001040 + 0x4000 * t, 31, 0⟩
abbrev F.OPE_DPA_CNT_BUSY_LO_COUNT (t : Nat) : Fld := ⟨0x1001050 + 0x4000 * t, 31, 0⟩
abbrev F.OPE_DPA_CNT_BUSY_HI_COUNT (t : Nat) : Fld := ⟨0x1001054 + 0x4000 * t, 15, 0⟩
abbrev F.OPE_DPA_CNT_PANEL_COUNT (t : Nat) : Fld := ⟨0x1001058 + 0x4000 * t, 31, 0⟩
abbrev F.OPE_DPA_CNT_COVER_COUNT (t : Nat) : Fld := ⟨0x100105c + 0x4000 * t, 31, 0⟩
abbrev F.OPE_DPA_CNT_HOLD_COUNT (t : Nat) : Fld := ⟨0x1001060 + 0x4000 * t, 31, 0⟩
abbrev F.TIL_RSE_REC_RESIDENT (t : Nat) : Fld := ⟨0x1000304 + 0x4000 * t, 14, 0⟩
abbrev F.TIL_RSE_SPILLED_COUNT (t : Nat) : Fld := ⟨0x1000308 + 0x4000 * t, 31, 0⟩
abbrev F.TIL_RSE_PEAK_COUNT (t : Nat) : Fld := ⟨0x100030c + 0x4000 * t, 31, 0⟩
abbrev F.TIL_RSE_EVT_CAP (t : Nat) : Fld := ⟨0x1000310 + 0x4000 * t, 2, 2⟩
abbrev F.TIL_RSE_EVT_MISSING (t : Nat) : Fld := ⟨0x1000310 + 0x4000 * t, 1, 1⟩
abbrev F.TIL_RSE_EVT_BADLBL (t : Nat) : Fld := ⟨0x1000310 + 0x4000 * t, 0, 0⟩
abbrev F.TIL_RSE_CNT_SPILL_COUNT (t : Nat) : Fld := ⟨0x1000314 + 0x4000 * t, 31, 0⟩
abbrev F.TIL_RSE_CNT_RELOAD_COUNT (t : Nat) : Fld := ⟨0x1000318 + 0x4000 * t, 31, 0⟩
abbrev F.TIL_RSE_CNT_RWAIT_COUNT (t : Nat) : Fld := ⟨0x100031c + 0x4000 * t, 31, 0⟩
abbrev F.TIL_RSE_CNT_IGNORE_COUNT (t : Nat) : Fld := ⟨0x1000320 + 0x4000 * t, 31, 0⟩
abbrev F.TIL_RSE_CNT_BADLBL_COUNT (t : Nat) : Fld := ⟨0x1000324 + 0x4000 * t, 31, 0⟩
abbrev F.TIL_RSE_LOSS_HI_HI (t : Nat) : Fld := ⟨0x1000328 + 0x4000 * t, 31, 0⟩
abbrev F.TIL_RSE_LOSS_LO_LO (t : Nat) : Fld := ⟨0x100032c + 0x4000 * t, 31, 0⟩
abbrev F.HUB_STEP_LO_STEP : Fld := ⟨0x900, 31, 0⟩
abbrev F.HUB_STEP_HI_STEP : Fld := ⟨0x904, 31, 0⟩
abbrev F.HUB_STEPSTAT_PHASE : Fld := ⟨0x908, 31, 30⟩
abbrev F.HUB_STEPSTAT_ITEM : Fld := ⟨0x908, 29, 29⟩
abbrev F.HUB_STEPSTAT_GBUF : Fld := ⟨0x908, 28, 28⟩
abbrev F.HUB_STEPSTAT_MB : Fld := ⟨0x908, 15, 0⟩
abbrev F.HUB_STEPEVT_WATCH : Fld := ⟨0x90c, 2, 2⟩
abbrev F.HUB_STEPEVT_JIT : Fld := ⟨0x90c, 1, 1⟩
abbrev F.HUB_STEPEVT_CUT : Fld := ⟨0x90c, 0, 0⟩
abbrev F.HUB_CNT_PHASE_COUNT : Fld := ⟨0x910, 31, 0⟩
abbrev F.HUB_CNT_BUBBLE_COUNT : Fld := ⟨0x914, 31, 0⟩
abbrev F.HUB_BUBBLETIME_LO_TIME : Fld := ⟨0x918, 31, 0⟩
abbrev F.HUB_BUBBLETIME_HI_TIME : Fld := ⟨0x91c, 15, 0⟩
abbrev F.HUB_BUBCAUSE_CAUSE : Fld := ⟨0x920, 3, 0⟩
abbrev F.HUB_CNT_SCALECUT_COUNT : Fld := ⟨0x924, 31, 0⟩
abbrev F.HUB_CNT_JIT_COUNT : Fld := ⟨0x928, 31, 0⟩
abbrev F.HUB_CNT_WATCH_COUNT : Fld := ⟨0x92c, 31, 0⟩
abbrev F.HUB_STASHOCC0_BYTES : Fld := ⟨0x934, 31, 0⟩
abbrev F.HUB_STASHOCC1_BYTES : Fld := ⟨0x938, 31, 0⟩
abbrev F.HUB_STASHPEAK_BYTES : Fld := ⟨0x93c, 31, 0⟩
abbrev F.UPD_STAT_STATE (n : Nat) : Fld := ⟨0x80000 + 0x400 * n, 31, 28⟩
abbrev F.UPD_STAT_PEND (n : Nat) : Fld := ⟨0x80000 + 0x400 * n, 27, 27⟩
abbrev F.UPD_STAT_CUR (n : Nat) : Fld := ⟨0x80000 + 0x400 * n, 26, 26⟩
abbrev F.UPD_STEP_LO_STEP (n : Nat) : Fld := ⟨0x80004 + 0x400 * n, 31, 0⟩
abbrev F.UPD_STEP_HI_STEP (n : Nat) : Fld := ⟨0x80008 + 0x400 * n, 31, 0⟩
abbrev F.UPD_COUNT_LO_C (n : Nat) : Fld := ⟨0x8000c + 0x400 * n, 31, 0⟩
abbrev F.UPD_COUNT_HI_C (n : Nat) : Fld := ⟨0x80010 + 0x400 * n, 31, 0⟩
abbrev F.UPD_GNORM_NORM (n : Nat) : Fld := ⟨0x80014 + 0x400 * n, 31, 0⟩
abbrev F.UPD_KAPPA_KAPPA (n : Nat) : Fld := ⟨0x80018 + 0x400 * n, 31, 0⟩
abbrev F.UPD_EVT_NONFIN (n : Nat) : Fld := ⟨0x8001c + 0x400 * n, 3, 3⟩
abbrev F.UPD_EVT_CLIP (n : Nat) : Fld := ⟨0x8001c + 0x400 * n, 2, 2⟩
abbrev F.UPD_EVT_SAT (n : Nat) : Fld := ⟨0x8001c + 0x400 * n, 1, 1⟩
abbrev F.UPD_EVT_VETO (n : Nat) : Fld := ⟨0x8001c + 0x400 * n, 0, 0⟩
abbrev F.UPD_VETOCAUSE_CAUSE (n : Nat) : Fld := ⟨0x80020 + 0x400 * n, 3, 0⟩
abbrev F.UPD_CNT_APPLIED_COUNT (n : Nat) : Fld := ⟨0x80024 + 0x400 * n, 31, 0⟩
abbrev F.UPD_CNT_VETO_COUNT (n : Nat) : Fld := ⟨0x80028 + 0x400 * n, 31, 0⟩
abbrev F.UPD_CNT_CLIP_COUNT (n : Nat) : Fld := ⟨0x8002c + 0x400 * n, 31, 0⟩
abbrev F.UPD_CNT_SAT_COUNT (n : Nat) : Fld := ⟨0x80030 + 0x400 * n, 31, 0⟩
abbrev F.UPD_CNT_TRUSTCLAMP_COUNT (n : Nat) : Fld := ⟨0x80034 + 0x400 * n, 31, 0⟩
abbrev F.UPD_RATIOMAX_RATIO (n : Nat) : Fld := ⟨0x80038 + 0x400 * n, 31, 0⟩
abbrev F.UPD_RATIOLAYER_LAYER (n : Nat) : Fld := ⟨0x8003c + 0x400 * n, 15, 0⟩
abbrev F.UPD_CNT_BUSY_LO_COUNT (n : Nat) : Fld := ⟨0x80040 + 0x400 * n, 31, 0⟩
abbrev F.UPD_CNT_BUSY_HI_COUNT (n : Nat) : Fld := ⟨0x80044 + 0x400 * n, 15, 0⟩
abbrev F.FRE_EVT_CRC : Fld := ⟨0x1200c, 4, 4⟩
abbrev F.FRE_EVT_LATE : Fld := ⟨0x1200c, 3, 3⟩
abbrev F.FRE_EVT_VREQ : Fld := ⟨0x1200c, 2, 2⟩
abbrev F.FRE_EVT_SAT : Fld := ⟨0x1200c, 1, 1⟩
abbrev F.FRE_EVT_SVF : Fld := ⟨0x1200c, 0, 0⟩
abbrev F.FRE_CNT_SEG_LO_COUNT : Fld := ⟨0x12010, 31, 0⟩
abbrev F.FRE_CNT_SEG_HI_COUNT : Fld := ⟨0x12014, 15, 0⟩
abbrev F.FRE_CNT_SVF_COUNT : Fld := ⟨0x12018, 31, 0⟩
abbrev F.FRE_CNT_SAT_COUNT : Fld := ⟨0x1201c, 31, 0⟩
abbrev F.FRE_CNT_SLOTWAIT_COUNT : Fld := ⟨0x12020, 31, 0⟩
abbrev F.FRE_CNT_CRC_COUNT : Fld := ⟨0x12024, 31, 0⟩
abbrev F.FRE_SLOTPEAK_PEAK : Fld := ⟨0x12028, 11, 0⟩
abbrev F.FRE_OUTSTEP_LO_STEP : Fld := ⟨0x12030, 31, 0⟩
abbrev F.FRE_OUTSTEP_HI_STEP : Fld := ⟨0x12034, 31, 0⟩
abbrev F.FRE_VETOSRC_DEV : Fld := ⟨0x12038, 15, 0⟩
abbrev F.FRE_VETOSHARD_SHARD : Fld := ⟨0x1203c, 31, 0⟩
abbrev F.FRE_CNT_COMMIT_COUNT : Fld := ⟨0x12040, 31, 0⟩
abbrev F.FRE_CNT_VETO_COUNT : Fld := ⟨0x12044, 31, 0⟩
abbrev F.FRE_CNT_LATE_COUNT : Fld := ⟨0x12048, 31, 0⟩
abbrev F.FRE_CNT_DUP_COUNT : Fld := ⟨0x1204c, 31, 0⟩
abbrev F.HUB_CHSTAT_STATE : Fld := ⟨0xa00, 31, 30⟩
abbrev F.HUB_CHSTAT_MISMATCH : Fld := ⟨0xa00, 29, 29⟩
abbrev F.HUB_CHSTAT_REASON : Fld := ⟨0xa00, 15, 0⟩
abbrev F.HUB_CHSECT_SECTION : Fld := ⟨0xa04, 15, 0⟩
abbrev F.HUB_CHENTRY_ENTRY : Fld := ⟨0xa08, 31, 0⟩
abbrev F.HUB_CHQTY_LO_QTY : Fld := ⟨0xa0c, 31, 0⟩
abbrev F.HUB_CHQTY_HI_QTY : Fld := ⟨0xa10, 31, 0⟩
abbrev F.HUB_CHLIM_LO_LIMIT : Fld := ⟨0xa14, 31, 0⟩
abbrev F.HUB_CHLIM_HI_LIMIT : Fld := ⟨0xa18, 31, 0⟩
abbrev F.HUB_CHID_LO_ID : Fld := ⟨0xa1c, 31, 0⟩
abbrev F.HUB_CHID_HI_ID : Fld := ⟨0xa20, 31, 0⟩
abbrev F.HUB_CNT_REFUSE_COUNT : Fld := ⟨0xa24, 31, 0⟩
abbrev F.HUB_CHMISDEV_DEV : Fld := ⟨0xa28, 15, 0⟩
abbrev F.HUB_QFWD_OUT : Fld := ⟨0xa30, 31, 16⟩
abbrev F.HUB_QFWD_IN : Fld := ⟨0xa30, 15, 0⟩
abbrev F.HUB_QBWD_OUT : Fld := ⟨0xa34, 31, 16⟩
abbrev F.HUB_QBWD_IN : Fld := ⟨0xa34, 15, 0⟩
abbrev F.HUB_CREDIT_FWD : Fld := ⟨0xa38, 31, 16⟩
abbrev F.HUB_CREDIT_BWD : Fld := ⟨0xa38, 15, 0⟩
abbrev F.HUB_CNT_CREDITWAIT_COUNT : Fld := ⟨0xa3c, 31, 0⟩
abbrev F.HUB_CREDITTIME_LO_TIME : Fld := ⟨0xa40, 31, 0⟩
abbrev F.HUB_CREDITTIME_HI_TIME : Fld := ⟨0xa44, 15, 0⟩
abbrev F.HUB_FTIME_TIME : Fld := ⟨0xa48, 31, 0⟩
abbrev F.HUB_BTIME_TIME : Fld := ⟨0xa4c, 31, 0⟩
abbrev F.FAB_DEVNUM_VALID : Fld := ⟨0x18000, 31, 31⟩
abbrev F.FAB_DEVNUM_GROUP : Fld := ⟨0x18000, 15, 8⟩
abbrev F.FAB_DEVNUM_MEMBER : Fld := ⟨0x18000, 7, 0⟩
abbrev F.FAB_EPOCH_EPOCH : Fld := ⟨0x1800c, 31, 0⟩
abbrev F.FAB_ROOT_LO_SERIAL : Fld := ⟨0x18010, 31, 0⟩
abbrev F.FAB_ROOT_HI_SERIAL : Fld := ⟨0x18014, 31, 0⟩
abbrev F.FAB_DNUMTAB_OFFSET : Fld := ⟨0x1801c, 31, 0⟩
abbrev F.FAB_DNUMCNT_COUNT : Fld := ⟨0x18020, 16, 0⟩
abbrev F.FAB_EVT_PCRC : Fld := ⟨0x1802c, 6, 6⟩
abbrev F.FAB_EVT_DREFUSE : Fld := ⟨0x1802c, 5, 5⟩
abbrev F.FAB_EVT_UNREACH : Fld := ⟨0x1802c, 4, 4⟩
abbrev F.FAB_EVT_GAP : Fld := ⟨0x1802c, 3, 3⟩
abbrev F.FAB_EVT_HOPS : Fld := ⟨0x1802c, 2, 2⟩
abbrev F.FAB_EVT_TABLE : Fld := ⟨0x1802c, 1, 1⟩
abbrev F.FAB_EVT_DISC : Fld := ⟨0x1802c, 0, 0⟩
abbrev F.FAB_CNT_HOPDROP_COUNT : Fld := ⟨0x18030, 31, 0⟩
abbrev F.FAB_CNT_DUP_COUNT : Fld := ⟨0x18034, 31, 0⟩
abbrev F.FAB_CNT_REORDER_COUNT : Fld := ⟨0x18038, 31, 0⟩
abbrev F.FAB_CNT_TABLE_COUNT : Fld := ⟨0x1803c, 31, 0⟩
abbrev F.FAB_CNT_PCRC_COUNT : Fld := ⟨0x18040, 31, 0⟩
abbrev F.FAB_PCTRL_ENABLE (p : Nat) : Fld := ⟨0x19000 + 0x80 * p, 0, 0⟩
abbrev F.FAB_PSTAT_STATE (p : Nat) : Fld := ⟨0x19004 + 0x80 * p, 31, 28⟩
abbrev F.FAB_PSTAT_LANES (p : Nat) : Fld := ⟨0x19004 + 0x80 * p, 27, 24⟩
abbrev F.FAB_PSTAT_REV (p : Nat) : Fld := ⟨0x19004 + 0x80 * p, 23, 23⟩
abbrev F.FAB_PSTAT_POLINV (p : Nat) : Fld := ⟨0x19004 + 0x80 * p, 22, 19⟩
abbrev F.FAB_PSTAT_NBRV (p : Nat) : Fld := ⟨0x19004 + 0x80 * p, 18, 18⟩
abbrev F.FAB_PNBR_LO_SERIAL (p : Nat) : Fld := ⟨0x19008 + 0x80 * p, 31, 0⟩
abbrev F.FAB_PNBR_HI_SERIAL (p : Nat) : Fld := ⟨0x1900c + 0x80 * p, 31, 0⟩
abbrev F.FAB_PNBRDEV_PORT (p : Nat) : Fld := ⟨0x19010 + 0x80 * p, 20, 16⟩
abbrev F.FAB_PEVT_MAP (p : Nat) : Fld := ⟨0x19014 + 0x80 * p, 4, 4⟩
abbrev F.FAB_PEVT_RETRYLIM (p : Nat) : Fld := ⟨0x19014 + 0x80 * p, 3, 3⟩
abbrev F.FAB_PEVT_DOWN (p : Nat) : Fld := ⟨0x19014 + 0x80 * p, 2, 2⟩
abbrev F.FAB_PEVT_UP (p : Nat) : Fld := ⟨0x19014 + 0x80 * p, 1, 1⟩
abbrev F.FAB_PEVT_LANELOSS (p : Nat) : Fld := ⟨0x19014 + 0x80 * p, 0, 0⟩
abbrev F.FAB_PCNT_RETRY_COUNT (p : Nat) : Fld := ⟨0x19018 + 0x80 * p, 31, 0⟩
abbrev F.FAB_PCNT_CRC_COUNT (p : Nat) : Fld := ⟨0x1901c + 0x80 * p, 31, 0⟩
abbrev F.FAB_PCNT_LANELOSS_COUNT (p : Nat) : Fld := ⟨0x19020 + 0x80 * p, 31, 0⟩
abbrev F.FAB_PCNT_DOWN_COUNT (p : Nat) : Fld := ⟨0x19024 + 0x80 * p, 31, 0⟩
abbrev F.FAB_PCNT_FECUNC_COUNT (p : Nat) : Fld := ⟨0x19028 + 0x80 * p, 31, 0⟩
abbrev F.FAB_PCNT_TX_LO_COUNT (p : Nat) : Fld := ⟨0x1902c + 0x80 * p, 31, 0⟩
abbrev F.FAB_PCNT_TX_HI_COUNT (p : Nat) : Fld := ⟨0x19030 + 0x80 * p, 15, 0⟩
abbrev F.FAB_PCNT_RX_LO_COUNT (p : Nat) : Fld := ⟨0x19034 + 0x80 * p, 31, 0⟩
abbrev F.FAB_PCNT_RX_HI_COUNT (p : Nat) : Fld := ⟨0x19038 + 0x80 * p, 15, 0⟩
abbrev F.FAB_PRTT_RTT (p : Nat) : Fld := ⟨0x1903c + 0x80 * p, 15, 0⟩
abbrev F.HAL_CTRL_EN (h : Nat) : Fld := ⟨0x20000 + 0x100 * h, 0, 0⟩
abbrev F.HAL_SIZE_LOG2 (h : Nat) : Fld := ⟨0x20004 + 0x100 * h, 4, 0⟩
abbrev F.HAL_SQBASE_LO_ADDR (h : Nat) : Fld := ⟨0x20008 + 0x100 * h, 31, 0⟩
abbrev F.HAL_SQBASE_HI_ADDR (h : Nat) : Fld := ⟨0x2000c + 0x100 * h, 31, 0⟩
abbrev F.HAL_CQBASE_LO_ADDR (h : Nat) : Fld := ⟨0x20010 + 0x100 * h, 31, 0⟩
abbrev F.HAL_CQBASE_HI_ADDR (h : Nat) : Fld := ⟨0x20014 + 0x100 * h, 31, 0⟩
abbrev F.HAL_SQPROD_COUNT (h : Nat) : Fld := ⟨0x20018 + 0x100 * h, 31, 0⟩
abbrev F.HAL_SQCONS_COUNT (h : Nat) : Fld := ⟨0x2001c + 0x100 * h, 31, 0⟩
abbrev F.HAL_CQTAIL_COUNT (h : Nat) : Fld := ⟨0x20020 + 0x100 * h, 31, 0⟩
abbrev F.HAL_CQHEAD_COUNT (h : Nat) : Fld := ⟨0x20024 + 0x100 * h, 31, 0⟩
abbrev F.HAL_IRQ_ARM (h : Nat) : Fld := ⟨0x20028 + 0x100 * h, 31, 31⟩
abbrev F.HAL_IRQ_VEC (h : Nat) : Fld := ⟨0x20028 + 0x100 * h, 21, 16⟩
abbrev F.HAL_IRQ_THRESH (h : Nat) : Fld := ⟨0x20028 + 0x100 * h, 15, 8⟩
abbrev F.HAL_IRQ_TIME (h : Nat) : Fld := ⟨0x20028 + 0x100 * h, 7, 0⟩
abbrev F.HAL_STAT_STOPPING (h : Nat) : Fld := ⟨0x2002c + 0x100 * h, 4, 4⟩
abbrev F.HAL_STAT_LINKHOLD (h : Nat) : Fld := ⟨0x2002c + 0x100 * h, 3, 3⟩
abbrev F.HAL_STAT_CQFULL (h : Nat) : Fld := ⟨0x2002c + 0x100 * h, 2, 2⟩
abbrev F.HAL_STAT_FENCE (h : Nat) : Fld := ⟨0x2002c + 0x100 * h, 1, 1⟩
abbrev F.HAL_STAT_BUSY (h : Nat) : Fld := ⟨0x2002c + 0x100 * h, 0, 0⟩
abbrev F.HAL_EVT_HOSTFAULT (h : Nat) : Fld := ⟨0x20030 + 0x100 * h, 2, 2⟩
abbrev F.HAL_EVT_ACCMIS (h : Nat) : Fld := ⟨0x20030 + 0x100 * h, 1, 1⟩
abbrev F.HAL_EVT_DBERR (h : Nat) : Fld := ⟨0x20030 + 0x100 * h, 0, 0⟩
abbrev F.HAL_FDBASE_LO_ADDR (h : Nat) : Fld := ⟨0x22000 + 0x40 * h, 31, 0⟩
abbrev F.HAL_FDBASE_HI_ADDR (h : Nat) : Fld := ⟨0x22004 + 0x40 * h, 31, 0⟩
abbrev F.HAL_FDSIZE_LOG2 (h : Nat) : Fld := ⟨0x22008 + 0x40 * h, 4, 0⟩
abbrev F.HAL_FDPROD_COUNT (h : Nat) : Fld := ⟨0x2200c + 0x40 * h, 31, 0⟩
abbrev F.HAL_FDCONS_COUNT (h : Nat) : Fld := ⟨0x22010 + 0x40 * h, 31, 0⟩
abbrev F.HAL_FDEVT_DBERR (h : Nat) : Fld := ⟨0x22014 + 0x40 * h, 2, 2⟩
abbrev F.HAL_FDEVT_SEQERR (h : Nat) : Fld := ⟨0x22014 + 0x40 * h, 1, 1⟩
abbrev F.HAL_FDEVT_LENERR (h : Nat) : Fld := ⟨0x22014 + 0x40 * h, 0, 0⟩
abbrev F.HAL_FDREL_COUNT (h : Nat) : Fld := ⟨0x22018 + 0x40 * h, 31, 0⟩
abbrev F.HAL_CKBASE_LO_ADDR : Fld := ⟨0x23000, 31, 0⟩
abbrev F.HAL_CKBASE_HI_ADDR : Fld := ⟨0x23004, 31, 0⟩
abbrev F.HAL_CKSIZE_LOG2 : Fld := ⟨0x23008, 4, 0⟩
abbrev F.HAL_CKCONS_COUNT : Fld := ⟨0x2300c, 31, 0⟩
abbrev F.HAL_CKSTAT_HOLD : Fld := ⟨0x23010, 29, 29⟩
abbrev F.HAL_CKSTEP_LO_STEP : Fld := ⟨0x23014, 31, 0⟩
abbrev F.HAL_CKSTEP_HI_STEP : Fld := ⟨0x23018, 31, 0⟩
abbrev F.HAL_WIN_LO_BASE : Fld := ⟨0x23100, 31, 0⟩
abbrev F.HAL_WIN_HI_BASE : Fld := ⟨0x23104, 31, 0⟩
abbrev F.HAL_EVTVEC_VEC : Fld := ⟨0x23108, 5, 0⟩
abbrev F.HAL_GEVT_LINKDOWN : Fld := ⟨0x2310c, 1, 1⟩
abbrev F.HAL_GEVT_WINRANGE : Fld := ⟨0x2310c, 0, 0⟩
abbrev F.CTX_STAT_STATE (c : Nat) : Fld := ⟨0x24000 + 0x40 * c, 31, 28⟩
abbrev F.CTX_CNT_CMD_COUNT (c : Nat) : Fld := ⟨0x24004 + 0x40 * c, 31, 0⟩
abbrev F.CTX_CNT_ERR_COUNT (c : Nat) : Fld := ⟨0x24008 + 0x40 * c, 31, 0⟩
abbrev F.CTX_LASTERR_STATUS (c : Nat) : Fld := ⟨0x2400c + 0x40 * c, 15, 0⟩
abbrev F.CTX_LASTACC_LO_ACC (c : Nat) : Fld := ⟨0x24010 + 0x40 * c, 31, 0⟩
abbrev F.CTX_LASTACC_HI_ACC (c : Nat) : Fld := ⟨0x24014 + 0x40 * c, 31, 0⟩
abbrev F.GOV_CTRL_MODE : Fld := ⟨0x10000, 1, 0⟩
abbrev F.GOV_SET_WATTS : Fld := ⟨0x10004, 10, 0⟩
abbrev F.GOV_STAT_LIMIT : Fld := ⟨0x10008, 31, 28⟩
abbrev F.GOV_STAT_GATE : Fld := ⟨0x10008, 27, 27⟩
abbrev F.GOV_STAT_THROT : Fld := ⟨0x10008, 26, 26⟩
abbrev F.GOV_STAT_TRIP : Fld := ⟨0x10008, 25, 25⟩
abbrev F.GOV_STAT_VHIGH : Fld := ⟨0x10008, 24, 24⟩
abbrev F.GOV_STAT_VLOW : Fld := ⟨0x10008, 23, 23⟩
abbrev F.GOV_STAT_VCORE : Fld := ⟨0x10008, 9, 0⟩
abbrev F.GOV_BEAT_RATE : Fld := ⟨0x1000c, 15, 0⟩
abbrev F.GOV_PWR1_PWR : Fld := ⟨0x10010, 15, 0⟩
abbrev F.GOV_PWR100_PWR : Fld := ⟨0x10014, 15, 0⟩
abbrev F.GOV_CEIL_WATTS : Fld := ⟨0x10018, 10, 0⟩
abbrev F.GOV_VIN_IIN : Fld := ⟨0x1001c, 31, 16⟩
abbrev F.GOV_VIN_VIN : Fld := ⟨0x1001c, 15, 0⟩
abbrev F.GOV_TCOOL_TOUT : Fld := ⟨0x10020, 31, 16⟩
abbrev F.GOV_TCOOL_TIN : Fld := ⟨0x10020, 15, 0⟩
abbrev F.GOV_FLOW_FLOW : Fld := ⟨0x10024, 15, 0⟩
abbrev F.GOV_TJ_CHAN : Fld := ⟨0x10028, 21, 16⟩
abbrev F.GOV_TJ_TJMAX : Fld := ⟨0x10028, 15, 0⟩
abbrev F.GOV_PHASE_LOST : Fld := ⟨0x1002c, 15, 0⟩
abbrev F.GOV_EVT_SETCLAMP : Fld := ⟨0x10030, 9, 9⟩
abbrev F.GOV_EVT_STUD : Fld := ⟨0x10030, 8, 8⟩
abbrev F.GOV_EVT_OVIN : Fld := ⟨0x10030, 7, 7⟩
abbrev F.GOV_EVT_UVIN : Fld := ⟨0x10030, 6, 6⟩
abbrev F.GOV_EVT_SENSOR : Fld := ⟨0x10030, 5, 5⟩
abbrev F.GOV_EVT_FLOWLOW : Fld := ⟨0x10030, 4, 4⟩
abbrev F.GOV_EVT_PHASE : Fld := ⟨0x10030, 3, 3⟩
abbrev F.GOV_EVT_SHORT : Fld := ⟨0x10030, 2, 2⟩
abbrev F.GOV_EVT_TRIP : Fld := ⟨0x10030, 1, 1⟩
abbrev F.GOV_EVT_THROT : Fld := ⟨0x10030, 0, 0⟩
abbrev F.GOV_CNT_THROTTIME_TIME : Fld := ⟨0x10034, 31, 0⟩
abbrev F.GOV_CNT_GATE_COUNT : Fld := ⟨0x10038, 31, 0⟩
abbrev F.GOV_CNT_PHASE_COUNT : Fld := ⟨0x1003c, 31, 0⟩
abbrev F.GOV_STEPPER_TIME : Fld := ⟨0x10040, 31, 0⟩
abbrev F.GOV_CNT_BANDOUT_COUNT : Fld := ⟨0x10044, 31, 0⟩
abbrev F.SNC_CTRL_UQ : Fld := ⟨0x11000, 2, 2⟩
abbrev F.SNC_EVT_UDROP : Fld := ⟨0x11008, 5, 5⟩
abbrev F.SNC_EVT_PATH : Fld := ⟨0x11008, 4, 4⟩
abbrev F.SNC_EVT_THR : Fld := ⟨0x11008, 3, 3⟩
abbrev F.SNC_EVT_QDROP : Fld := ⟨0x11008, 2, 2⟩
abbrev F.SNC_EVT_TBLERR : Fld := ⟨0x11008, 1, 1⟩
abbrev F.SNC_EVT_SWAP : Fld := ⟨0x11008, 0, 0⟩
abbrev F.SNC_TDAC_TOL : Fld := ⟨0x11010, 23, 16⟩
abbrev F.SNC_TDAC_CODE : Fld := ⟨0x11010, 9, 0⟩
abbrev F.SNC_OFS_OFS : Fld := ⟨0x11018, 15, 0⟩
abbrev F.SNC_QACC_LO_ACC : Fld := ⟨0x11024, 31, 0⟩
abbrev F.SNC_QACC_HI_ACC : Fld := ⟨0x11028, 31, 0⟩
abbrev F.SNC_QTIME_TIME : Fld := ⟨0x1102c, 31, 0⟩
abbrev F.SNC_CNT_CONV_LO_COUNT : Fld := ⟨0x11030, 31, 0⟩
abbrev F.SNC_CNT_CONV_HI_COUNT : Fld := ⟨0x11034, 15, 0⟩
abbrev F.SNC_CNT_QDROP_COUNT : Fld := ⟨0x11038, 31, 0⟩
abbrev F.SNC_CNT_URG_COUNT : Fld := ⟨0x1103c, 31, 0⟩
abbrev F.SNC_CNT_UWAIT_COUNT : Fld := ⟨0x11040, 31, 0⟩
abbrev F.SNC_CNT_START_COUNT : Fld := ⟨0x11044, 31, 0⟩
abbrev F.SNC_CNT_THR_COUNT : Fld := ⟨0x11048, 31, 0⟩
abbrev F.SNC_CNT_PATH_COUNT : Fld := ⟨0x1104c, 31, 0⟩
abbrev F.SNC_VAL_VALID (i : Nat) : Fld := ⟨0x11100 + 0x4 * i, 31, 31⟩
abbrev F.SNC_VAL_VALUE (i : Nat) : Fld := ⟨0x11100 + 0x4 * i, 15, 0⟩
abbrev F.ARR_CALSTAT_STATE (t a : Nat) : Fld := ⟨0x10020d0 + 0x4000 * t + 0x400 * a, 31, 28⟩
abbrev F.ARR_CALSTAT_CAUSE (t a : Nat) : Fld := ⟨0x10020d0 + 0x4000 * t + 0x400 * a, 27, 24⟩
abbrev F.ARR_CALSTAT_FCOL (t a : Nat) : Fld := ⟨0x10020d0 + 0x4000 * t + 0x400 * a, 9, 0⟩
abbrev F.ARR_QCALI_QCAL (t a : Nat) : Fld := ⟨0x10020d4 + 0x4000 * t + 0x400 * a, 19, 0⟩
abbrev F.ARR_CALLIM_DGAIN (t a : Nat) : Fld := ⟨0x10020d8 + 0x4000 * t + 0x400 * a, 15, 8⟩
abbrev F.ARR_CALLIM_DOFS (t a : Nat) : Fld := ⟨0x10020d8 + 0x4000 * t + 0x400 * a, 7, 0⟩
abbrev F.ARR_CALEVT_FAIL (t a : Nat) : Fld := ⟨0x10020dc + 0x4000 * t + 0x400 * a, 1, 1⟩
abbrev F.ARR_CALEVT_DONE (t a : Nat) : Fld := ⟨0x10020dc + 0x4000 * t + 0x400 * a, 0, 0⟩
abbrev F.ARR_CNT_CAL_COUNT (t a : Nat) : Fld := ⟨0x10020e0 + 0x4000 * t + 0x400 * a, 31, 0⟩
abbrev F.ARR_CNT_CALFAIL_COUNT (t a : Nat) : Fld := ⟨0x10020e4 + 0x4000 * t + 0x400 * a, 31, 0⟩
abbrev F.ARR_TRIMSEL_SET (t a : Nat) : Fld := ⟨0x10020e8 + 0x4000 * t + 0x400 * a, 31, 31⟩
abbrev F.ARR_TRIMSEL_COL (t a : Nat) : Fld := ⟨0x10020e8 + 0x4000 * t + 0x400 * a, 9, 0⟩
abbrev F.TIL_CHKCTRL_DPA (t : Nat) : Fld := ⟨0x1000400 + 0x4000 * t, 1, 1⟩
abbrev F.TIL_CHKCTRL_OPE (t : Nat) : Fld := ⟨0x1000400 + 0x4000 * t, 0, 0⟩
abbrev F.TIL_CHKEVT_PERSIST (t : Nat) : Fld := ⟨0x1000404 + 0x4000 * t, 1, 1⟩
abbrev F.TIL_CHKEVT_TRANS (t : Nat) : Fld := ⟨0x1000404 + 0x4000 * t, 0, 0⟩
abbrev F.TIL_CNT_CHKFAIL_COUNT (t : Nat) : Fld := ⟨0x1000408 + 0x4000 * t, 31, 0⟩
abbrev F.TIL_CNT_CHKHARD_COUNT (t : Nat) : Fld := ⟨0x100040c + 0x4000 * t, 31, 0⟩
abbrev F.TIL_CNT_REDMIS_COUNT (t : Nat) : Fld := ⟨0x1000410 + 0x4000 * t, 31, 0⟩
abbrev F.TIL_REDSTAT_ON (t : Nat) : Fld := ⟨0x1000414 + 0x4000 * t, 31, 31⟩
abbrev F.TIL_REDSTAT_LEFT (t : Nat) : Fld := ⟨0x1000414 + 0x4000 * t, 15, 0⟩
abbrev F.TIL_TESTSTAT_STATE (t : Nat) : Fld := ⟨0x1000418 + 0x4000 * t, 31, 28⟩
abbrev F.TIL_TESTSTAT_KIND (t : Nat) : Fld := ⟨0x1000418 + 0x4000 * t, 27, 24⟩
abbrev F.TIL_TESTSTAT_MODE (t : Nat) : Fld := ⟨0x1000418 + 0x4000 * t, 23, 20⟩
abbrev F.TIL_TESTSTAT_VERDICT (t : Nat) : Fld := ⟨0x1000418 + 0x4000 * t, 19, 16⟩
abbrev F.TIL_CALPT_TEMP (t : Nat) : Fld := ⟨0x100041c + 0x4000 * t, 15, 0⟩
abbrev F.TIL_CNT_TEST_COUNT (t : Nat) : Fld := ⟨0x1000420 + 0x4000 * t, 31, 0⟩
abbrev F.TIL_CNT_TESTDROP_COUNT (t : Nat) : Fld := ⟨0x1000424 + 0x4000 * t, 31, 0⟩
abbrev F.INJ_CTRL_ARM : Fld := ⟨0x14000, 31, 31⟩
abbrev F.INJ_CTRL_MODE : Fld := ⟨0x14000, 30, 30⟩
abbrev F.INJ_CTRL_COUNT : Fld := ⟨0x14000, 23, 16⟩
abbrev F.INJ_CTRL_POINT : Fld := ⟨0x14000, 7, 0⟩
abbrev F.INJ_TARGET_COL : Fld := ⟨0x14004, 31, 22⟩
abbrev F.INJ_TARGET_SUB : Fld := ⟨0x14004, 21, 19⟩
abbrev F.INJ_TARGET_UNIT : Fld := ⟨0x14004, 18, 10⟩
abbrev F.INJ_STAT_FIRED : Fld := ⟨0x14008, 31, 31⟩
abbrev F.INJ_STAT_LOCKED : Fld := ⟨0x14008, 30, 30⟩
abbrev F.INJ_STAT_REFUSED : Fld := ⟨0x14008, 29, 29⟩
abbrev F.INJ_STAT_POINT : Fld := ⟨0x14008, 7, 0⟩
abbrev F.INJ_ACC_LO_ACC : Fld := ⟨0x1400c, 31, 0⟩
abbrev F.INJ_ACC_HI_ACC : Fld := ⟨0x14010, 31, 0⟩
abbrev F.INJ_CNT_COUNT : Fld := ⟨0x14014, 31, 0⟩
abbrev F.RST_STAT_STATE : Fld := ⟨0x13004, 31, 28⟩
abbrev F.RST_STAT_SUSPECT : Fld := ⟨0x13004, 15, 0⟩
abbrev F.RST_FLTCLS_CLASS : Fld := ⟨0x13008, 31, 24⟩
abbrev F.RST_FLTCLS_UKIND : Fld := ⟨0x13008, 23, 20⟩
abbrev F.RST_FLTCLS_UNIT : Fld := ⟨0x13008, 11, 0⟩
abbrev F.RST_FLTACC_LO_ACC : Fld := ⟨0x1300c, 31, 0⟩
abbrev F.RST_FLTACC_HI_ACC : Fld := ⟨0x13010, 31, 0⟩
abbrev F.RST_FLTSTEP_LO_STEP : Fld := ⟨0x13014, 31, 0⟩
abbrev F.RST_FLTSTEP_HI_STEP : Fld := ⟨0x13018, 31, 0⟩
abbrev F.RST_RBSTEP_LO_STEP : Fld := ⟨0x1301c, 31, 0⟩
abbrev F.RST_RBSTEP_HI_STEP : Fld := ⟨0x13020, 31, 0⟩
abbrev F.RST_EVT_MEMUE : Fld := ⟨0x13024, 6, 6⟩
abbrev F.RST_EVT_HALT : Fld := ⟨0x13024, 5, 5⟩
abbrev F.RST_EVT_CONFLICT : Fld := ⟨0x13024, 4, 4⟩
abbrev F.RST_EVT_ROLLBACK : Fld := ⟨0x13024, 3, 3⟩
abbrev F.RST_EVT_HANG : Fld := ⟨0x13024, 2, 2⟩
abbrev F.RST_EVT_PRST : Fld := ⟨0x13024, 1, 1⟩
abbrev F.RST_EVT_CRST : Fld := ⟨0x13024, 0, 0⟩
abbrev F.RST_CNT_CRST_COUNT : Fld := ⟨0x1302c, 31, 0⟩
abbrev F.RST_CNT_PRST_COUNT : Fld := ⟨0x13030, 31, 0⟩
abbrev F.RST_CNT_ROLLBACK_COUNT : Fld := ⟨0x13034, 31, 0⟩
abbrev F.RST_CNT_HANG_COUNT : Fld := ⟨0x13038, 31, 0⟩
abbrev F.RST_CNT_REPLAY_COUNT : Fld := ⟨0x1303c, 31, 0⟩
abbrev F.RST_CNT_TERM_COUNT : Fld := ⟨0x13040, 31, 0⟩
abbrev F.RST_CNT_MEMCE_COUNT : Fld := ⟨0x13044, 31, 0⟩
abbrev F.RST_CNT_MEMUE_COUNT : Fld := ⟨0x13048, 31, 0⟩
abbrev F.RST_CNT_STEWARD_COUNT : Fld := ⟨0x1304c, 31, 0⟩
abbrev F.RST_CNT_CONFLICT_COUNT : Fld := ⟨0x13050, 31, 0⟩
abbrev F.RST_CNT_ARRFAIL_COUNT : Fld := ⟨0x13054, 31, 0⟩
abbrev F.RST_DUMPBASE_LO_ADDR : Fld := ⟨0x13060, 31, 0⟩
abbrev F.RST_DUMPBASE_HI_ADDR : Fld := ⟨0x13064, 31, 0⟩
abbrev F.RST_DUMPSIZE_SIZE : Fld := ⟨0x13068, 15, 0⟩
abbrev F.RST_DUMPSTAT_STATE : Fld := ⟨0x1306c, 31, 28⟩
abbrev F.RST_DUMPSTAT_FROZEN : Fld := ⟨0x1306c, 27, 27⟩
abbrev F.RST_DUMPSTAT_TRUNC : Fld := ⟨0x1306c, 26, 26⟩
abbrev F.RST_DUMPSTAT_UNREACH : Fld := ⟨0x1306c, 15, 0⟩
abbrev F.RST_DUMPLEN_BYTES : Fld := ⟨0x13070, 31, 0⟩
abbrev F.RST_CNT_DUMP_COUNT : Fld := ⟨0x13074, 31, 0⟩
abbrev F.CNT_CTRL_UNITMASK (t : Nat) : Fld := ⟨0x1001400 + 0x4000 * t, 31, 16⟩
abbrev F.CNT_FILT_LAYER (t : Nat) : Fld := ⟨0x1001404 + 0x4000 * t, 15, 0⟩
abbrev F.CNT_STAT_CUR (t : Nat) : Fld := ⟨0x1001408 + 0x4000 * t, 31, 31⟩
abbrev F.CNT_STAT_AOWN (t : Nat) : Fld := ⟨0x1001408 + 0x4000 * t, 30, 30⟩
abbrev F.CNT_STAT_BOWN (t : Nat) : Fld := ⟨0x1001408 + 0x4000 * t, 29, 29⟩
abbrev F.CNT_STAT_ARUN (t : Nat) : Fld := ⟨0x1001408 + 0x4000 * t, 28, 28⟩
abbrev F.CNT_STAT_BRUN (t : Nat) : Fld := ⟨0x1001408 + 0x4000 * t, 27, 27⟩
abbrev F.CNT_AOWN_LO_ACC (t : Nat) : Fld := ⟨0x1001410 + 0x4000 * t, 31, 0⟩
abbrev F.CNT_AOWN_HI_ACC (t : Nat) : Fld := ⟨0x1001414 + 0x4000 * t, 31, 0⟩
abbrev F.CNT_BOWN_LO_ACC (t : Nat) : Fld := ⟨0x1001418 + 0x4000 * t, 31, 0⟩
abbrev F.CNT_BOWN_HI_ACC (t : Nat) : Fld := ⟨0x100141c + 0x4000 * t, 31, 0⟩
abbrev F.CNT_RDSEL_CUR (t : Nat) : Fld := ⟨0x1001420 + 0x4000 * t, 5, 5⟩
abbrev F.CNT_RDSEL_PAGE (t : Nat) : Fld := ⟨0x1001420 + 0x4000 * t, 4, 4⟩
abbrev F.CNT_RDSEL_INDEX (t : Nat) : Fld := ⟨0x1001420 + 0x4000 * t, 3, 0⟩
abbrev F.CNT_SWAPS_COUNT (t : Nat) : Fld := ⟨0x1001434 + 0x4000 * t, 31, 0⟩
abbrev F.CNT_DISPLACED_COUNT (t : Nat) : Fld := ⟨0x1001438 + 0x4000 * t, 31, 0⟩
abbrev F.CNT_SEL_EVENT (t i : Nat) : Fld := ⟨0x1001440 + 0x4000 * t + 0x4 * i, 7, 0⟩
abbrev F.FOL_CTRL_EN : Fld := ⟨0x1c000, 31, 31⟩
abbrev F.FOL_CTRL_DEST : Fld := ⟨0x1c000, 30, 29⟩
abbrev F.FOL_CTRL_WRAP : Fld := ⟨0x1c000, 28, 28⟩
abbrev F.FOL_CTRL_STACK : Fld := ⟨0x1c000, 27, 24⟩
abbrev F.FOL_TYPES_STEWARD : Fld := ⟨0x1c004, 2, 2⟩
abbrev F.FOL_TYPES_COUNTERS : Fld := ⟨0x1c004, 1, 1⟩
abbrev F.FOL_TYPES_COMMAND : Fld := ⟨0x1c004, 0, 0⟩
abbrev F.FOL_BASE_LO_ADDR : Fld := ⟨0x1c008, 31, 0⟩
abbrev F.FOL_BASE_HI_ADDR : Fld := ⟨0x1c00c, 31, 0⟩
abbrev F.FOL_SIZE_LOG2 : Fld := ⟨0x1c010, 5, 0⟩
abbrev F.FOL_PROD_LO_BYTES : Fld := ⟨0x1c014, 31, 0⟩
abbrev F.FOL_PROD_HI_BYTES : Fld := ⟨0x1c018, 31, 0⟩
abbrev F.FOL_CONS_LO_BYTES : Fld := ⟨0x1c01c, 31, 0⟩
abbrev F.FOL_CONS_HI_BYTES : Fld := ⟨0x1c020, 31, 0⟩
abbrev F.FOL_RDEV_DEV : Fld := ⟨0x1c024, 15, 0⟩
abbrev F.FOL_STAT_STOPPED : Fld := ⟨0x1c028, 31, 31⟩
abbrev F.FOL_CNT_DROP_COUNT : Fld := ⟨0x1c030, 31, 0⟩
abbrev F.FOL_CNT_REC_COUNT : Fld := ⟨0x1c034, 31, 0⟩
abbrev F.FOL_CNT_WRAP_COUNT : Fld := ⟨0x1c038, 31, 0⟩
abbrev F.FOL_TOCC_BYTES (t : Nat) : Fld := ⟨0x1d000 + 0x10 * t, 14, 0⟩
abbrev F.FOL_TSEQ_SEQ (t : Nat) : Fld := ⟨0x1d004 + 0x10 * t, 15, 0⟩
abbrev F.FOL_TDROP_COUNT (t : Nat) : Fld := ⟨0x1d008 + 0x10 * t, 31, 0⟩
abbrev F.SEC_BOOT_STATE : Fld := ⟨0x40000, 31, 28⟩
abbrev F.SEC_BOOT_SLOT : Fld := ⟨0x40000, 27, 27⟩
abbrev F.SEC_KEYS_KEYSET : Fld := ⟨0x4000c, 9, 8⟩
abbrev F.SEC_KEYS_REVOKED : Fld := ⟨0x4000c, 7, 4⟩
abbrev F.SEC_KEYS_PRESENT : Fld := ⟨0x4000c, 3, 0⟩
abbrev F.SEC_CTRL_RKEY : Fld := ⟨0x40010, 5, 4⟩
abbrev F.SEC_UPDSRC_LO_ADDR : Fld := ⟨0x40014, 31, 0⟩
abbrev F.SEC_UPDSRC_HI_ADDR : Fld := ⟨0x40018, 31, 0⟩
abbrev F.SEC_UPDLEN_BYTES : Fld := ⟨0x4001c, 31, 0⟩
abbrev F.SEC_EVT_REVOKED : Fld := ⟨0x40024, 3, 3⟩
abbrev F.SEC_EVT_SVN : Fld := ⟨0x40024, 2, 2⟩
abbrev F.SEC_EVT_UPDFAIL : Fld := ⟨0x40024, 1, 1⟩
abbrev F.SEC_EVT_UPDDONE : Fld := ⟨0x40024, 0, 0⟩
abbrev F.SEC_RWOFS_OFS : Fld := ⟨0x40028, 31, 0⟩
abbrev F.LDG_STAT_STATE : Fld := ⟨0x15000, 31, 28⟩
abbrev F.LDG_STAT_REGION : Fld := ⟨0x15000, 27, 27⟩
abbrev F.LDG_STAT_FILL : Fld := ⟨0x15000, 23, 16⟩
abbrev F.LDG_EPOCH_EPOCH : Fld := ⟨0x15004, 31, 0⟩
abbrev F.LDG_ACC_LO_ACC : Fld := ⟨0x15014, 31, 0⟩
abbrev F.LDG_ACC_HI_ACC : Fld := ⟨0x15018, 31, 0⟩
abbrev F.LDG_LIVE_COUNT : Fld := ⟨0x1501c, 31, 0⟩
abbrev F.LDG_CNT_APPEND_COUNT : Fld := ⟨0x15020, 31, 0⟩
abbrev F.LDG_CNT_COMPACT_COUNT : Fld := ⟨0x15024, 31, 0⟩
abbrev F.LDG_CNT_TORN_COUNT : Fld := ⟨0x15028, 31, 0⟩
abbrev F.LDG_CNT_BADREC_COUNT : Fld := ⟨0x1502c, 31, 0⟩
abbrev F.LDG_EVT_BUSY : Fld := ⟨0x15030, 2, 2⟩
abbrev F.LDG_EVT_FAIL : Fld := ⟨0x15030, 1, 1⟩
abbrev F.LDG_EVT_TORN : Fld := ⟨0x15030, 0, 0⟩
abbrev F.HUB_EPOCH_EPOCH : Fld := ⟨0x10, 31, 0⟩
abbrev F.HUB_EVTMASK_MASK : Fld := ⟨0x1c, 13, 0⟩
abbrev F.HUB_ERR_RESET : Fld := ⟨0x20, 3, 3⟩
abbrev F.HUB_ERR_NORESP : Fld := ⟨0x20, 2, 2⟩
abbrev F.HUB_ERR_NARROW : Fld := ⟨0x20, 1, 1⟩
abbrev F.HUB_ERR_UNMAPPED : Fld := ⟨0x20, 0, 0⟩
abbrev F.HUB_ERRADDR_OFFSET : Fld := ⟨0x24, 25, 0⟩
abbrev F.ARR_CNT_GAINCUT_COUNT (t a : Nat) : Fld := ⟨0x10020cc + 0x4000 * t + 0x400 * a, 31, 0⟩
abbrev F.HUB_CNT_TESTHOLD_COUNT : Fld := ⟨0xb00, 31, 0⟩
abbrev F.HUB_TESTTIME_LO_TIME : Fld := ⟨0xb04, 31, 0⟩
abbrev F.HUB_TESTTIME_HI_TIME : Fld := ⟨0xb08, 31, 0⟩

end Sys2Proof.Machine
end

