-- ==== Sys2Proof/Machine/Sparse.lean ====
section
/-! DEFINITION. Sparse data by key: a list of (key, value) pairs in one canonical form (keys strictly rising, no
entry equal to what an unlisted key reads as). Registers, memories and the per-unit records of State use it.
-/

namespace Sys2Proof.Machine

/-- Sparse data: what is not listed reads as the default the caller names. -/
abbrev Sparse (α : Type) := List (Nat × α)

/-- The value at a key; d gives what an unlisted key reads as. -/
def lookup {α : Type} (d : Nat → α) : Sparse α → Nat → α
  | [], k => d k
  | (a, v) :: m, k => if a = k then v else lookup d m k

/-- The pair placed before the first larger key. -/
def place {α : Type} : Sparse α → Nat → α → Sparse α
  | [], k, v => [(k, v)]
  | (a, w) :: m, k, v => if k < a then (k, v) :: (a, w) :: m else (a, w) :: place m k v

/-- Every pair but those of a key. -/
def dropKey {α : Type} (m : Sparse α) (k : Nat) : Sparse α := m.filter (fun p => p.1 ≠ k)

/-- Write a value at a key, keeping the canonical form: the default is not listed. -/
def store {α : Type} [DecidableEq α] (d : Nat → α) (m : Sparse α) (k : Nat) (v : α) : Sparse α :=
  if v = d k then dropKey m k else place (dropKey m k) k v

/-- Keys strictly rising from a bound. -/
def risingFrom {α : Type} : Nat → Sparse α → Bool
  | _, [] => true
  | b, (a, _) :: m => decide (b ≤ a) && risingFrom (a + 1) m

/-- The canonical form (MEMORY): keys strictly rising, no entry equal to what an unlisted key reads as. -/
def canonical {α : Type} [DecidableEq α] (d : Nat → α) (m : Sparse α) : Bool :=
  risingFrom 0 m && m.all (fun p => decide (p.2 ≠ d p.1))

/-- Every pair with a key outside [lo, hi), that is, the range set back to its default. -/
def dropRange {α : Type} (m : Sparse α) (lo hi : Nat) : Sparse α := m.filter (fun p => p.1 < lo || hi ≤ p.1)

/-- The first element that satisfies p replaced by its image. -/
def updFirst {α : Type} (p : α → Bool) (f : α → α) : List α → List α
  | [] => []
  | x :: xs => if p x then f x :: xs else x :: updFirst p f xs

/-- n consecutive values from a key. -/
def readMany {α : Type} (d : Nat → α) (m : Sparse α) (k : Nat) : Nat → List α
  | 0 => []
  | n + 1 => lookup d m k :: readMany d m (k + 1) n

/-- Consecutive values written from a key, in ascending order. -/
def writeMany {α : Type} [DecidableEq α] (d : Nat → α) (m : Sparse α) (k : Nat) : List α → Sparse α
  | [] => m
  | v :: vs => writeMany d (store d m k v) (k + 1) vs

end Sys2Proof.Machine
end

