-- ==== Sys2Proof/Machine/Units.lean ====
section
/-! DEFINITION. The records of the block's units: what State holds beside the BAR0 registers and the memories. Every
record has a default value, which is the unit right after power-up.
-/

namespace Sys2Proof.Machine

/-! ### Package, rails and governor (15_power_cooling_speed.md, 22_package_and_signals.md) -/

/-- The package and its pins (R496 to R505, R688 to R693). -/
structure Power where
  /-- Input voltage at the studs as last reported, in units of 0.25 mV: a command gives whole mV, channel 60 gives 1.25 mV for
  each 1/16 code (R526). -/
  vin : Nat := 0
  /-- The input has stayed inside 39 to 61 V for 25 ms (R497). -/
  qualified : Bool := false
  /-- The hub is powered: VHUB is up and the hub's circuits run (R4, R502). -/
  on : Bool := false
  /-- The hot-swap controller holds the package off until the input is removed (R498, R503). -/
  locked : Bool := false
  /-- PKG_FAULT_N is asserted (R691). -/
  pkgFault : Bool := false
  /-- PKG_FAULT_N was asserted by an input overvoltage (R496). -/
  overvolt : Bool := false
  /-- Rails that are up, bit n for rail n (R500). -/
  rails : Nat := 0
  /-- VIO18 is up (R693). -/
  vio18 : Bool := false
  /-- Rails outside their band after a phase loss, bit n (R504). -/
  droop : Nat := 0
  /-- The rail whose trip left only the hub powered (R503). -/
  short : Option Nat := none
  /-- PERST_N is asserted (R690). -/
  perst : Bool := false
  /-- STRAP_RECOV's level, and the level sampled when boot step 1 began (R692). -/
  strap : Bool := false
  strapHeld : Bool := false
  deriving DecidableEq, Repr

/-- The governor's inputs and latched conditions (R511 to R521). -/
structure Gov where
  /-- MODE and WATTS in effect since the last 10 µs interval (R517). -/
  mode : Nat := 0
  watts : Nat := 1800
  /-- An open stud (R499). -/
  stud : Bool := false
  /-- No valid outlet sensor (R512). -/
  noOutlet : Bool := false
  /-- Inlet temperature used, in °C: 65 °C where no inlet sensor is valid (R512). -/
  inlet : ℚ := 65
  /-- The flow ceiling 900 × Q in watts, while it applies (R513). -/
  flowCeil : Option ℚ := none
  /-- The open PACE window (R519): a ceiling below GOV_SET × 1.03 was in force, throttling happened. -/
  paceLow : Bool := false
  paceThrot : Bool := false
  /-- HUB_OSC at the last step boundary (GOV_STEPPER, R522). -/
  lastStep : Option Nat := none
  deriving DecidableEq, Repr

/-! ### Observation credit (R637) -/

/-- A credit: what was left, in 1/10,240 of a byte, when it was last spent, and HUB_OSC then. -/
structure Credit where
  left : Nat := 0
  since : Nat := 0
  deriving DecidableEq, Repr

/-- What the hub keeps of the drain: the destination's credit (R637), and the tile that it took a record from last (R636). -/
structure Drain where
  credit : Credit := {}
  last : Nat := 511
  deriving DecidableEq, Repr

/-! ### The Sentinel converter (16_sentinel_converter.md) -/

/-- An entry of the result queue (R532, R533): SNC_QSTAT, accession count and SNC_QTIME. -/
structure SncResult where
  word : W32
  count : Nat
  time : Nat
  deriving DecidableEq, Repr

/-- The Sentinel's sequencer and queues. -/
structure Sentinel where
  powered : Bool := false
  starting : Bool := false
  /-- The entry in progress, 48 at the end of the loop, and the results it has given in this pass (R535). -/
  entry : Nat := 0
  done : Nat := 0
  /-- A swap of the shadow table is pending (R537). -/
  swap : Bool := false
  /-- The urgent queue, oldest first, and the requesters that wait for a place in it (R539). -/
  urgent : List (Nat × UrgBy) := []
  waiting : List (Nat × UrgBy) := []
  /-- For each request of the urgent queue, the sequencer codes that may still emerge before its own: those of the sample in
  progress and of the nine periods of the pipeline when it came (R524, R540). -/
  ahead : List Nat := []
  /-- The result queue, oldest first (R532). -/
  queue : List SncResult := []
  /-- Results completed since power-up (R531). -/
  results : Nat := 0
  deriving DecidableEq, Repr

/-! ### Charters (12_job_mapping.md) -/

/-- A tensor layout record (R394); host tensors use the same record (R471). -/
structure Tensor where
  id : Nat := 0
  desc : W16 := 0
  scaled : Bool := false
  stashed : Bool := false
  param : Bool := false
  margin : Nat := 0
  place : Nat := 0
  base : Nat := 0
  rows : Nat := 0
  rowlen : Nat := 0
  pitch : Nat := 0
  stage : Nat := 0
  layer : Nat := 0
  pbase : Nat := 0
  deriving DecidableEq, Repr

/-- A DEVICES entry (R392). -/
structure DevRec where
  device : Nat := 0
  stage : Nat := 0
  rank : Nat := 0
  serial : Nat := 0
  deriving DecidableEq, Repr

/-- A region record (R396). -/
structure Region where
  kind : Nat := 0
  stack : Nat := 0
  stage : Nat := 0
  unit : Nat := 0
  base : Nat := 0
  length : Nat := 0
  deriving DecidableEq, Repr

/-- An array placement record (R399). -/
structure Placement where
  stage : Nat := 0
  tile : Nat := 0
  array : Nat := 0
  rank : Nat := 0
  iter : Nat := 0
  action : Nat := 0
  layer : Nat := 0
  rowoff : Nat := 0
  coloff : Nat := 0
  rows : Nat := 0
  cols : Nat := 0
  pbase : Nat := 0
  /-- The 136 bytes of gain codes as a little-endian number. -/
  gain : Nat := 0
  deriving DecidableEq, Repr

/-- A PROGRAM entry (R393): a stage marker, or a 64-byte tile command template as a little-endian number. -/
structure ProgEntry where
  marker : Bool := false
  kind : Nat := 0
  stage : Nat := 0
  word : Nat := 0
  deriving DecidableEq, Repr

/-- A group descriptor (R323). -/
structure Group where
  opt : Nat := 0
  flags : Nat := 0
  beta1 : W32 := 0
  beta2 : W32 := 0
  eps : W32 := 0
  lambda : W32 := 0
  phimax : W32 := 0
  sched : Nat := 0
  deriving DecidableEq, Repr

/-- A SHARDS entry (R392). -/
structure Shard where
  first : Nat := 0
  length : Nat := 0
  device : Nat := 0
  engine : Nat := 0
  deriving DecidableEq, Repr

/-- A segment of a learning-rate schedule (R401). -/
structure RateSeg where
  start : Nat := 0
  kind : Nat := 0
  a : W32 := 0
  b : W32 := 0
  len : W32 := 0
  deriving DecidableEq, Repr

/-- A LAYERS entry (R392). -/
structure Layer where
  id : Nat := 0
  stage : Nat := 0
  dgmode : Nat := 0
  group : Nat := 0
  weights : Nat := 0
  deriving DecidableEq, Repr

/-- A WATCHERS entry (R392). -/
structure Watcher where
  layer : Nat := 0
  kind : Nat := 0
  shift : Nat := 0
  factor : W32 := 0
  warmup : Nat := 0
  action : Nat := 0
  steps : Nat := 0
  deriving DecidableEq, Repr

/-- A PORTS entry (R392, R443). -/
structure PortRec where
  device : Nat := 0
  dest : Nat := 0
  count : Nat := 0
  ports : List Nat := []
  deriving DecidableEq, Repr

/-- A FEEDS entry (R478). -/
structure Feed where
  device : Nat := 0
  ring : Nat := 0
  kind : Nat := 0
  tensor : Nat := 0
  mbbytes : Nat := 0
  region : Nat := 0
  slots : Nat := 0
  deriving DecidableEq, Repr

/-- A charter as the devices use it (R390 to R403). -/
structure Charter where
  id : Nat := 0
  crc : W32 := 0
  seed : Nat := 0
  /-- R390 FLAGS: POLICY, DFWD, RNP, GBUF. -/
  lag1 : Bool := false
  dfwd : Bool := false
  rnp : Bool := false
  gbuf : Bool := false
  bucket : Nat := 0
  clip : W32 := 0
  stages : Nat := 1
  replicas : Nat := 1
  micro : Nat := 1
  devices : List DevRec := []
  tensors : List Tensor := []
  regions : List Region := []
  arrays : List Placement := []
  program : List ProgEntry := []
  groups : List Group := []
  shards : List Shard := []
  rates : List (List RateSeg) := []
  /-- Stage and kind (1 F, 2 B). -/
  order : List (Nat × Nat) := []
  layers : List Layer := []
  watchers : List Watcher := []
  ports : List PortRec := []
  feeds : List Feed := []
  /-- CHECKPOINT INTERVAL and FIRST (R482). -/
  ckInterval : Nat := 0
  ckFirst : Nat := 0
  deriving DecidableEq, Repr

/-! ### Arrays (04_analogue_arrays.md, 05_weight_programming.md, 06_residual_correction.md) -/

/-- One weight bank of an array. Pairs are keyed 531 × row + column, cells 2 × pair + side (0 for G+, 1 for G−). -/
structure Bank where
  /-- Level of each cell (R122, R168); an unlisted cell holds what nothing states. -/
  cells : Sparse ℚ := []
  /-- Programmed level p of each pair (R164) and its readback r16 (R171). -/
  prog : Sparse Int := []
  r16 : Sparse Int := []
  /-- Remainder q of each row (R153). -/
  rem : Sparse Int := []
  /-- Pulses since the stored value, by physical column; the stored value plus 2^20 (R189, R191). -/
  wear : Sparse Nat := []
  wearBase : Nat := 0
  /-- The largest wear count last written to the ledger (R191). -/
  wearSaved : Nat := 0
  /-- The digital copy has been written since charter acceptance (R166), and its version (R160). -/
  copied : Bool := false
  version : Nat := 0
  /-- Rows whose remainder does not fit its field (R174). -/
  unfit : List Nat := []
  /-- Causes that disable the checksum comparison: a remainder that does not fit (R174), unreached pairs in the
  checksum column, its wear limit (R195). -/
  remOff : Bool := false
  unrOff : Bool := false
  wearOff : Bool := false
  /-- The bank's last measurement has given factors, and their rank (R209, R228). -/
  factors : Bool := false
  rank : Nat := 0
  /-- The last measurement found an over-limit column (R225). -/
  overlimit : Bool := false
  /-- BF16 factors of W − Wq in PN4 data-gradient mode (R313, R314), keyed 32 × index + rank column; formed since the copy
  was written. -/
  uq : Sparse W16 := []
  vq : Sparse W16 := []
  imaged : Bool := false
  /-- A commit's return is awaited; the copy holds targets that no rewrite has started toward (R166, R181). -/
  awaited : Bool := false
  fresh : Bool := false
  /-- Spare entries that a rewrite has programmed; they turn LIVE at the next boundary (R196). -/
  spareReady : List Nat := []
  /-- Retired columns for which no entry was free (R198, R586). -/
  unspared : List Nat := []
  /-- A full rewrite is owed (R163, R600). -/
  oweFull : Bool := true
  /-- A refresh rewrite of the bank is still owed to the refresh in force (R193). -/
  oweRefresh : Bool := false
  deriving DecidableEq, Repr

/-- A pair being written (R170): its legs still to run (side, goal level), its code, its pulses. -/
structure PairProg where
  col : Nat
  legs : List (Nat × Int)
  code : Int
  pulses : Nat := 0
  unreached : Bool := false
  deriving DecidableEq, Repr

/-- Where a row stands (R169 to R171, R193). -/
inductive RowPhase where
  | fresh
  | pulsing
  | closing (readsDone : Nat)
  deriving DecidableEq, Repr

/-- A rewrite in progress (R161 to R174, R193, R194). -/
structure Rewrite where
  row : Nat := 0
  phase : RowPhase := .fresh
  pairs : List PairProg := []
  /-- Sums of the closing verify codes by column (R171). -/
  sums : Sparse Int := []
  /-- Cycles of the bank clear still to run (R175). -/
  clearLeft : Nat := 0
  /-- Unreached pairs by column, and clamped targets, in this rewrite (R163, R172). -/
  unreached : Sparse Nat := []
  clamps : Nat := 0
  /-- The bank under programming. -/
  bank : Nat := 0
  /-- Spare entries that this rewrite programs (R196). -/
  spares : List Nat := []
  /-- The measurement's next pattern and what it has read so far (R206, R207): for each pattern the codes and trips of the
  logical columns, and REF0's code. -/
  pattern : Nat := 0
  reads : List (List (Int × Bool)) := []
  ref0 : List Int := []
  /-- ARR_RESLIM and the rank and iterations of ARR_RESCFG as sampled when the measurement starts (R210, R225). -/
  limit : Nat := 0
  rank : Nat := 0
  iter : Nat := 0
  /-- What a bank's readiness waits for (R181, R211, R551): measured, factors built, calibrated. -/
  measured : Bool := false
  built : Bool := false
  calibrated : Bool := false
  deriving DecidableEq, Repr

/-- A vector at the array edge (R131, R148, R213). -/
structure EdgeVec where
  acc : Nat := 0
  index : Nat := 0
  /-- Sums 16 × high code + low code of the slices run so far, by logical column (R148). -/
  n : List Int := []
  /-- The comparators of the slice run last, by logical column (R138). -/
  trips : List Bool := []
  /-- QAVG before the vector's first slice updated it (R148). -/
  qavg : Nat := 0
  /-- Mantissas and block exponent as the array saw them (R213). -/
  m : List Int := []
  e : Int := 0
  /-- Outputs in FP32: of R148, then with the covered columns (R251), then with the correction of R213. -/
  y : List W32 := []
  /-- The covered columns are in place (R254); the correction has been added and the outputs are released (R213). -/
  covered : Bool := false
  done : Bool := false
  /-- Every slice of the vector has run. -/
  full : Bool := false
  deriving DecidableEq, Repr

/-- A calibration in progress or its shadow results (R549 to R557). -/
structure CalState where
  /-- Windows run so far, and the draw that their codes come from. -/
  windows : Nat := 0
  draw : Nat := 0
  /-- REF0 means of both banks in 8.12 form (R550). -/
  qcal0 : Nat := 0
  qcal1 : Nat := 0
  /-- The change limits are waived: no calibration since power-up, and no trim record in the ledger (R553). -/
  waive : Bool := true
  /-- CAUSE of the last calibration, 0 where it was accepted. -/
  last : Nat := 0
  /-- The columns that the last calibration failed on (R554). -/
  failed : List Nat := []
  /-- HUB_OSC when the trim record was last written (R558). -/
  savedAt : Option Nat := none
  deriving DecidableEq, Repr

/-- What one array holds beside its registers. -/
structure Arr where
  bank0 : Bank := {}
  bank1 : Bank := {}
  rew : Rewrite := {}
  edge : List EdgeVec := []
  cal : CalState := {}
  /-- The active bank's factors in the tile store (R212), BF16, keyed 32 × index + rank column; the spec gives them no
  address there. -/
  resU : Sparse W16 := []
  resV : Sparse W16 := []
  /-- The factors that the last swap replaced, to which a swap back returns (R212, R591). -/
  prevU : Sparse W16 := []
  prevV : Sparse W16 := []
  /-- Trim codes in effect and in the shadow, by physical column: gain and offset (R548, R555). -/
  gain : Sparse Nat := []
  ofs : Sparse Nat := []
  shadowGain : Sparse Nat := []
  shadowOfs : Sparse Nat := []
  /-- Trims recorded in the ledger (R558). -/
  savedGain : Sparse Nat := []
  savedOfs : Sparse Nat := []
  /-- The start-up rewrite of R407: bank 0 first, then the array enters service (R159). -/
  startup : Bool := false
  /-- Out of service (R583), its test passed and it awaits the swap (R586). -/
  out : Bool := false
  passed : Bool := false
  /-- A disabling fault that no test can clear: it never returns to service (R586). -/
  condemned : Bool := false
  /-- A refresh is requested (R192). -/
  refresh : Bool := false
  /-- A re-verify of the active bank is owed (R194). -/
  reverify : Bool := false
  /-- A reference fault awaits its calibration (R551). -/
  refFault : Bool := false
  /-- The step in which the last calibration took effect, in which the last ARRAY test ended, and in which a
  calibration after a reference fault last ran (R551, R566). -/
  calStep : Option Nat := none
  testStep : Option Nat := none
  refStep : Option Nat := none
  /-- Logical columns that clipped in the step, under a float input (R310). -/
  clipped : List Nat := []
  /-- Logical columns that the DPA computes since the last boundary (R196, R251, R585). -/
  cover : List Nat := []
  /-- Vectors of the open run that the DPA has covered (R249, R254). -/
  coverRun : Nat := 0
  deriving DecidableEq, Repr

/-! ### Tiles: counter pages, folio, tests (17_calibration_and_test.md, 19_observation.md) -/

/-- A test that a tile runs or holds (R566 to R572): kind and mode coded as in TIL_TESTSTAT, the accession numbers of
the TEST commands that wait for its verdict. -/
structure TestReq where
  kind : Nat
  mode : Nat
  array : Nat := 0
  col : Nat := 0
  steps : Nat := 0
  hosts : List Nat := []
  deriving DecidableEq, Repr

/-- What the row register of a lane holds of its last command (R237): the command's context, row operand, BT and
reduction length, whether it ran at full width, and the operand of its first panel, one list per reduction index. -/
structure KeepTag where
  ctx : Nat
  /-- The row operand's region: its place, base, pitch, rows and row length. -/
  region : List Nat
  db : Nat
  bt : Bool
  shift : Bool
  depth : Nat
  full : Bool
  panel : List (List FVal)
  deriving DecidableEq, Repr

/-- A statistics group (R280): its forward command, first row, how many records it has, and the records in row order while
the record area holds them. A spilled group's records lie in the 8-byte slots of the spill region that slots names
(R282). -/
structure StatGroup where
  acc : Nat
  first : Nat
  count : Nat
  recs : List (W32 × W32)
  spilled : Bool := false
  slots : List Nat := []
  deriving DecidableEq, Repr

/-- A command's numeric status (R106 to R109). -/
structure NumStat where
  svf : Bool := false
  nan : Bool := false
  inf : Bool := false
  abs : Bool := false
  cause : Nat := 0
  row : Nat := 0
  col : Nat := 0
  sat : Nat := 0
  absorbed : Nat := 0
  deriving DecidableEq, Repr

/-- What a step wrote into a scaled tensor (R308, R310, R311): largest true magnitude, whether a saturation or an
integer-coded clip was counted, whether a writing command set its special-value flag. -/
structure ScaleUse where
  written : Bool := false
  amax : FVal := FVal.zero
  cut : Bool := false
  svf : Bool := false
  deriving DecidableEq, Repr

/-- A command of a suspect tile that awaits its redundancy comparison (R563): what its completion needs, the CRC of
its output and status, and what is undone where its output is discarded (R564): the bytes that it replaced, by place and
address, the gradient elements that it reached first, and the tile's loss before it. use is what the step's use of its scaled
tensor becomes. -/
structure RedPend where
  op : Nat
  cmd : TileCmd
  unit : Nat
  status : Nat
  num : NumStat
  crc : W32
  old : List (Nat × Nat × List Byte) := []
  touched : List Nat := []
  loss : W32 × W32 := (0, 0)
  use : Option (Nat × ScaleUse) := none
  /-- TIME when the command started (R630). -/
  start : Nat := 0
  deriving DecidableEq, Repr

/-- What one tile holds beside its registers, its store and its arrays. -/
structure Tile where
  /-- The folio's whole records, oldest first (R628), and what was dropped since the last drop record (R638). -/
  folio : List (List Byte) := []
  dropRecs : Nat := 0
  dropBytes : Nat := 0
  /-- HUB_OSC when the tile left reset (R633). -/
  oscBase : Nat := 0
  /-- Counter values, keyed 16 × page + counter (R619). -/
  counts : Sparse Nat := []
  /-- The page that the command that runs holds (R621, R624). -/
  counting : Option Nat := none
  /-- LAYER, OPERATOR and unit of the pages' owners, page A's first (R622, R629). -/
  ownerA : Nat × Nat × Nat := (0, 0, 0)
  ownerB : Nat × Nat × Nat := (0, 0, 0)
  /-- TIME when the command that runs started (R630). -/
  start : Nat := 0
  /-- The test that runs and those that wait (R571). -/
  test : Option TestReq := none
  waiting : List TestReq := []
  /-- The array that the charge pump admitted last (R176). -/
  pump : Nat := 7
  /-- The commands whose folio mirrors the hub holds, by unit (R613): the command bytes and the unit's TIME. -/
  mirror : Sparse (List Byte) := []
  mirrorFolio : List (List Byte) := []
  /-- A refresh has been asked for since TIL_CALPT was last set (R557). -/
  calWant : Bool := false
  /-- Steps of full redundancy asked for since the last boundary (R565). -/
  redWant : Nat := 0
  /-- A redundancy comparison failed since the shadow ENGINE test began (R569). -/
  redFailed : Bool := false
  /-- The OPE is in lane mode (R242). -/
  laneMode : Bool := false
  /-- Eighths of a correction beat that OPE_CNT_CORR has still to count (R215). -/
  corrRem : Nat := 0
  /-- Row register contents by lane (R237). -/
  keep : Sparse (Option KeepTag) := []
  /-- Statistics groups, oldest first (R280). -/
  groups : List StatGroup := []
  /-- Tile commands that wait for their phase or their array (R471), by opcode. -/
  seqWait : List (Nat × TileCmd) := []
  /-- Commands that have waited for a reload of their group (R283). -/
  reloading : List Nat := []
  /-- Commands that await their redundancy comparison. -/
  redPend : List RedPend := []
  /-- Panels of the cover region that have been staged (R252), and the stationary operand fetched (R236). -/
  staged : Nat := 0
  fetched : Option Nat := none
  /-- The tile's observation credit (R637). -/
  credit : Credit := {}
  deriving DecidableEq, Repr

/-! ### Host interface (14_host_interface.md) -/

/-- A host command that was fetched and has not completed (R465): its accession number and its 64 bytes. -/
structure Fetched where
  acc : Nat
  bytes : List Byte
  /-- A LOAD, START, STOP, CHECKPOINT, RESTORE or TEST command that has started and runs on. -/
  running : Bool := false
  deriving DecidableEq, Repr

/-- A completion that is held (R474, R491): its 32 bytes without PHASE, and its command's IRQ bit. -/
structure HeldCpl where
  bytes : List Byte
  irq : Bool
  deriving DecidableEq, Repr

/-- A halyard (R462 to R477). -/
structure Halyard where
  fetched : List Fetched := []
  held : List HeldCpl := []
  /-- HUB_OSC at which each completion beyond HAL_CQHEAD was written, oldest first (R477). -/
  stamps : List Nat := []
  /-- The next command's position since EN was set (R466). -/
  pos : Nat := 0
  /-- Fetching has ended until EN is cleared and set (R495). -/
  dead : Bool := false
  deriving DecidableEq, Repr

/-- A checkpoint (R482 to R486): its step, the command that asked for it, the records still to write. -/
structure Ckpt where
  step : Nat := 0
  accs : List Nat := []
  /-- Staged scale records and watcher states (R483). -/
  scales : List Byte := []
  watch : List Byte := []
  /-- The stream has begun; its records that are not written yet. -/
  begun : Bool := false
  todo : List (List Byte) := []
  /-- The slot that was current at the checkpoint's commit, by shard number (R484). -/
  slots : List (Nat × Nat) := []
  deriving DecidableEq, Repr

/-- What the host interface holds beside its registers. -/
structure Hal where
  /-- The PCIe link is in L0 and carries traffic (R490). -/
  linkUp : Bool := false
  halyards : Sparse Halyard := []
  /-- Layouts that TENSOR commands stored (R471). -/
  tensors : List Tensor := []
  /-- log2 of the BAR2 size in GiB (R456). -/
  bar2 : Nat := 6
  /-- Feed descriptors that wait for their ring's next doorbell (R480), by feed ring. -/
  feedErr : List Nat := []
  /-- The checkpoint doorbell's count (R463), the staged checkpoint, the stream in progress, and commands that wait. -/
  ckProd : Nat := 0
  ckStaged : Option Ckpt := none
  ckStream : Option Ckpt := none
  /-- Checkpoints whose stream waits for the one in progress (R486). -/
  ckQueue : List Ckpt := []
  ckWant : List Nat := []
  ckNext : Bool := false
  /-- Uncorrectable errors reported through AER (R460). -/
  aer : Nat := 0
  deriving DecidableEq, Repr

/-! ### Fabric messages and the ledger's queue -/

/-- A fabric message (R430, R431, R436, R437): the fields of its routing header and its payload. -/
structure Msg where
  dest : Nat
  src : Nat := 0
  cls : Nat
  hops : Nat := 63
  stream : Nat := 0
  count : Nat := 0
  flow : Nat := 0
  payload : List Byte
  deriving DecidableEq, Repr

/-- A link frame in a port's replay buffer (R423 to R425): its sequence number, VC and FLAGS bytes, data, and how often
it was sent. -/
structure Frame where
  seq : Nat
  vc : Nat
  flags : Nat
  data : List Byte
  sends : Nat := 0
  deriving DecidableEq, Repr

/-- A fabric port (R423 to R427): next SEQ to send, next expected, unacknowledged frames oldest first, frames that the
full replay buffer holds up, bytes of the message being received on each virtual channel, messages received whole and
not yet looked at (R433), the messages in flight; the SEQ that the last NAK sent asked for; a table set was switched in
since the port came up (R452, R453); the class whose turn it is, and the bytes that its turn still allows (R432). -/
structure Port where
  txSeq : Nat := 0
  rxSeq : Nat := 0
  buf : List Frame := []
  queue : List Frame := []
  parts : Sparse (List Byte) := []
  whole : List (List Byte) := []
  msgs : List Msg := []
  nak : Option Nat := none
  joined : Bool := false
  turn : Nat := 1
  allow : Nat := 4096
  /-- HUB_OSC at the lane loss that the port retrained after (R428, R429). -/
  lostAt : Option Nat := none
  deriving DecidableEq, Repr

/-- What the fabric keeps beside its registers (R436, R437, R444, R446). -/
structure Fabric where
  /-- The accession counter; flow sequences by 8 × destination + class, and expected ones by 8 × source + class. -/
  count : Nat := 0
  tx : Sparse Nat := []
  rx : Sparse Nat := []
  ports : Sparse Port := []
  /-- Link frames that have left on a port, with the port, oldest first (R423). -/
  wire : List (Nat × List Byte) := []
  /-- Messages ahead of their flow; messages that wait for a usable port; messages delivered to this device's units,
  oldest first. -/
  held : List Msg := []
  wait : List Msg := []
  delivered : List Msg := []
  /-- The graph learnt in the last discovery, and the numbers that this root assigned (serial, number). -/
  graph : List GraphNode := []
  numbers : List (Nat × Nat) := []
  /-- The numbering table of the last discovery (R447, R448, R450). -/
  table : List (Nat × Nat) := []
  /-- The device number of the root that sent the tables in use (R451). -/
  rootDev : Nat := 0
  deriving DecidableEq, Repr

/-- A request to the ledger (R660, R663). -/
structure LdgReq where
  /-- 0 a Steward, 1 the Warden, 2 the host. -/
  src : Nat
  type : Nat
  key : Nat
  value : List Byte := []
  delete : Bool := false
  deriving DecidableEq, Repr

/-- A live record of the ledger (R660 to R662). -/
structure LdgRec where
  type : Nat
  key : Nat
  value : List Byte
  count : Nat
  deriving DecidableEq, Repr

/-- The ledger (R659 to R668): its two regions in the flash, queue, live set, append point. -/
structure Ledger where
  off0 : Nat := 0
  off1 : Nat := 0
  len : Nat := 0
  queue : List LdgReq := []
  waiting : List LdgReq := []
  live : List LdgRec := []
  append : Nat := 0
  nextCount : Nat := 0
  readOnly : Bool := false
  /-- The thermistor records (type 0x13, by channel) that the last boot read (R528, R666). -/
  rtd : List (Nat × List Byte) := []
  deriving DecidableEq, Repr

/-! ### Boot, security, dump and hangs (18_faults_and_recovery.md, 20_boot_security_ledger.md) -/

/-- A running image (R648, R657): its SVN, key set and the digest of its payload. -/
structure Image where
  svn : Nat := 0
  keyset : Nat := 0
  digest : List Byte := []
  deriving DecidableEq, Repr

/-- What boot and the DOE mailbox keep (R647, R650 to R658). -/
structure Security where
  /-- Running images by kind: 1 Warden, 2 Steward, 3 microcode. -/
  images : Sparse Image := []
  /-- Fuses burnt since the first power-up of the run: SVN counters by kind above the delivered ones, revoked keys. -/
  svn : Sparse Nat := []
  revoked : Nat := 0
  /-- The reduction store as SEC_RWIN stages it (R651). -/
  store : Sparse Byte := []
  /-- The SHA-384 of the loaded charter's bytes (R657 block 4); zeros when none is loaded. -/
  charterDigest : List Byte := []
  /-- Bytes of the flash charter that boot step 7 placed in memory; 0 for none (R650). -/
  bootCharter : Nat := 0
  /-- The ensign has still to load it (R650 step 9). -/
  bootLoad : Bool := false
  /-- SPDM: the negotiation messages exchanged (A), the digest and certificate messages (B), the measurement messages
  (L), and the last response. -/
  spdmA : List Byte := []
  spdmB : List Byte := []
  spdmL : List Byte := []
  response : List Byte := []
  deriving DecidableEq, Repr

/-- The dump engine (R612 to R616): the header record of the dump, the units that have not answered, and the draw of what
the units record. -/
structure Dump where
  header : List Byte := []
  unreach : List Nat := []
  draw : Nat := 0
  deriving DecidableEq, Repr

/-- Hangs and memory errors (R582, R598, R603 to R605): held commands by context, states that suspects had before, the
time of each partition's last hang, and addresses that have had an uncorrectable error. -/
structure Hang where
  held : List (Nat × Nat × TileCmd) := []
  before : Sparse Nat := []
  hungAt : Sparse (Option Nat) := []
  ueSeen : List Nat := []
  /-- Contexts whose held host commands await their replay (R604). -/
  hosts : List Nat := []
  /-- Partitions that hangs have reset, bit n for PTn, until the last replay, and the context whose replay runs (R604). -/
  parts : Nat := 0
  replaying : Option Nat := none
  deriving DecidableEq, Repr

/-! ### Update engines, FRE and step root (10_update_engine.md, 11_gradient_exchange.md) -/

/-- A value of the scalar tree (R341): a contribution pair, or a report's status and layers. -/
structure Node where
  status : Nat := 0
  hi : W32 := 0
  lo : W32 := 0
  sat : Bool := false
  layers : List LayerSums := []
  deriving DecidableEq, Repr

/-- This device's part of a scalar tree: values of shards and of received nodes by first shard, parts received, nodes
sent on. -/
structure STree where
  vals : List (Nat × Node) := []
  parts : List (Nat × List LayerSums) := []
  sent : List Nat := []
  deriving DecidableEq, Repr

/-- An update engine's progress in its step (R347). -/
structure Engine where
  /-- Elements of each shard delivered into G in the step. -/
  got : Sparse Nat := []
  /-- A VREQ was sent for the step (R376). -/
  vreq : Bool := false
  /-- The trust barrier's layer sums have arrived (R339), and are these. -/
  trusted : Bool := false
  trust : List LayerSums := []
  /-- Shards that pass 1 has run over, and shards whose pending slot is written (R339, R344). -/
  passed : List Nat := []
  applied : List Nat := []
  /-- Its update waits for its records of a checkpoint (R485). -/
  held : Bool := false
  /-- The last handled outcome's step plus 1; 0 before the first. -/
  handled : Nat := 0
  deriving DecidableEq, Repr

/-- A reduction-store slot (R371): a received segment, a partial sum, or a root segment awaiting delivery. -/
structure Slot where
  step : Nat
  bucket : Nat
  shard : Nat
  offset : Nat
  level : Nat
  vals : List W32
  svf : Bool
  sat : Bool
  /-- 0 received from the fabric, 1 this rank's own value for the node. -/
  own : Bool
  deriving DecidableEq, Repr

/-- A segment's key in the reduction store (R372), with the level of the node that adds it. -/
structure SegKey where
  step : Nat
  bucket : Nat
  shard : Nat
  offset : Nat
  level : Nat
  deriving DecidableEq, Repr

/-- A segment that waits for credit (R372). -/
structure OutSeg where
  dest : Nat
  payload : List Byte
  /-- The STREAM of a message that a tile's SEND formed (R431); a segment's own is its shard. -/
  stream : Option Nat := none
  deriving DecidableEq, Repr

/-- The FRE (R362 to R373). -/
structure Fre where
  slots : List Slot := []
  /-- Buckets that are full and unsent, in the order they became full, as (step, bucket); the buckets whose SVF and SAT
  flag bits are set (R362, R363). -/
  full : List (Nat × Nat) := []
  bsvf : List (Nat × Nat) := []
  bsat : List (Nat × Nat) := []
  /-- Credits held by destination, segments that wait, and the keys sent of the steps without an outcome; the slots reserved, by
sending device, and the keys of those steps that have come (R371, R372). -/
  credit : Sparse Nat := []
  out : List OutSeg := []
  gone : List SegKey := []
  reserved : Sparse Nat := []
  came : List SegKey := []
  deriving DecidableEq, Repr

/-- An outcome that waits for the acknowledgements of the step before (R377, R381): its step, its cause, 0 for a commit,
and the source and shard of the VREQ that caused it. -/
structure Waiting where
  step : Nat
  cause : Nat
  dev : Nat := 0
  shard : Nat := 0
  deriving DecidableEq, Repr

/-- The step root's state (R374 to R381, R589 to R596). -/
structure Root where
  ready : List Nat := []
  started : Bool := false
  /-- The outcome issued last, with its cause and ratios, and the devices that acknowledged it. -/
  issued : Option (Nat × Nat × Nat) := none
  ratios : List (Nat × W32) := []
  acks : List Nat := []
  wait : Option Waiting := none
  /-- A recovery is in progress (R589, R593): the latest RBACK of each device (LOCAL, SENT, DRAINED), and rollbacks
  since job start (RECOV). -/
  recovery : Bool := false
  rbacks : List (Nat × Bool × Nat × Nat) := []
  recov : Nat := 0
  /-- Class and source of the FAULT that the recovery answers (R596). -/
  cause : Nat × Nat := (0, 0)
  deriving DecidableEq, Repr

/-- The ensign's state record (R46): the step number, the commit state (outcomes handled and the kind of the last), the
charter's identity, the contexts' states, the halyards' pointers, the step root's role state, which is its last outcome and the recovery count
(R597), and the swap that is ordered (R47). -/
structure StateRec where
  step : Nat
  handled : Nat
  outKind : Nat
  charter : Option Nat
  contexts : List Nat
  pointers : List (List Nat)
  issued : Option (Nat × Nat × Nat)
  recov : Nat
  swap : Option Nat
  deriving DecidableEq, Repr

/-- The ensign token and the state record (R41 to R48, R607 to R611). -/
structure Ensign where
  /-- The half that holds the token, and the token's epoch. -/
  half : Nat := 0
  epoch : Nat := 0
  /-- The epoch that each half believes is current. -/
  epoch0 : Nat := 0
  epoch1 : Nat := 0
  /-- The state record that the standby has confirmed, and the one sent and not yet confirmed (R46, R47). -/
  standby : Option StateRec := none
  sentRec : Option StateRec := none
  /-- The step whose closing swap is ordered, once the standby holds a record that includes it (R47). -/
  swapDue : Option Nat := none
  /-- Outcomes handled and not yet acknowledged: step and outcome. -/
  ackDue : List (Nat × Nat) := []
  /-- Stewards that run, bit n. -/
  up : Nat := 0
  deriving DecidableEq, Repr

/-- A norm watcher (R316): mean and count; the sums of the step, one value per micro-batch (R315). -/
structure WatchState where
  mu : W32 := 0
  count : Nat := 0
  sum : W32 := 0
  n : Nat := 0
  deriving DecidableEq, Repr

/-- A stash ring's reservations, oldest first: micro-batch, bytes, and where each tensor lies (R298). -/
structure StashRes where
  mb : Nat
  bytes : Nat
  tail : Nat
  used : Nat
  /-- Tensor, tile, first byte in the ring's region, bytes. -/
  items : List (Nat × Nat × Nat × Nat)
  deriving DecidableEq, Repr

/-- A message in an inter-stage queue (R410, R411): its destination on the outbound side, tensor, first byte of the
tensor it carries, payload. -/
structure ActMsg where
  dest : Nat := 0
  mb : Nat
  tensor : Nat
  off : Nat
  bytes : List Byte
  /-- It has been counted as one that found no credit (R413). -/
  waited : Bool := false
  deriving DecidableEq, Repr

/-! ### The job that runs (09_step_sequence.md) -/

/-- What a device does with its time while a job runs (R37, R293). -/
inductive Phase where
  | forward
  | backward
  deriving DecidableEq, Repr

/-- The job's progress on this device. -/
structure Job where
  running : Bool := false
  /-- START was accepted, READY was sent (R408); the first START of the charter has been (R407). -/
  starting : Option Nat := none
  begun : Bool := false
  /-- A STOP command (R472): its accession number and step; none for the next boundary. -/
  stop : Option (Nat × Option Nat) := none
  phase : Phase := .backward
  /-- Halves that have reported drained in a phase change (R293), bit n. -/
  drained : Nat := 0
  /-- The next F and B items (R290), the item that runs with HUB_OSC at its start, and the bubble that runs. -/
  nextF : Nat := 0
  nextB : Nat := 0
  item : Option (Phase × Nat × Nat) := none
  want : Option (Phase × Nat) := none
  bubble : Option (Nat × Nat) := none
  /-- A boundary hold's start (R182), and a stop-mode test's (R570). -/
  hold : Option Nat := none
  testHold : Option Nat := none
  /-- Uses of scaled tensors in the step, by tensor identifier; the tensors whose writing in the previous step set a
  special-value flag; the vetoed steps whose cut is due (R311). -/
  uses : Sparse ScaleUse := []
  svfPrev : List Nat := []
  vetoed : List Nat := []
  /-- A veto's copy of the digital copies waits for the swap: the copy it overwrites is in use until then (R187, R378). -/
  copyDue : Bool := false
  /-- Elements of the step's gradient buffer that an addition has reached (R300). -/
  touched : Sparse Bool := []
  /-- Commands issued for the job in the context since START (R466). -/
  issued : Nat := 0
  ctx : Nat := 0
  /-- Values of each array's copy that have arrived in the parameter return (R383), keyed 8 × tile + array. -/
  arrived : Sparse Nat := []
  /-- Returned values of parameters that no array holds, which take effect at the swap (R180, R383), keyed
2^48 × (step mod 2) + parameter. -/
  memNew : Sparse (Option W16) := []
  /-- Loss (R278): of the running item by tile, of the step's micro-batches in order, of the last closed step. -/
  lossTile : Sparse (W32 × W32) := []
  losses : List (W32 × W32) := []
  stepLoss : W32 × W32 := (0, 0)
  watch : Sparse WatchState := []
  /-- True values of the watched layers' output rows that the running item has written (R315), as (tile, tensor, row) and
values. -/
  layerOut : List ((Nat × Nat × Nat) × List FVal) := []
  /-- The first watcher event of the step has been recorded (R317). -/
  watched : Bool := false
  stash0 : List StashRes := []
  stash1 : List StashRes := []
  /-- Inter-stage queues (R410): forward and backward, inbound and outbound. -/
  fin : List ActMsg := []
  /-- Bytes of the running item's inbound messages that the tile sequencers have loaded (R38 step 2, R411). -/
  inLoaded : Nat := 0
  /-- The first accession count of each F item of the step, by micro-batch: a template names its group by its forward
  template (R273). -/
  bases : List (Nat × Nat) := []
  fout : List ActMsg := []
  bin : List ActMsg := []
  bout : List ActMsg := []
  /-- Credits held for forward and backward sends (R411); HUB_CREDIT shows them. -/
  creditF : Nat := 0
  creditB : Nat := 0
  /-- Bytes of the running item's output stream that have been sent (R411). -/
  outSent : Nat := 0
  /-- HUB_OSC since when an outbound queue's head has waited for credit (R413). -/
  fwait : Option Nat := none
  bwait : Option Nat := none
  /-- The ensign starts no item: a fault was sent and its answer is awaited (R589). -/
  stopItems : Bool := false
  /-- The FAULT whose answer is awaited: class and whether it asks for a halt, and how often it was sent (R596). -/
  fault : Option (Nat × Bool) := none
  faultSends : Nat := 0
  /-- A rollback is in progress (R591 to R593): HUB_STEP of the recovery state, the FLUSHCNTs received with their NEXT
  values, how many were sent, and LOCAL. -/
  rolling : Option Nat := none
  flush : List (Nat × List Nat) := []
  flushSent : Nat := 0
  localDone : Bool := false
  /-- LOCAL and DRAINED of the last RBACK sent; a swap is owed at the boundary that the recovery holds (R593). -/
  rbackSent : Option (Bool × Nat) := none
  oweSwap : Bool := false
  /-- After a recovery the boundary is held until the active banks are ready (R593). -/
  resumed : Bool := false
  /-- The last handled outcome's step plus 1, and its kind (R378, R591). -/
  handled : Nat := 0
  outKind : Nat := 0
  /-- Commands of the item that runs which have not completed, with their opcodes (R290, R393). -/
  left : List (Nat × TileCmd) := []
  /-- HUB_STEP when the job last started. -/
  first : Nat := 0
  /-- Scale records and watcher states as they stood when HUB_STEP took a value (R588). -/
  kept : List (Nat × List Byte × Sparse WatchState × List Nat) := []
  /-- The charter template at which the job context hung last (R606), counted in its item's program. -/
  hungAt : Option Nat := none
  /-- The job context is a suspect, and the step that follows the rollback is its replay (R603, R606). -/
  suspect : Bool := false
  halted : Bool := false
  deriving DecidableEq, Repr

end Sys2Proof.Machine
end

