-- ==== Sys2Proof/Machine/State.lean ====
section
/-! DEFINITION. The state of the block, its fault and refusal reasons, and the state after reset.
-/

namespace Sys2Proof.Machine

/-- The block's state: its registers, memories, units, pins, the outputs it has given, and the queue of waiting
commands. -/
structure State where
  /-- The commands that wait, first in, first out. -/
  pending : List Instr
  /-- BAR0 registers by offset; an unlisted one holds its reset value (`regReset`). -/
  regs : Sparse W32
  /-- Host-visible copies of registers that a read latched, by offset (R676 and the latch rules of the chapters). -/
  latch : Sparse (Option W32)
  /-- Held writes of _HI registers, by offset (R677). -/
  hiHold : Sparse (Option W32)
  /-- What the last host read returned. -/
  readData : Nat
  /-- Draws of free values so far: the argument of Config's constants (log 7). -/
  free : Nat
  /-- HUB_OSC: 10 ns counts since power-up (R682). -/
  osc : Nat
  /-- Device memory, 8 stacks of 80 GiB (R12, R395); host memory; tile stores, keyed 1,572,864 × tile + byte;
  the serial flash. -/
  mem : Sparse Byte
  host : Sparse Byte
  tstore : Sparse Byte
  flash : Sparse Byte
  /-- MSI-X vectors sent, oldest first. -/
  msix : List Nat
  power : Power
  gov : Gov
  snc : Sentinel
  hal : Hal
  /-- Arrays, keyed 8 × tile + array; tiles. -/
  arrs : Sparse Arr
  tiles : Sparse Tile
  charter : Option Charter
  job : Job
  /-- Update engines by number; the FRE; the scalar trees of contributions, reports and trust sums; the step root. -/
  engines : Sparse Engine
  fre : Fre
  treeC : Sparse STree
  treeR : Sparse STree
  treeT : Sparse STree
  root : Root
  fab : Fabric
  ens : Ensign
  /-- Qualifying events since INJ_CTRL.ARM was set (R573). -/
  injSeen : Nat
  ledger : Ledger
  sec : Security
  dump : Dump
  hang : Hang
  drain : Drain
  /-- Fabric messages this device has originated, oldest first. -/
  sent : List Msg
  deriving DecidableEq, Repr

/-- Why the block stops with a fault. No command of the table stops so: the spec gives each its effect. -/
inductive Fault where
  /-- Raised by nobody: the spec names no event after which the block has no next state. Safe. -/
  | none
  deriving DecidableEq, Repr

/-- Why a command is not executed by the model. -/
inductive Refusal where
  /-- An arm of exec that has no meaning yet. Safe: nothing can be proved of its effect. -/
  | notModelled (mnemonic : String)
  deriving DecidableEq, Repr

/-- What a command answers. -/
abbrev Outcome := Host.Outcome State Fault Refusal

/-- The block right after reset: an unpowered package (R4) whose registers hold their power-up values, with empty
memories and queues. POWER_UP is the first event that does anything. -/
def State.reset : State :=
  { pending := [], regs := [], latch := [], hiHold := [], readData := 0, free := 0, osc := 0,
    mem := [], host := [], tstore := [], flash := [], msix := [],
    power := {}, gov := {}, snc := {}, hal := {}, arrs := [], tiles := [], charter := none, job := {},
    engines := [], fre := {}, treeC := [], treeR := [], treeT := [], root := {}, fab := {}, ens := {}, injSeen := 0, ledger := {},
    sec := {}, dump := {}, hang := {}, drain := {}, sent := [] }

end Sys2Proof.Machine
end

