-- ==== Sys2Proof/Machine/Ops.lean ====
section
/-! DEFINITION. The named operations over registers, memories and units, the event summary, and what every command
does on its way out.
-/

namespace Sys2Proof.Machine

/-! ### Registers -/

/-- The value a register holds. -/
def State.rd (s : State) (off : Nat) : W32 := lookup regReset s.regs off

/-- A register written. -/
def State.wr (s : State) (off : Nat) (v : W32) : State := { s with regs := store regReset s.regs off v }

/-- A field's value. -/
def State.fld (s : State) (f : Fld) : Nat := bits (s.rd f.off) f.hi f.lo

/-- A one-bit field as a Boolean. -/
def State.flag (s : State) (f : Fld) : Bool := s.fld f == 1

/-- A field set; the register's other fields stay. -/
def State.setFld (s : State) (f : Fld) (v : Nat) : State := s.wr f.off (putBits (s.rd f.off) f.hi f.lo v)

/-- A one-bit field set to a Boolean. -/
def State.setFlag (s : State) (f : Fld) (b : Bool) : State := s.setFld f (b2n b)

/-- A one-bit event field set. -/
def State.event (s : State) (f : Fld) : State := s.setFld f 1

/-- A counter field advanced; it saturates at its all-ones value (R158, R356, R415, R454, R522, R545). -/
def State.bump (s : State) (f : Fld) (n : Nat) : State := s.setFld f (satAdd (f.hi + 1 - f.lo) (s.fld f) n)

/-- A _LO and _HI pair read and written as one value (R676). -/
def State.pair (s : State) (lo hi : Fld) : Nat := s.fld lo + 2 ^ 32 * s.fld hi
/-- A _LO and _HI pair written. -/
def State.setPair (s : State) (lo hi : Fld) (v : Nat) : State := (s.setFld lo v).setFld hi (v / 2 ^ 32)
/-- A counter held as a pair advanced; it saturates. -/
def State.bumpPair (s : State) (lo hi : Fld) (n : Nat) : State :=
  s.setPair lo hi (satAdd (32 + (hi.hi + 1 - hi.lo)) (s.pair lo hi) n)

/-- Registers returned to their reset values: those whose offset satisfies p. -/
def State.clearRegs (s : State) (p : Nat → Bool) : State :=
  { s with regs := s.regs.filter (fun e => !p e.1), latch := s.latch.filter (fun e => !p e.1),
           hiHold := s.hiHold.filter (fun e => !p e.1) }

/-! ### Memories -/

/-- What a byte of memory that nothing has written reads as: 0 (DESIGN CHOICE, log 2). -/
def memReset (_ : Nat) : Byte := 0

/-- Bytes of a stack (R395). -/
def stackBytes : Nat := 80 * 2 ^ 30
/-- Bytes of device memory (R12). -/
def deviceBytes : Nat := 640 * 2 ^ 30
/-- Bytes of a tile store (R12). -/
def tstoreBytes : Nat := 1536 * 1024

/-- The canonical form of a byte memory: addresses strictly rising, no entry equal to what an unlisted address reads as. -/
abbrev Memory.wf (m : Sparse Byte) : Bool := canonical memReset m

/-- n bytes of device memory. -/
def State.memBytes (s : State) (a n : Nat) : List Byte := readMany memReset s.mem a n
/-- Bytes of device memory written. -/
def State.putMem (s : State) (a : Nat) (bs : List Byte) : State := { s with mem := writeMany memReset s.mem a bs }
/-- n bytes of host memory. -/
def State.hostBytes (s : State) (a n : Nat) : List Byte := readMany memReset s.host a n
/-- Bytes of host memory written. -/
def State.putHost (s : State) (a : Nat) (bs : List Byte) : State := { s with host := writeMany memReset s.host a bs }
/-- Bytes of a tile store written. -/
def State.putTile (s : State) (t x : Nat) (bs : List Byte) : State :=
  { s with tstore := writeMany memReset s.tstore (tstoreBytes * t + x) bs }

/-- What a byte of the flash holds before the first power-up of the run (R644; log 5). -/
def flashReset (a : Nat) : Byte := Config.flashByte a
/-- n bytes of the flash. -/
def State.flashBytes (s : State) (a n : Nat) : List Byte := readMany flashReset s.flash a n
/-- Bytes of the flash written. -/
def State.putFlash (s : State) (a : Nat) (bs : List Byte) : State :=
  { s with flash := writeMany flashReset s.flash a bs }

/-- A byte of a place (R394): stack 0 to 7, or 0xF for tile t's store. -/
def State.placeByte (s : State) (place t off : Nat) : Byte :=
  if place = 15 then lookup memReset s.tstore (tstoreBytes * t + off)
  else lookup memReset s.mem (stackBytes * place + off)

/-- n bytes of a place. -/
def State.placeBytes (s : State) (place t off n : Nat) : List Byte :=
  if place = 15 then readMany memReset s.tstore (tstoreBytes * t + off) n
  else s.memBytes (stackBytes * place + off) n

/-- Bytes of a place written. -/
def State.putPlace (s : State) (place t off : Nat) (bs : List Byte) : State :=
  if place = 15 then s.putTile t off bs else s.putMem (stackBytes * place + off) bs

/-! ### Units -/

/-- Array a of tile t. -/
def State.arr (s : State) (t a : Nat) : Arr := lookup (fun _ => {}) s.arrs (8 * t + a)
/-- An array replaced. -/
def State.putArr (s : State) (t a : Nat) (x : Arr) : State :=
  { s with arrs := store (fun _ => {}) s.arrs (8 * t + a) x }
/-- Tile t. -/
def State.tile (s : State) (t : Nat) : Tile := lookup (fun _ => {}) s.tiles t
/-- A tile replaced. -/
def State.putTileRec (s : State) (t : Nat) (x : Tile) : State := { s with tiles := store (fun _ => {}) s.tiles t x }

/-- Bank b of an array. -/
def Arr.bank (x : Arr) (b : Nat) : Bank := if b = 0 then x.bank0 else x.bank1
/-- A bank replaced. -/
def Arr.setBank (x : Arr) (b : Nat) (k : Bank) : Arr := if b = 0 then { x with bank0 := k } else { x with bank1 := k }

/-- A free value drawn: the number of the draw, and the state that has counted it (log 7). -/
def State.draw (s : State) : Nat × State := (s.free, { s with free := s.free + 1 })

/-- An action done for each element of a list in order. -/
def forEach {α σ : Type} (xs : List α) (s : σ) (f : σ → α → σ) : σ := xs.foldl f s

/-- The numbers of tiles and arrays. -/
def allTiles : List Nat := List.range 512
/-- Every array as (tile, array). -/
def allArrays : List (Nat × Nat) := (List.range 4096).map (fun k => (k / 8, k % 8))
/-- The half of a tile (R12). -/
def halfOf (t : Nat) : Nat := t / 256
/-- The partition of a tile (R18). -/
def partOf (t : Nat) : Nat := t / 128

/-- A quantity in a register's unit. A quantity that is no whole number of units is a free value: the spec rounds none of
these (log 7). -/
def inUnits (q : ℚ) : Nat := if q.den = 1 && 0 ≤ q.num then q.num.toNat else Config.roundedStat q

/-! ### The event summary (R682, R684) -/

/-- The bit of HUB_EVTSUM that an event register at an offset feeds, with the bits of the register that count, or
none. -/
def evtSource (off : Nat) : Option (Nat × Nat) :=
  if off < 0x10000 then
    if off = R.HUB_STEPEVT || off = R.HUB_ERR then some (0, 0xFFFFFFFF) else none
  else if off < 0x1000000 then
    if off = R.GOV_EVT then some (1, 0xFFFFFFFF)
    else if off = R.SNC_EVT then some (2, 0xFFFFFFFF)
    else if off = R.FAB_EVT then some (3, 0xFFFFFFFF)
    else if R.FAB_PEVT 0 ≤ off && off ≤ R.FAB_PEVT 31 && (off - R.FAB_PEVT 0) % 0x80 == 0 then some (3, 0xFFFFFFFF)
    else if off = R.FRE_EVT then some (4, 0xFFFFFFFF)
    else if off = R.HAL_GEVT then some (5, 0xFFFFFFFF)
    else if R.HAL_EVT 0 ≤ off && off ≤ R.HAL_EVT 16 && (off - R.HAL_EVT 0) % 0x100 == 0 then some (5, 0xFFFFFFFF)
    else if R.HAL_FDEVT 0 ≤ off && off ≤ R.HAL_FDEVT 63 && (off - R.HAL_FDEVT 0) % 0x40 == 0 then some (5, 0xFFFFFFFF)
    else if off = R.RST_EVT then some (6, 0xFFFFFFFF)
    else if off = R.SEC_EVT then some (7, 0xFFFFFFFF)
    else if off = R.LDG_EVT then some (8, 0xFFFFFFFF)
    else if off = R.INJ_STAT then some (9, 0xA0000000)
    else if R.UPD_EVT 0 ≤ off && off ≤ R.UPD_EVT 7 && (off - R.UPD_EVT 0) % 0x400 == 0 then some (10, 0xFFFFFFFF)
    else none
  else
    let o := off % 0x4000
    if o = R.TIL_NSUM 0 % 0x4000 || o = R.TIL_RSE_EVT 0 % 0x4000 || o = R.TIL_CHKEVT 0 % 0x4000 then
      some (11, 0xFFFFFFFF)
    else if o = R.OPE_EVT 0 % 0x4000 then some (13, 0xFFFFFFFF)
    else if 0x2000 ≤ o &&
        (o % 0x400 == R.ARR_EVT 0 0 % 0x400 || o % 0x400 == R.ARR_BEVT 0 0 % 0x400
          || o % 0x400 == R.ARR_CALEVT 0 0 % 0x400) then some (12, 0xFFFFFFFF)
    else none

/-- A listed register that feeds a bit of the summary now. -/
def evtOf (e : Nat × W32) : Option Nat :=
  match evtSource e.1 with
  | some (b, m) => if e.2.toNat &&& m = 0 then none else some b
  | none => none

/-- HUB_EVTSUM: bit n is set when one of its sources is (R682). -/
def State.evtSum (s : State) : Nat :=
  s.regs.foldl (fun acc e => match evtOf e with | some b => acc ||| 2 ^ b | none => acc) 0

/-- HUB_TEVT of word w: the tiles behind bits 11 to 13 (R682). -/
def State.tevt (s : State) (w : Nat) : Nat :=
  s.regs.foldl (fun acc e =>
    match evtOf e with
    | some b =>
      let t := (e.1 - 0x1000000) / 0x4000
      if 11 ≤ b && b ≤ 13 && t / 32 == w then acc ||| 2 ^ (t % 32) else acc
    | none => acc) 0

/-- The summary bits that the mask lets signal (R684). -/
def State.masked (s : State) : Nat := s.evtSum &&& s.fld F.HUB_EVTMASK_MASK

/-- The host link carries traffic (R490): the device may write to the host. -/
def State.linkUp (s : State) : Bool := s.power.on && s.hal.linkUp

/-- An MSI-X vector sent to the host (R476). While the link is down the device issues no request (R490). DESIGN CHOICE: a vector
due meanwhile is not sent later (log 84). -/
def State.sendMsix (s : State) (v : Nat) : State := if s.linkUp then { s with msix := s.msix ++ [v] } else s

/-- The event vector, once for each masked summary bit that a command raised (R684). -/
def evtSignal (s s' : State) : State :=
  let rose := (List.range 14).filter (fun b => s'.masked.testBit b && !s.masked.testBit b)
  forEach rose s' (fun t _ => t.sendMsix (t.fld F.HAL_EVTVEC_VEC))

/-- What every command does at its end: the event vector follows the summary bits it raised (R684), and the queue is as
the command found it. -/
def finish (s s' : State) : Outcome := .next { evtSignal s s' with pending := s.pending }

/-- A state with another's power supply and Sentinel. -/
def State.withSupply (t s : State) : State := { t with power := s.power, snc := s.snc }

/-- An effect of the powered package on everything but the power supply and the Sentinel, which commands of their own act
on (actWhole); an unpowered package has none (R4). -/
def act (s : State) (f : State → State) : Outcome := if s.power.on then finish s ((f s).withSupply s) else .next s

/-- An effect of the powered package that may reach the power supply or the Sentinel (R4). -/
def actWhole (s : State) (f : State → State) : Outcome := if s.power.on then finish s (f s) else .next s

/-- An access of BAR0 that is not served (R673, R675, R679, R680): its bit of HUB_ERR, and the offset of the access that
set the first bit (R682). -/
def State.badAccess (s : State) (f : Fld) (off : Nat) : State :=
  (if s.fld F.HUB_ERR_UNMAPPED + s.fld F.HUB_ERR_NARROW + s.fld F.HUB_ERR_NORESP + s.fld F.HUB_ERR_RESET = 0 then
    s.setFld F.HUB_ERRADDR_OFFSET off else s).event f

/-- The device is in recovery mode (R651). -/
def State.inRecovery (s : State) : Bool := s.fld F.SEC_BOOT_STATE == 0xE

/-- BAR0 offsets that are served: in recovery mode only the SEC_ block, HUB_ID and HUB_ERR (R681). -/
def State.served (s : State) (off : Nat) : Bool :=
  !s.inRecovery || (decide (0x40000 ≤ off) && decide (off < 0x60000)) || off == R.HUB_ID || off == R.HUB_ERR

/-- A BAR0 access where the offset is served; one that is not served is unallocated (R681). -/
def State.serve (s : State) (off : Nat) (f : State → State) : State :=
  if s.served off then f s else s.badAccess F.HUB_ERR_UNMAPPED off

/-- A BAR0 read where the offset is served: f gives what it returns, kept in readData, and the state after it; one that is
not served returns 0 (R681). -/
def State.serveRead (s : State) (off : Nat) (f : State → W32 × State) : State :=
  if s.served off then { (f s).2 with readData := (f s).1.toNat }
  else { s.badAccess F.HUB_ERR_UNMAPPED off with readData := 0 }

/-- An effect of a host access to a BAR0 register. -/
def hostReg (off : Nat) (s : State) (f : State → State) : Outcome := act s fun s => s.serve off f

/-- A host read of a BAR0 register. -/
def hostRead (off : Nat) (s : State) (f : State → W32 × State) : Outcome := act s fun s => s.serveRead off f

/-- An effect of a host access to a register of the Sentinel. -/
def sncReg (off : Nat) (s : State) (f : State → State) : Outcome := actWhole s fun s => s.serve off f

/-- A host read of a register of the Sentinel. -/
def sncRead (off : Nat) (s : State) (f : State → W32 × State) : Outcome := actWhole s fun s => s.serveRead off f

/-- The _HI value that a write of a pair's _LO takes with it: the held write, else the one in effect (R677). -/
def State.heldHi (s : State) (hi : Nat) : W32 := (lookup (fun _ => none) s.hiHold hi).getD (s.rd hi)

/-- A _LO write of an RW pair: both halves take effect (R677). -/
def State.writeLo (s : State) (lo : Nat) (v : W32) : State :=
  let h := s.heldHi (lo + 4)
  let s := (s.wr lo v).wr (lo + 4) h
  { s with hiHold := store (fun _ => none) s.hiHold (lo + 4) none }

end Sys2Proof.Machine
end

