-- ==== Sys2Proof/Machine/Observe.lean ====
section
/-! DEFINITION. Counter pages and the folio (19_observation.md), with the hub's mirrors of R613.
-/

namespace Sys2Proof.Machine

/-- The tile-local count of 10 ns intervals (R633). -/
def State.tileTime (s : State) (t : Nat) : Nat := (s.osc - (s.tile t).oscBase) % 2 ^ 48

/-- The step number HUB_STEP (R318). -/
def State.step (s : State) : Nat := s.pair F.HUB_STEP_LO_STEP F.HUB_STEP_HI_STEP

/-- The accession number of a device record (R466): kind 0x2, the step number as count. -/
def State.devAcc (s : State) : Nat := 0x2000 * 2 ^ 48 + s.step % 2 ^ 48

/-- This device's number, 0xFFFF when unnumbered (R629). -/
def State.devNum (s : State) : Nat := if s.flag F.FAB_DEVNUM_VALID then 256 * s.fld F.FAB_DEVNUM_GROUP + s.fld F.FAB_DEVNUM_MEMBER else 0xFFFF

/-- A credit at a moment: what it earned since it was last spent is held up to a limit (R637). What is earned counts at
the rate in force when it is spent (DESIGN CHOICE, log 81). -/
def Credit.now (c : Credit) (cap rate osc : Nat) : Nat := min (10240 * cap) (c.left + (osc - c.since) * rate)

/-- Bytes spent from a credit. -/
def Credit.spend (c : Credit) (cap rate osc n : Nat) : Credit := { left := c.now cap rate osc - 10240 * n, since := osc }

/-- What a tile earns in 10 ns, in 1/10,240 of a byte: 3.84 bytes a beat (R637). -/
def State.tileRate (s : State) : Nat := 384 * s.fld F.GOV_BEAT_RATE

/-- A tile's observation credit, held up to 4 KiB (R637). -/
def State.tileCredit (s : State) (t : Nat) : Nat := (s.tile t).credit.now 4096 s.tileRate s.osc

/-- A tile's credit pays for bytes drained or mirrored; a mirror copy is always made (R613; DESIGN CHOICE, log 81). -/
def State.paid (s : State) (x : Tile) (n : Nat) : Tile := { x with credit := x.credit.spend 4096 s.tileRate s.osc n }

/-- Bytes of a list of records. -/
def recordBytes (rs : List (List Byte)) : Nat := (rs.map List.length).sum

/-- The latest 16 KiB of a tile's folio records, as the hub mirrors them (R613). -/
def latestRecords (fuel : Nat) (rs : List (List Byte)) : List (List Byte) :=
  match fuel with
  | 0 => rs
  | n + 1 => if recordBytes rs ≤ 16384 then rs else latestRecords n (rs.drop 1)

/-- A folio record (R629): header, payload, padding and CRC. -/
def folioRecord (s : State) (t type flags layer oper unit acc : Nat) (payload : List Byte) : List Byte :=
  let len := roundUp (36 + payload.length) 8
  let body := leBytes 1 type ++ leBytes 1 flags ++ leBytes 2 len ++ leBytes 2 t
    ++ leBytes 2 (s.fld (F.FOL_TSEQ_SEQ t)) ++ leBytes 2 layer ++ leBytes 2 oper ++ leBytes 2 unit
    ++ leBytes 2 s.devNum ++ leBytes 8 acc ++ leBytes 6 (s.tileTime t) ++ zeros 2 ++ payload
    ++ zeros (len - 36 - payload.length)
  body ++ leBytes 4 (crc32c body).toNat

/-- FOL_TOCC follows the records, in units of 8 bytes (R642; DEDUCED, log 31). -/
def State.foldOcc (s : State) (t : Nat) : State := s.setFld (F.FOL_TOCC_BYTES t) (recordBytes (s.tile t).folio / 8)

/-- A record offered to a tile's folio: it is written whole, or dropped with its SEQ number (R628, R638). -/
def State.folioPut (s : State) (t type flags layer oper unit acc : Nat) (payload : List Byte) : State :=
  let r := folioRecord s t type flags layer oper unit acc payload
  let x := s.tile t
  let s := s.setFld (F.FOL_TSEQ_SEQ t) (s.fld (F.FOL_TSEQ_SEQ t) + 1)
  if recordBytes x.folio + r.length ≤ 16384 then
    let x : Tile := if s.flag F.RST_DUMPSTAT_FROZEN then x
      else s.paid { x with mirrorFolio := latestRecords x.mirrorFolio.length (x.mirrorFolio ++ [r]) } r.length
    (s.putTileRec t { x with folio := x.folio ++ [r] }).foldOcc t
  else
    ((s.putTileRec t { x with dropRecs := x.dropRecs + 1, dropBytes := x.dropBytes + r.length }).bump
      (F.FOL_TDROP_COUNT t) 1).bump F.FOL_CNT_DROP_COUNT 1

/-- Once space frees, the drop record that covers what was lost (R638). -/
def State.dropRecord (s : State) (t : Nat) : State :=
  let x := s.tile t
  if x.dropRecs = 0 || 16384 < recordBytes x.folio + 48 then s
  else
    let s := s.putTileRec t { x with dropRecs := 0, dropBytes := 0 }
    s.folioPut t 0x21 0 0xFFFF 0xFFFF 15 s.devAcc (leBytes 4 x.dropRecs ++ leBytes 4 x.dropBytes)

/-- A Steward record of a tile, where FOL_TYPES lets Steward types through (R630, R631). -/
def State.stewardRecord (s : State) (t type layer : Nat) (payload : List Byte) : State :=
  if s.flag F.FOL_TYPES_STEWARD then s.folioPut t type 0 layer 0xFFFF 15 s.devAcc payload else s

/-- A sync record (R634). -/
def State.syncRecord (s : State) (t : Nat) : State :=
  s.folioPut t 0x20 0 0xFFFF 0xFFFF 15 s.devAcc (leBytes 8 s.osc)

/-! ### Counter pages -/

/-- Value of a counter of a page (R619). -/
def State.count (s : State) (t page i : Nat) : Nat := lookup (fun _ => 0) (s.tile t).counts (16 * page + i)

/-- The counters record of a page (R622, R623). -/
def State.countersRecord (s : State) (t page flags layer oper unit acc : Nat) : State :=
  if s.flag F.FOL_TYPES_COUNTERS then
    s.folioPut t 0x02 flags layer oper unit acc
      (leBytes 1 page ++ zeros 7 ++ (List.range 16).flatMap (fun i =>
        leBytes 6 (s.count t page i) ++ leBytes 1 (s.fld (F.CNT_SEL_EVENT t i)) ++ zeros 1))
  else s

/-- The page a new owner takes (R622); page A where no command has owned a page since reset. -/
def State.nextPage (s : State) (t : Nat) : Nat :=
  if s.fld (F.CNT_STAT_CUR t) = 0 then (if s.flag (F.CNT_STAT_AOWN t) then 1 else 0) else 0

/-- A page's fields: owned, running, and the owner's accession number. -/
def State.setPage (s : State) (t page : Nat) (own run : Bool) (acc : Nat) : State :=
  if page = 0 then
    ((s.setFlag (F.CNT_STAT_AOWN t) own).setFlag (F.CNT_STAT_ARUN t) run).setPair
      (F.CNT_AOWN_LO_ACC t) (F.CNT_AOWN_HI_ACC t) acc
  else
    ((s.setFlag (F.CNT_STAT_BOWN t) own).setFlag (F.CNT_STAT_BRUN t) run).setPair
      (F.CNT_BOWN_LO_ACC t) (F.CNT_BOWN_HI_ACC t) acc

/-- The page that a command holds while it runs: none once another command has taken the page (R622). -/
def State.pageOf (s : State) (t acc : Nat) : Option Nat :=
  if s.flag (F.CNT_STAT_ARUN t) && s.pair (F.CNT_AOWN_LO_ACC t) (F.CNT_AOWN_HI_ACC t) == acc then some 0
  else if s.flag (F.CNT_STAT_BRUN t) && s.pair (F.CNT_BOWN_LO_ACC t) (F.CNT_BOWN_HI_ACC t) == acc then some 1
  else none

/-- An owning command takes a page (R621, R622); an owner that still runs leaves its values in a PARTIAL record. -/
def State.takePage (s : State) (t unit acc layer oper : Nat) : State :=
  let p := s.nextPage t
  let (run, old, was) :=
    if p = 0 then (s.flag (F.CNT_STAT_ARUN t), s.pair (F.CNT_AOWN_LO_ACC t) (F.CNT_AOWN_HI_ACC t), (s.tile t).ownerA)
    else (s.flag (F.CNT_STAT_BRUN t), s.pair (F.CNT_BOWN_LO_ACC t) (F.CNT_BOWN_HI_ACC t), (s.tile t).ownerB)
  let s := if run then (s.countersRecord t p 1 was.1 was.2.1 was.2.2 old).bump (F.CNT_DISPLACED_COUNT t) 1 else s
  let x := s.tile t
  let me := (layer, oper, unit)
  let s := s.putTileRec t { x with counts := dropRange x.counts (16 * p) (16 * p + 16), counting := some p,
                                   ownerA := if p = 0 then me else x.ownerA, ownerB := if p = 0 then x.ownerB else me }
  ((s.setPage t p true true acc).setFld (F.CNT_STAT_CUR t) p).bump (F.CNT_SWAPS_COUNT t) 1

/-- A command starts on a tile's unit (R613, R621, R630): the mirror keeps it, and it takes a page if it owns one. -/
def State.beginCmd (s : State) (t unit acc layer oper : Nat) (bytes : List Byte) : State :=
  let x := s.tile t
  let seq := (List.range 56).map (fun i => Config.sequencerByte (s.free) i)
  let x : Tile := if s.flag F.RST_DUMPSTAT_FROZEN || unit == 14 then x
    else s.paid { x with mirror := store (fun _ => []) x.mirror unit (bytes ++ leBytes 2 unit ++ leBytes 6 (s.tileTime t) ++ seq) } 128
  let s := { s with free := s.free + 1 }
  let s := s.putTileRec t { x with start := s.tileTime t, counting := none }
  if (s.fld (F.CNT_CTRL_UNITMASK t)).testBit unit
      && (s.fld (F.CNT_FILT_LAYER t) == 0xFFFF || s.fld (F.CNT_FILT_LAYER t) == layer) then
    s.takePage t unit acc layer oper
  else s

/-- n events of a code, counted for the command that runs on the tile (R619, R620, R624). -/
def State.tally (s : State) (t code n : Nat) : State :=
  let x := s.tile t
  match x.counting with
  | none => s
  | some p =>
    if n = 0 then s
    else
      let cs := forEach (List.range 16) x.counts (fun m i =>
        if s.fld (F.CNT_SEL_EVENT t i) = code then
          store (fun _ => 0) m (16 * p + i) (satAdd 48 (lookup (fun _ => 0) m (16 * p + i)) n)
        else m)
      s.putTileRec t { x with counts := cs }

/-- The tile counts for a command that it takes up again, which started at a time (R563). -/
def State.takeUp (s : State) (t acc start : Nat) : State :=
  s.putTileRec t { s.tile t with counting := s.pageOf t acc, start }

/-- A command completes on a tile (R623, R630): its page keeps its values, and its records are written. The command
record holds STATUS, NFLAGS, CAUSE and SAT as the completion does. -/
def State.endCmd (s : State) (t unit acc layer oper status nflags cause sat : Nat) : State :=
  let x := s.tile t
  let s := match s.pageOf t acc with
    | some p =>
      let s := s.countersRecord t p 2 layer oper unit acc
      (s.setFlag (if p = 0 then F.CNT_STAT_ARUN t else F.CNT_STAT_BRUN t) false).putTileRec t { s.tile t with counting := none }
    | none => s
  if s.flag F.FOL_TYPES_COMMAND then
    s.folioPut t 0x01 0 layer oper unit acc
      (leBytes 2 status ++ leBytes 1 nflags ++ leBytes 1 cause ++ leBytes 4 sat ++ leBytes 6 x.start ++ zeros 2)
  else s

/-- A tile leaves reset: its count starts at zero and it writes a sync record (R627, R633, R634). -/
def State.tileStart (s : State) (t : Nat) : State :=
  let x := s.tile t
  (s.putTileRec t { x with oscBase := s.osc, counts := [], counting := none, start := 0 }).syncRecord t

end Sys2Proof.Machine
end

