-- ==== Sys2Proof/Machine/TestReq.lean ====
section
/-! DEFINITION. Injection (R573, R574) and test requests (R566 to R571).
-/

namespace Sys2Proof.Machine

/-- Does an injection point's target have a unit, a sub-unit (array or lane) and a column (R573)? The hub's points have none. -/
def injFields (point : Nat) : Bool × Bool × Bool :=
  (!([0x0B, 0x0D, 0x0F, 0x10, 0x16].contains point) && decide (point < 0x1F), [1, 2, 3, 4, 5, 6, 0x0E].contains point,
    [3, 4, 6].contains point)

/-- A qualifying event at an injection point: whether the armed injection fires now, and the state that has counted
the event. A field of INJ_TARGET that the point's target does not have (R573) is not compared. -/
def State.inject (s : State) (point unit sub col acc : Nat) : Bool × State :=
  let f := injFields point
  if s.flag F.INJ_CTRL_ARM && s.fld F.INJ_CTRL_POINT == point && (!f.1 || s.fld F.INJ_TARGET_UNIT == unit)
      && (!f.2.1 || s.fld F.INJ_TARGET_SUB == sub) && (!f.2.2 || s.fld F.INJ_TARGET_COL == col) then
    if s.injSeen = s.fld F.INJ_CTRL_COUNT then
      let s := (((s.setFlag F.INJ_CTRL_ARM false).event F.INJ_STAT_FIRED).setFld F.INJ_STAT_POINT point)
      let s := (s.setPair F.INJ_ACC_LO_ACC F.INJ_ACC_HI_ACC acc).bump F.INJ_CNT_COUNT 1
      (true, { s with injSeen := 0 })
    else (false, { s with injSeen := s.injSeen + 1 })
  else (false, s)

/-- n qualifying events at a point that has no sub-unit: the index of the one that the armed injection fires on. -/
def State.injectMany (s : State) (point unit acc n : Nat) : Option Nat × State :=
  if s.flag F.INJ_CTRL_ARM && s.fld F.INJ_CTRL_POINT == point && s.fld F.INJ_TARGET_UNIT == unit && n != 0 then
    let left := s.fld F.INJ_CTRL_COUNT - s.injSeen
    if left < n then
      let s : State := { s with injSeen := s.fld F.INJ_CTRL_COUNT }
      let (_, s) := s.inject point unit (s.fld F.INJ_TARGET_SUB) (s.fld F.INJ_TARGET_COL) acc
      (some left, s)
    else (none, { s with injSeen := s.injSeen + n })
  else (none, s)

/-- Full redundancy asked for n steps (R565): a tile that is under it takes the larger count; another's starts at the next
boundary. -/
def State.wantRed (s : State) (t n : Nat) : State :=
  if s.flag (F.TIL_REDSTAT_ON t) then s.setFld (F.TIL_REDSTAT_LEFT t) (max (s.fld (F.TIL_REDSTAT_LEFT t)) n)
  else s.putTileRec t { s.tile t with redWant := max (s.tile t).redWant n }

/-- A test starts on its tile, or waits there for the boundary that a STOP test needs (R569, R570). -/
def State.startTest (s : State) (t : Nat) (r : TestReq) : State :=
  let s := s.putTileRec t { s.tile t with test := some r, redFailed := false }
  let stopWait := r.mode == 2 && s.job.running
  let s := s.wr (R.TIL_TESTSTAT t) (pack [(28, if stopWait then 1 else 2), (24, r.kind), (20, r.mode),
    (10, r.array), (0, r.col)])
  if r.mode == 1 && (r.kind == 3 || r.kind == 5) then
    s.wantRed t (if r.steps = 0 then 16 else r.steps)
  else s

/-- A request joins the running test where its kind and subject match or a TILE test covers it (R571). -/
def TestReq.covers (r q : TestReq) : Bool :=
  (r.kind == q.kind && r.array == q.array && r.col == q.col && r.steps == q.steps) || r.kind == 5

/-- A test request (R566, R571): kind, mode (0 AUTO), array, column, steps, and the host command that asked. -/
def State.requestTest (s : State) (t kind mode array col steps : Nat) (host : Option Nat) : State :=
  let mode := if mode = 0 then (if s.job.running then 1 else 2) else mode
  let q : TestReq := { kind, mode, array, col, steps, hosts := host.toList }
  let x := s.tile t
  match x.test with
  | none => s.startTest t q
  | some r =>
    if r.covers q then s.putTileRec t { x with test := some { r with hosts := r.hosts ++ q.hosts } }
    else if x.waiting.length < 8 || host.isSome then s.putTileRec t { x with waiting := x.waiting ++ [q] }
    else s.bump (F.TIL_CNT_TESTDROP_COUNT t) 1

/-- Tiles whose test needs the boundary held, and those that run one in STOP mode. -/
def State.stopTests (s : State) : List Nat :=
  (s.tiles.filter (fun e => (e.2.test.map (·.mode)) == some 2)).map (·.1)

/-- The stop-mode hold ends, and its length is added (R570). -/
def State.closeTestHold (s : State) : State :=
  match s.job.testHold with
  | some t =>
    { s with job := { s.job with testHold := none } }.bumpPair F.HUB_TESTTIME_LO_TIME F.HUB_TESTTIME_HI_TIME (s.osc - t)
  | none => s

/-- The stop-mode hold ends once no test needs it any more. -/
def State.endTestHold (s : State) : State := if s.stopTests.isEmpty then s.closeTestHold else s

end Sys2Proof.Machine
end

