-- ==== Sys2Proof/Machine/Link.lean ====
section
/-! DEFINITION. How a fabric message leaves the device (13_fabric.md): its frame, its route, and its link frames in the
replay buffer of the port it takes.
-/

namespace Sys2Proof.Machine

/-- Port p. -/
def State.port (s : State) (p : Nat) : Port := lookup (fun _ => {}) s.fab.ports p
/-- A port replaced. -/
def State.putPort (s : State) (p : Nat) (x : Port) : State :=
  { s with fab := { s.fab with ports := store (fun _ => {}) s.fab.ports p x } }

/-- A port is up on three or four lanes (R440). -/
def State.portUp (s : State) (p : Nat) : Bool := s.fld (F.FAB_PSTAT_STATE p) == 2 || s.fld (F.FAB_PSTAT_STATE p) == 3

/-- A port's transmitters light: the package is powered, and the port is not disabled (R698). -/
def State.portLit (s : State) (p : Nat) : Bool := s.power.on && s.fld (F.FAB_PSTAT_STATE p) != 4

/-- A port that the tables may use (R440, R452, R453): one of the 32 (R417), up, and a table set was switched in since. -/
def State.portUsable (s : State) (p : Nat) : Bool := decide (p < 32) && s.portUp p && (s.port p).joined

/-- The routing header of a message (R430). -/
def Msg.header (m : Msg) : List Byte :=
  let h := leBytes 2 m.dest ++ leBytes 2 m.src ++ leBytes 1 m.cls ++ leBytes 1 m.hops ++ leBytes 2 m.stream
    ++ leBytes 6 m.count ++ zeros 2 ++ leBytes 4 m.flow ++ leBytes 4 m.payload.length ++ zeros 4
  h ++ leBytes 4 (crc32c h).toNat

/-- The bytes of a message: header, payload, payload CRC (R430). -/
def Msg.bytes (m : Msg) : List Byte := m.header ++ m.payload ++ leBytes 4 (crc32c m.payload).toNat

/-- A message read from its header and payload (R430). -/
def msgOf (h payload : List Byte) : Msg :=
  { dest := leAt h 0 2, src := leAt h 2 2, cls := leAt h 4 1, hops := leAt h 5 1, stream := leAt h 6 2,
    count := leAt h 8 6, flow := leAt h 16 4, payload }

/-- The ports of a routing table entry in slot order (R439, R440). -/
def entryPorts (w : W32) : List Nat :=
  (List.range 4).filterMap (fun k => if bit w (20 + k) then some (bits w (5 * k + 4) (5 * k)) else none)

/-- A message is link-local (R446): an announcement, of kind 0xC0, or a part of its numbering table, of kind 0xC3 (DESIGN CHOICE,
log 23). -/
def Msg.linkLocal (m : Msg) : Bool := m.cls == 0 && (leAt m.payload 0 1 == 0xC0 || leAt m.payload 0 1 == 0xC3)

/-- The group of a device number, and its member. -/
def groupOfDev (d : Nat) : Nat := d / 256 % 256
/-- The member of a device number. -/
def memberOfDev (d : Nat) : Nat := d % 256

/-- The destination lies in this device's own group: the message travels in member phase (R439, R442). -/
def State.memberPhase (s : State) (m : Msg) : Bool := groupOfDev m.dest == groupOfDev s.devNum

/-- The ports that a message may take: the charter's PORTS entry for a message that this device originates (R443),
else the tables (R439). -/
def State.routePorts (s : State) (m : Msg) (own : Bool) : List Nat :=
  let tbl := entryPorts (if s.memberPhase m then s.rd (R.FAB_MEMTBL (memberOfDev m.dest)) else s.rd (R.FAB_GRPTBL (groupOfDev m.dest)))
  match (if own then (s.charter.getD {}).ports.find? (fun e => e.device == s.devNum && e.dest == m.dest) else none) with
  | some e => e.ports
  | none => tbl

/-- h of R440. -/
def routeHash (m : Msg) : Nat :=
  (crc32c (leBytes 2 m.src ++ leBytes 2 m.dest ++ leBytes 1 m.cls ++ zeros 1 ++ leBytes 2 m.stream)).toNat

/-- The port that a message leaves on (R440); none where no port of its entry is usable. -/
def State.route (s : State) (m : Msg) (own : Bool) : Option Nat :=
  let ps := (s.routePorts m own).filter s.portUsable
  if ps.isEmpty then none else ps[routeHash m % ps.length]?

/-- The link frames of a message before they take a sequence number (R423). -/
def framesOf (m : Msg) (member : Bool) : List Frame :=
  let cs := chunks 1024 m.bytes
  cs.mapIdx (fun i d =>
    { seq := 0, vc := m.cls + 8 * b2n member, flags := b2n (decide (i = 0)) + 2 * b2n (decide (i + 1 = cs.length)), data := d })

/-- The bytes of a link frame (R423); one without data has LEN 0. -/
def frameBytes (seq ack vc flags : Nat) (data : List Byte) : List Byte :=
  let b := leBytes 2 seq ++ leBytes 2 ack ++ leBytes 1 vc ++ leBytes 1 flags ++ leBytes 2 (data.length - 1) ++ data
  b ++ leBytes 4 (crc32c b).toNat

/-- Bytes that an injection corrupted on the wire (R573 point 0x0C). DESIGN CHOICE: the last byte is inverted (log 23). -/
def spoil (b : List Byte) : List Byte := b.mapIdx (fun i x => if i + 1 = b.length then ~~~x else x)

/-- A link frame leaves on a port, with the last SEQ that the port has received in order (R423). -/
def State.transmit (s : State) (p seq vc flags : Nat) (data : List Byte) (bad : Bool := false) : State :=
  let b := frameBytes seq (((s.port p).rxSeq + 65535) % 65536) vc flags data
  { s with fab := { s.fab with wire := s.fab.wire ++ [(p, if bad then spoil b else b)] } }

/-- The port weights of the classes (R431); control has none. -/
def classWeight (c : Nat) : Nat := if c = 1 || c = 3 then 4 else if c = 2 then 2 else 1

/-- The oldest waiting frame of a class. -/
def Port.ofClass (x : Port) (c : Nat) : Option Frame := x.queue.find? (fun f => f.vc % 8 == c)

/-- The frame that takes the next SEQ, with the port's turn after it (R432): control frames ahead of all others, and the
other classes in byte-weighted round robin, weight × 1,024 bytes a turn (DESIGN CHOICE, log 23); a class with nothing to
send leaves its turn to the next. -/
def Port.pick (x : Port) : Option (Frame × Port) :=
  match x.ofClass 0 with
  | some f => some (f, x)
  | none =>
    match (if x.allow = 0 then none else x.ofClass x.turn) with
    | some f => some (f, { x with allow := x.allow - f.data.length })
    | none =>
      ([1, 2, 3, 4].map (fun k => 1 + (x.turn - 1 + k) % 4)).findSome? (fun c =>
        (x.ofClass c).map (fun f => (f, { x with turn := c, allow := 1024 * classWeight c - f.data.length })))

/-- Frames that wait enter the replay buffer while it holds fewer than 256 (R424), with fuel; an injection at point 0x0C
corrupts the frame on the wire (R573). -/
def State.fillReplay (fuel : Nat) (s : State) (p : Nat) : State :=
  match fuel with
  | 0 => s
  | n + 1 =>
    match (s.port p).pick with
    | none => s
    | some (f, x) =>
      if x.buf.length < 256 then
        let x' : Port := { x with buf := x.buf ++ [{ f with seq := x.txSeq, sends := 1 }], queue := x.queue.erase f,
                                  txSeq := (x.txSeq + 1) % 65536 }
        let (bad, s) := (s.putPort p x').inject 0x0C p 0 0 0
        State.fillReplay n (s.transmit p x.txSeq f.vc f.flags f.data bad) p
      else s

/-- A message put on a port (R423, R424). -/
def State.onPort (s : State) (p : Nat) (m : Msg) : State :=
  let x := s.port p
  let fs := framesOf m (s.memberPhase m)
  let s := s.putPort p { x with queue := x.queue ++ fs, msgs := x.msgs ++ [m] }
  let s := s.bumpPair (F.FAB_PCNT_TX_LO_COUNT p) (F.FAB_PCNT_TX_HI_COUNT p) m.bytes.length
  s.fillReplay ((s.port p).queue.length + 1) p

/-- A message reaches this device's units, in its flow's order; between ROLLBACK and RESUME classes 0x1 to 0x3 are
discarded (R592). -/
def State.deliver (s : State) (m : Msg) : State :=
  if s.job.rolling.isSome && decide (1 ≤ m.cls) && decide (m.cls ≤ 3) then s
  else { s with fab := { s.fab with delivered := s.fab.delivered ++ [m] } }

/-- A message that this device originates or forwards leaves it, waits for a usable port (R444), or is for this device's
own units (R439), which receive the messages of a flow in the order they were sent (R437). -/
def State.emit (s : State) (m : Msg) (own : Bool) : State :=
  if m.dest = s.devNum then
    ({ s with fab := { s.fab with rx := store (fun _ => 0) s.fab.rx (8 * m.src + m.cls) ((m.flow + 1) % 2 ^ 32) } } : State).deliver m
  else
    match s.route m own with
    | some p => s.onPort p m
    | none => { s with fab := { s.fab with wait := s.fab.wait ++ [m] } }

end Sys2Proof.Machine
end

