-- ==== Sys2Proof/Machine/Faults.lean ====
section
/-! DEFINITION. What many units share: the loaded charter's records, control messages (R375), fault records (R579),
ledger requests (R663) and arrays out of service (R583).
-/

namespace Sys2Proof.Machine

/-! ### The loaded charter -/

/-- This device's entry in DEVICES. -/
def State.myDev (s : State) : Option DevRec :=
  s.charter.bind (fun c => c.devices.find? (fun d => d.device == s.devNum))
/-- This device's stage (R387). -/
def State.stage (s : State) : Nat := (s.myDev.getD {}).stage
/-- This device's rank. -/
def State.rank (s : State) : Nat := (s.myDev.getD {}).rank
/-- The charter that is loaded, or an empty one. -/
def State.chart (s : State) : Charter := s.charter.getD {}

/-- This stage's region of a kind and unit (R396). -/
def State.region (s : State) (kind unit : Nat) : Option Region :=
  s.chart.regions.find? (fun r => r.kind == kind && r.stage == s.stage && r.unit == unit)
/-- A region's first byte in device memory. -/
def Region.addr (r : Region) : Nat := stackBytes * r.stack + r.base

/-- The placement of an array of this stage (R399). -/
def State.placement (s : State) (t a : Nat) : Option Placement :=
  s.chart.arrays.find? (fun p => p.stage == s.stage && p.tile == t && p.array == a)

/-- A charter tensor by identifier. -/
def State.tensor (s : State) (id : Nat) : Option Tensor := s.chart.tensors.find? (fun x => x.id == id)

/-- Devices of this stage, by rank. -/
def State.stageDevs (s : State) : List DevRec := s.chart.devices.filter (fun d => d.stage == s.stage)

/-- The device of a stage and rank. -/
def Charter.deviceAt (c : Charter) (stage rank : Nat) : Nat :=
  ((c.devices.find? (fun d => d.stage == stage && d.rank == rank)).getD {}).device

/-- The step root: the device that holds shard 0 (R374). -/
def Charter.stepRoot (c : Charter) : Nat := (c.shards.getD 0 {}).device

/-- The loaded charter selects digital forward mode (R256). -/
def State.dfwd (s : State) : Bool := s.chart.dfwd

/-- Arrays may program, verify, measure and calibrate their idle banks: no job runs, or its phase is backward (R178,
R181). -/
def State.arrayTime (s : State) : Bool := !s.job.running || s.job.phase == .backward

/-! ### Messages -/

/-- The control frame of R375. -/
def ctrlFrame (kind step : Nat) (fields : List Byte) : List Byte :=
  let body := leBytes 1 kind ++ zeros 7 ++ leBytes 8 step ++ fields
  body ++ leBytes 4 (crc32c body).toNat

/-- A message handed to the fabric (R430, R436, R437): it takes the next accession count and flow sequence and leaves
on its route. An unnumbered device originates none (R448). -/
def State.sendOn (s : State) (dest cls stream : Nat) (payload : List Byte) : State :=
  if s.flag F.FAB_DEVNUM_VALID then
    let k := 8 * dest + cls
    let f := lookup (fun _ => 0) s.fab.tx k
    let m : Msg := { dest, src := s.devNum, cls, stream, count := s.fab.count, flow := f, payload }
    let s : State := { s with sent := s.sent ++ [m], fab := { s.fab with count := (s.fab.count + 1) % 2 ^ 48, tx := store (fun _ => 0) s.fab.tx k ((f + 1) % 2 ^ 32) } }
    s.emit m true
  else s

/-- A control message of R375 (class 0x0). -/
def State.sendCtrl (s : State) (dest kind step : Nat) (fields : List Byte) : State :=
  s.sendOn dest 0 0 (ctrlFrame kind step fields)

/-- A control message to the step root. -/
def State.toRoot (s : State) (kind step : Nat) (fields : List Byte) : State :=
  s.sendCtrl s.chart.stepRoot kind step fields

/-- A control message to every device of the job, in ascending device number, the source skipped (R434). -/
def State.toAll (s : State) (kind step : Nat) (fields : List Byte) : State :=
  let ds := ((s.chart.devices.map (·.device)).filter (· != s.devNum)).mergeSort (· ≤ ·)
  forEach ds s (fun s d => s.sendCtrl d kind step fields)

/-! ### Faults -/

/-- The record of a fault (R579, R617). -/
def State.recordFault (s : State) (cls ukind unit acc : Nat) : State :=
  ((s.wr R.RST_FLTCLS (pack [(24, cls), (20, ukind), (0, unit)])).setPair F.RST_FLTACC_LO_ACC F.RST_FLTACC_HI_ACC
    acc).setPair F.RST_FLTSTEP_LO_STEP F.RST_FLTSTEP_HI_STEP s.step

/-- A FAULT sent to the step root (R589, R590). -/
def State.sendFault (s : State) (cls : Nat) (halt : Bool) : State :=
  (s.toRoot 0x09 s.step (leBytes 1 cls ++ leBytes 1 (b2n halt) ++ leBytes 2 s.devNum ++ zeros 4))

/-- A fault whose handling needs the step root (R579, R589): the record, no further items, and a FAULT while a job
runs, which the ensign sends: without one it waits for the Steward that returns (R43, R610). -/
def State.raiseFault (s : State) (cls ukind unit acc : Nat) (halt : Bool) : State :=
  let s := s.recordFault cls ukind unit acc
  if s.job.running then
    let s := { s with job := { s.job with stopItems := true, fault := some (cls, halt), faultSends := 1 } }
    if s.ens.up = 0 then s else s.sendFault cls halt
  else s

/-- A tile fault (R562, R564, R579): rollback, and the tile runs under full redundancy for 64 steps. -/
def State.tileFault (s : State) (t acc : Nat) : State :=
  let s := s.wantRed t 64
  s.raiseFault 0x11 0x1 t acc false

/-- A context stops being a suspect and takes a state (R604, R606), unless host commands of it still await their replay. -/
def State.cleared (s : State) (c state : Nat) : State :=
  if s.hang.hosts.contains c then s
  else
    let s := s.setFld (F.CTX_STAT_STATE c) state
    s.wr R.RST_STAT (putBits (s.rd R.RST_STAT) c c 0)

/-! ### Drained flows (R592) -/

/-- FLUSHCNTs whose three flows are drained here (R592, R437): no NEXT value is ahead of what is expected. -/
def State.drained (s : State) : Nat :=
  (s.job.flush.filter (fun q => [1, 2, 3].all (fun c =>
    decide ((lookup (fun _ => 0) s.fab.rx (8 * q.1 + c) + 2 ^ 32 - q.2.getD (c - 1) 0) % 2 ^ 32 ≤ 2 ^ 31)))).length

/-- The number of the step before a step, as a message carries it: modulo 2^64. -/
def stepBefore (next : Nat) : Nat := (next + 2 ^ 64 - 1) % 2 ^ 64

/-- An RBACK sent to the step root (R590, R592). -/
def State.sendRback (s : State) : State :=
  let d := s.drained
  let s := s.toRoot 0x0C (stepBefore (s.job.rolling.getD 0)) (leBytes 2 s.devNum ++ leBytes 1 (b2n s.job.localDone) ++ zeros 1
    ++ leBytes 4 s.job.flushSent ++ leBytes 4 d)
  { s with job := { s.job with rbackSent := some (s.job.localDone, d) } }

/-- RBACK is sent again whenever LOCAL or DRAINED changes (R592). -/
def State.rbackCheck (s : State) : State :=
  if s.job.rolling.isSome && s.job.rbackSent.isSome && s.job.rbackSent != some (s.job.localDone, s.drained) then s.sendRback
  else s

/-! ### Ledger requests -/

/-- A request from a Steward or the Warden; it waits where the queue is full (R663). -/
def State.ledgerPut (s : State) (src type key : Nat) (value : List Byte) : State :=
  let q : LdgReq := { src, type, key, value }
  let l := s.ledger
  if l.readOnly then s
  else if l.queue.length < 256 then { s with ledger := { l with queue := l.queue ++ [q] } }
  else { s with ledger := { l with waiting := l.waiting ++ [q] } }

/-! ### Arrays out of service -/

/-- Columns that a tile's DPA covers (R252). -/
def State.covered (s : State) (t : Nat) : Nat := ((List.range 8).map (fun a => (s.arr t a).cover.length)).sum

/-- OPE_COVSTAT follows the covers of a tile. -/
def State.coverStat (s : State) (t : Nat) : State :=
  let mask := ((List.range 8).map (fun a => if s.dfwd || (s.arr t a).cover.length = 512 then 2 ^ a else 0)).sum
  let s := (s.setFld (F.OPE_COVSTAT_ARRMASK t) mask).setFld (F.OPE_COVSTAT_COLS t) (s.covered t)
  forEach (List.range 8) s (fun s a => s.setFlag (F.ARR_STAT_COVER t a) (!(s.arr t a).cover.isEmpty))

/-- A cover started for columns of an array, or refused where the tile would exceed 512 columns (R252, R253,
R585). -/
def State.startCover (s : State) (t a : Nat) (cols : List Nat) : State :=
  let x := s.arr t a
  if s.dfwd || s.covered t - x.cover.length + cols.length ≤ 512 then
    (s.putArr t a { x with cover := cols, coverRun := 0 }).coverStat t
  else (s.event (F.OPE_EVT_COVOVF t)).raiseFault 0x18 0x1 t 0 true

/-- The budget record of R226 and R630. -/
def State.budgetRecord (s : State) (t a : Nat) : State :=
  let layer := ((s.placement t a).map (·.layer)).getD 0xFFFF
  s.stewardRecord t 0x10 layer
    (leBytes 1 a ++ leBytes 1 (s.fld (F.ARR_STAT_ACTIVE t a)) ++ leBytes 1 (bits (s.rd (R.ARR_BSTAT t a)) 6 0) ++ zeros 1
      ++ leBytes 2 (s.fld (F.ARR_RESSTAT_CAPT t a)) ++ leBytes 2 (s.fld (F.ARR_RESRMS_TOT t a))
      ++ leBytes 2 (s.fld (F.ARR_RESRMS_UNC t a)) ++ leBytes 2 (s.fld (F.ARR_RESCOLN_COUNT t a)))

/-- The charter's budget action of an array (R226). -/
def State.budgetAction (s : State) (t a : Nat) : Nat := ((s.placement t a).map (·.action)).getD 0

/-- INBUD falls from 1 to 0 (R226): its event, counter and record, and the test that the action TEST asks for. -/
def State.leaveBudget (s : State) (t a : Nat) : State :=
  let s := (((s.setFlag (F.ARR_BSTAT_INBUD t a) false).event (F.ARR_BEVT_LEAVE t a)).bump (F.ARR_CNT_BOUT_COUNT t a) 1).budgetRecord t a
  if s.budgetAction t a = 1 then s.requestTest t 2 0 a 0 0 none else s

/-- An array taken out of service (R583): INSVC falls and INBUD with it (R226), a fault of class 0x03 is recorded, the DPA
covers every column, and a test of it ends inconclusive (R572). -/
def State.arrayOut (s : State) (t a : Nat) : State :=
  let s := (s.setFlag (F.ARR_STAT_INSVC t a) false).bump F.RST_CNT_ARRFAIL_COUNT 1
  let s := if s.flag (F.ARR_BSTAT_INBUD t a) then s.leaveBudget t a else s
  let x := s.arr t a
  let s := s.recordFault 0x03 0x2 (8 * t + a) 0
  let s := s.putArr t a { x with out := true, passed := false }
  let s := match (s.tile t).test with
    | some r => if r.kind != 3 && r.kind != 5 && r.array == a then s.setFld (F.TIL_TESTSTAT_VERDICT t) 5 else s
    | none => s
  s.startCover t a (List.range 512)

end Sys2Proof.Machine
end

