-- ==== Sys2Proof/Machine/Array.lean ====
section
/-! DEFINITION. The analogue arrays (04_analogue_arrays.md) and the application of the residual correction (R213):
drive values, one slice, output values, and the commands ARRAY_MVM, CONVERTER_POWER_DOWN and RESIDUAL_CORRECTION.
-/

namespace Sys2Proof.Machine

/-- A rational rounded to the nearest integer, ties to even. -/
def rneRat (v : ℚ) : Int :=
  let f := v.floor
  let r := v - f
  if r < 1 / 2 then f else if 1 / 2 < r then f + 1 else if f % 2 = 0 then f else f + 1

/-- The active bank of an array (ARR_STAT.ACTIVE). -/
def State.active (s : State) (t a : Nat) : Nat := s.fld (F.ARR_STAT_ACTIVE t a)

/-- The gain code of a physical column of a bank (R136). -/
def State.gainCode (s : State) (t a b col : Nat) : Nat :=
  let w := s.rd (if b = 0 then R.ARR_GAIN0 t a (col / 16) else R.ARR_GAIN1 t a (col / 16))
  bits w (2 * (col % 16) + 1) (2 * (col % 16))

/-- The LSB of a gain code in units of P (R135). -/
def lsbOf (g : Nat) : Nat := 128 / 2 ^ g

/-- A bank's remap entry (R200). -/
def State.remapEntry (s : State) (t a b n : Nat) : W32 :=
  s.rd (if b = 0 then R.ARR_REMAP0 t a n else R.ARR_REMAP1 t a n)
/-- A remap entry written. -/
def State.putRemap (s : State) (t a b n : Nat) (w : W32) : State :=
  s.wr (if b = 0 then R.ARR_REMAP0 t a n else R.ARR_REMAP1 t a n) w

/-- The spare entry that serves a logical column: VALID and LIVE, not DEAD (R196, R197). -/
def State.liveSpare (s : State) (t a b j : Nat) : Option Nat :=
  (List.range 16).find? (fun n =>
    let w := s.remapEntry t a b n
    bit w 31 && bit w 30 && !bit w 29 && bits w 8 0 == j)

/-- The physical column of a logical column (R139). -/
def State.physCol (s : State) (t a b j : Nat) : Nat :=
  match s.liveSpare t a b j with
  | some n => 512 + n
  | none => j

/-- A logical column that awaits remap: an entry VALID, not LIVE and not DEAD (R196). -/
def State.awaiting (s : State) (t a b j : Nat) : Bool :=
  (List.range 16).any (fun n =>
    let w := s.remapEntry t a b n
    bit w 31 && !bit w 30 && !bit w 29 && bits w 8 0 == j)

/-- The level that a cell of a bank holds before it is pulsed or cleared (R122): the content of the reference rows and of
the reference columns (R124, R125), and elsewhere what nothing states. -/
def cellReset (t a b k : Nat) : ℚ :=
  let row := k / 2 / 531
  let col := k / 2 % 531
  if 512 ≤ row || 529 ≤ col then
    (if 512 ≤ row && k % 2 == 0 then (if col = 529 then 31 else if col = 530 then 16 else 0) else 0)
  else Config.cellLevel (((8 * t + a) * 2 + b) * 547992 + k)
/-- The signed level of a pair: G+ less G− (R123). -/
def Bank.pairLevel (x : Bank) (t a b row col : Nat) : ℚ :=
  let k := 531 * row + col
  lookup (cellReset t a b) x.cells (2 * k) - lookup (cellReset t a b) x.cells (2 * k + 1)

/-- P of a physical column: the drive of the input rows and +15 on the reference rows, on its 516 pairs (R124, R128). -/
def Bank.charge (x : Bank) (t a b : Nat) (d : List Int) (col : Nat) : ℚ :=
  ((List.range 516).map (fun i => ((if i < 512 then d.getD i 0 else 15 : Int) : ℚ) * x.pairLevel t a b i col)).sum

/-- Trim codes of a physical column in effect (R547). -/
def Arr.trim (x : Arr) (col : Nat) : Int × Int :=
  if 529 ≤ col then (0, 0)
  else (signed 6 (lookup (fun _ => 0) x.ofs col), signed 6 (lookup (fun _ => 0) x.gain col))

/-- The converter's code and whether the overrange comparator trips (R137, R138), for a value before rounding. -/
def convCode (v : ℚ) : Int × Bool := (max (-127) (min 127 (rneRat v)), decide (255 / 2 ≤ |v|))

/-- The value that a column's converter rounds: γ, the trims of R547 and the analogue errors of R217 in draw n. -/
def Arr.sample (x : Arr) (gamma : ℚ) (n : Nat) (p : ℚ) (lsb col : Nat) : ℚ :=
  let (o, g) := x.trim col
  gamma * (p - 2 * o) * (1 + g / 1024) / lsb + Config.codeError n col

/-- A column's reading in draw n (R137, R138). -/
def Arr.reading (x : Arr) (n : Nat) (p : ℚ) (lsb col : Nat) : Int × Bool := convCode (x.sample (Config.gamma n) n p lsb col)

/-- The QAVG update of R147. -/
def qavgNext (qavg : Nat) (code : Int) : Nat := (max 0 ((qavg : Int) + (code * 4096 - qavg) / 64)).toNat

/-- Powered-down converters start up for the next conversion (R143). The start-up counter advances for an MVM, a
measurement's among them. DESIGN CHOICE: it does not for a verify read or a calibration window (log 67). -/
def State.convertersOn (s : State) (t a : Nat) (mvm : Bool) : State :=
  if s.flag (F.ARR_STAT_CONV_ON t a) then s
  else
    let s := s.setFlag (F.ARR_STAT_CONV_ON t a) true
    if mvm then (s.bump (F.ARR_CNT_START_COUNT t a) 1).tally t 0x15 1 else s

/-- A reference fault (R149, R551, R566). -/
def State.refFault (s : State) (t a : Nat) : State :=
  let s := ((s.event (F.ARR_EVT_REF_FAULT t a)).bump (F.ARR_CNT_REF_COUNT t a) 1).tally t 0x16 1
  let x := s.arr t a
  let s := s.putArr t a { x with refFault := true }
  match x.calStep with
  | some c => if s.step ≤ c + 16 then s.requestTest t 2 0 a 0 0 none else s
  | none => s

/-- The reference check after an MVM that updated QAVG (R149). -/
def State.refCheck (s : State) (t a acc : Nat) (ref0 ref1 : Int) : State :=
  let qcal := s.fld (F.ARR_QCAL_QCAL t a)
  let qavg := s.fld (F.ARR_QAVG_QAVG t a)
  let (hit, s) := s.inject 0x02 t a 0 acc
  if qcal != 0 && s.flag (F.ARR_CTRL_REFCHK t a) then
    let tol : ℚ := s.fld (F.ARR_REFTOL_TOL t a) / 1000
    let far := decide (tol < |(qavg : ℚ) / qcal - 1|)
    let odd := decide (2 < |(ref1 : ℚ) - rneRat ((ref0 : ℚ) * 960 / 1860)|)
    if far || odd || qavg == 0 || hit then s.refFault t a else s
  else if hit then s.refFault t a else s

/-- A checksum mismatch (R156, R566). -/
def State.chkMismatch (s : State) (t a acc index : Nat) : State :=
  let s := if s.flag (F.ARR_EVT_CHK_MISMATCH t a) then s
    else (s.setPair (F.ARR_CHKACC_LO_ACC_LO t a) (F.ARR_CHKACC_HI_ACC_HI t a) acc).setFld
      (F.ARR_CHKVEC_VEC t a) index
  let s := ((s.event (F.ARR_EVT_CHK_MISMATCH t a)).bump (F.ARR_CNT_CHK_COUNT t a) 1).tally t 0x13 1
  match (s.arr t a).testStep with
  | some c => if s.step ≤ c + 64 then s else s.requestTest t 2 0 a 0 0 none
  | none => s.requestTest t 2 0 a 0 0 none

/-- The checksum comparison of a slice (R154, R155). -/
def State.chkCompare (s : State) (t a b acc index : Nat) (d codes : List Int) (lsbs : List Nat) (chk : Int)
    (tripped : Bool) : State :=
  let off := if b = 0 then s.flag (F.ARR_PRGSTAT_CHKOFF0 t a) else s.flag (F.ARR_PRGSTAT_CHKOFF1 t a)
  if tripped || !s.flag (F.ARR_CTRL_CHKEN t a) || !(s.arr t a).cover.isEmpty || off then
    (s.bump (F.ARR_CNT_CHKSUP_COUNT t a) 1).tally t 0x14 1
  else
    let (hit, s) := s.inject 0x01 t a 0 acc
    let x := (s.arr t a).bank b
    let lc := lsbOf (s.gainCode t a b 528)
    let esum : Int := (List.zipWith (fun c l => c * (l : Int)) codes lsbs).sum
    let rest : Int := ((List.range 512).map (fun i => d.getD i 0 * lookup (fun _ => 0) x.rem i)).sum
    let msum : ℚ := 32 * chk * lc + (rest : ℚ) / 16
    if hit || decide ((s.fld (F.ARR_CHKTOL_TOL t a) * lc : ℚ) < |(esum : ℚ) - msum|) then s.chkMismatch t a acc index
    else s

/-- The logical columns that clipped, for the gain rule of R310. -/
def State.noteClips (s : State) (t a : Nat) (tripped : List Bool) : State :=
  let x := s.arr t a
  let new := (List.range 512).filter (fun j => tripped.getD j false && !x.clipped.contains j)
  if new.isEmpty then s else s.putArr t a { x with clipped := x.clipped ++ new }

/-- A value that a converter is to round, kept inside the limits that a bound leaves its code, where it has any (R121). -/
def limited (lim : Option (Int × Int)) (v : ℚ) : ℚ :=
  match lim with
  | some (lo, hi) => if lo ≤ hi then max lo (min hi v) else v
  | none => v

/-- One slice on a bank (R134, R137 to R141, R147, R149, R150, R154): its logical codes with their
comparators. A slice of zeros is skipped. lim gives the limits of a column's code, where the bound of R121 sets any. -/
def State.slice (s : State) (t a acc index : Nat) (d : List Int) (lim : Nat → Option (Int × Int)) :
    List (Int × Bool) × State :=
  if d.all (· = 0) then
    (List.replicate 512 (0, false), (s.bump (F.ARR_CNT_ZSKIP_COUNT t a) 1).tally t 0x11 1)
  else
    let b := s.active t a
    let s := s.convertersOn t a true
    let s := (s.bumpPair (F.ARR_CNT_MVM_LO_COUNT t a) (F.ARR_CNT_MVM_HI_COUNT t a) 1).tally t 0x10 1
    let (n, s) := s.draw
    let x := s.arr t a
    let k := x.bank b
    let value (col lsb : Nat) : ℚ := x.sample (Config.gamma n) n (k.charge t a b d col) lsb col
    let read (col lsb : Nat) : Int × Bool := convCode (value col lsb)
    let cols := (List.range 512).map (fun j => s.physCol t a b j)
    let lsbs := cols.map (fun c => lsbOf (s.gainCode t a b c))
    let rs := (List.zipWith value cols lsbs).mapIdx (fun j v => convCode (limited (lim j) v))
    let (hit, s) := s.inject 0x03 t a (s.fld F.INJ_TARGET_COL) acc
    let rs := if hit then rs.mapIdx (fun j r => if j = s.fld F.INJ_TARGET_COL then (if r.1 < 0 then -127 else 127, true) else r)
      else rs
    let codes := rs.map (·.1)
    let clips := (rs.filter (·.2)).length
    let s := if clips = 0 then s
      else ((s.event (F.ARR_EVT_CLIP t a)).bump (F.ARR_CNT_CLIP_COUNT t a) clips).tally t 0x12 clips
    let s := s.noteClips t a (rs.map (·.2))
    let ref0 := (read 529 16).1
    let ref1 := (read 530 16).1
    let chk := read 528 (lsbOf (s.gainCode t a b 528))
    let s := s.setFld (F.ARR_QAVG_QAVG t a) (qavgNext (s.fld (F.ARR_QAVG_QAVG t a)) ref0)
    let s := s.refCheck t a acc ref0 ref1
    (rs, s.chkCompare t a b acc index d codes lsbs chk.1 (clips != 0 || chk.2))

/-- column_value of R148 from n, in FP32 under the command's policy. -/
def columnValue (p : Policy) (n : Int) (lsb qcal qavg : Nat) (e : Int) (ws : W32) : Cnt FVal := do
  let rho ← if qavg = 0 then pure (FVal.ofInt 1) else fdiv p (FVal.ofInt qcal) (FVal.ofInt qavg)
  let v ← fmul p (FVal.ofInt (n * lsb)) rho
  toFP32 p (mulExact (v.scale e) (ofFP32 ws))

/-- The edge conversion of R131: none for a vector that is not driven; otherwise mantissas, exponent and whether a
NaN was absorbed, with infinities counted (R105). -/
def edgeConvert (p : Policy) (d : W16) (xs : List FVal) : Cnt (Option (List Int × Int × Bool)) := do
  if p = .propagate && xs.any (fun v => !v.isFinite) then pure none
  else
    let ys ← xs.mapM (readOperand p d)
    let absorbed := ys.any (fun v => v = .nan)
    let ys := ys.map (fun v => match v with | .nan => FVal.zero | v => v)
    match blockMax ys with
    | .num _ m e =>
      if m = 0 then pure (some (ys.map (fun _ => 0), 0, absorbed))
      else
        let ex := floorLog2 m 1 + e - 6
        pure (some (ys.map (fun v => max (-127) (min 127 (v.scale (-ex)).rne)), ex, absorbed))
    | _ => pure (some (ys.map (fun _ => 0), 0, absorbed))

/-- The high and low drive values of an 8-bit code (R129). -/
def highDrive (m : Int) : Int := m / 16
/-- The low slice's drive value. -/
def lowDrive (m : Int) : Int := m % 16

/-- A bank's WS (R127). -/
def State.wsOf (s : State) (t a b : Nat) : W32 := s.rd (if b = 0 then R.ARR_WS0 t a else R.ARR_WS1 t a)

/-! ### Digital copies and targets (05_weight_programming.md) -/

/-- Where bank b's digital copy of an array starts in its region (R160): 524,288 bytes for each array in ascending
order. DESIGN CHOICE: the spec gives the region and no layout (log 9). -/
def State.copyAddr (s : State) (b t a : Nat) : Option Nat :=
  (s.region (4 + b) 0xFFFF).map (fun r => r.addr + 524288 * (8 * t + a))

/-- A weight of a digital copy, in BF16 (R160, R400): column-major, +0 outside the placement's rows and columns. -/
def State.copyWeight (s : State) (b t a i j : Nat) : FVal :=
  match s.placement t a, s.copyAddr b t a with
  | some p, some base =>
    if i < p.rows && j < p.cols then decodeFloat fmtBF16 (leNat (s.memBytes (base + 2 * (512 * j + i)) 2))
    else FVal.zero
  | _, _ => FVal.zero

/-- The target level of a weight (R161), and whether it was clamped. -/
def targetOf (w ws : FVal) : Int × Bool :=
  match w, ws with
  | .num sw mw ew, .num ss ms es =>
    if ms = 0 then (0, false)
    else
      let q : Int := (rneScaled mw ms (ew - es) : Nat)
      let q := if sw != ss then -q else q
      if q < -31 then (-31, true) else if 31 < q then (31, true) else (q, false)
  | .inf neg, _ => (if neg then -31 else 31, true)
  | _, _ => (0, true)

/-- Every target of the logical columns of an array's bank: t(i, j) with its clamp flag. -/
def State.logicalTarget (s : State) (b t a i j : Nat) : Int × Bool :=
  targetOf (s.copyWeight b t a i j) (ofFP32 (s.wsOf t a b))

/-- A finite value as a rational. -/
def FVal.rat : FVal → ℚ
  | .num s m e =>
    let v : ℚ := if 0 ≤ e then m * 2 ^ e.toNat else m / 2 ^ (-e).toNat
    if s then -v else v
  | _ => 0

/-- bf16 elements of a factor matrix. -/
def bfAt (m : Sparse W16) (k : Nat) : FVal := decodeFloat fmtBF16 (lookup (fun _ => 0) m k).toNat

/-- The elements of a BF16 factor as a product reads them (R87, R105, R209). -/
def readFactor (p : Policy) (xs : List FVal) : Cnt (List FVal) := xs.mapM (readOperand p 1)

/-- A low-rank term in R213's order: z is the first factor on x, times 2^e; then the second factor on the block-floating
form of z, times its exponent. first gives the first factor's columns, second the second factor's rows. A saturation of z
counts once and marks no output element (DEDUCED, log 68). -/
def lowRank (p : Policy) (rank outs : Nat) (first second : Nat → List FVal) (x : List FVal) (e : Int) : Cnt (List Elem) := do
  let z ← (List.range rank).mapM (fun c => do
    let r ← narrowRun p (products (← readFactor p (first c)) x)
    let v ← fldexp p r.val e
    pure (v, r.absorbed))
  match ← edgeConvert p 0 (z.map (·.1)) with
  | none => pure (List.replicate outs { val := .nan })
  | some (mz, ez, ab) =>
    let zs := mz.map FVal.ofInt
    let lost := ab || z.any (·.2)
    (List.range outs).mapM (fun j => do
      let n ← get
      let r ← narrowRun p (products (← readFactor p (second j)) zs)
      let v ← fldexp p r.val ez
      let n' ← get
      pure { val := v, absorbed := r.absorbed || lost, counted := n != n' })

/-- The corrections of R213 for a vector's mantissas, one per logical column, from the factors in the tile store (R245). -/
def Arr.corrections (x : Arr) (rank : Nat) (p : Policy) (m : List Int) (e : Int) : Cnt (List Elem) :=
  lowRank p rank 512 (fun c => (List.range m.length).map (fun i => bfAt x.resV (32 * i + c)))
    (fun j => (List.range rank).map (fun c => bfAt x.resU (32 * j + c))) (m.map FVal.ofInt) e

/-- The active bank's factors that a correction uses, where it has any (R214). -/
def State.correcting (s : State) (t a : Nat) : Bool :=
  let k := (s.arr t a).bank (s.active t a)
  s.flag (F.ARR_RESSTAT_VALID t a) && k.factors && k.rank != 0

/-! ### The bound on the analogue output (R121, R217 to R221) -/

/-- A column's wear count (R189, R191). -/
def Bank.wearOf (x : Bank) (c : Nat) : Nat := satAdd 32 x.wearBase (lookup (fun _ => 0) x.wear c)

/-- A tile's junction temperature (R527) as its diode group's latest value, in 1/256 °C above −64 °C; none before the
first. -/
def State.junction (s : State) (t : Nat) : Option Nat :=
  let g := 16 + t / 16
  if s.flag (F.SNC_VAL_VALID g) then some (s.fld (F.SNC_VAL_VALUE g)) else none

/-- Column full scale F in units of P (R217). -/
def fullScale (two : Bool) (lsb : Nat) : Nat := (if two then 2032 else 127) * lsb

/-- σ² of R218 in %², from L² and N² per level², with the terms of R219 and R220 at a temperature in °C and a wear count. -/
def errorVar (temp : ℚ) (wear rank : Nat) (l2 n2 : ℚ) : ℚ :=
  let u := (temp - 40) / 65
  let w : ℚ := wear / 200000000
  let b := (10 + 2 * u) / 100
  let et := (96 + 24 * u) / 100
  let er : ℚ := if rank = 0 then 360 / 100 else if rank = 4 then 96 / 100 else if rank = 8 then 64 / 100
    else if rank = 16 then 40 / 100 else 24 / 100
  let sp := (28 + 4 * w) / 100
  let sd := (6 + 2 * u + w * (6 + 2 * u)) / 100
  (23 / 100) ^ 2 + b ^ 2 + l2 * (et ^ 2 + er ^ 2) + n2 * 10000 * (sp ^ 2 + (5 / 100) ^ 2 + sd ^ 2)

/-- The bound holds of a column's output: 3σ is at most 1.5 % of F (R221, whose budget condition implies it with r ≥ 4). -/
def boundHolds (temp : ℚ) (wear rank f : Nat) (m ts : List Int) : Bool :=
  let l2 : ℚ := (List.zipWith (fun d t => ((d * t) ^ 2 : Int)) m ts).sum / f ^ 2
  let n2 : ℚ := (m.map (fun d => (d ^ 2 : Int))).sum / f ^ 2
  decide (wear ≤ 200000000) && decide (errorVar temp wear rank l2 n2 ≤ 1 / 4)

/-- The codes of a slice that keep a column's corrected output within 1.5 % of F of the ideal (R121, R217): w is the slice's
weight in n, n0 the other slice's part of it, slack what the other slice may still add, corr the correction and ideal the
exact product, in units of P. A 65,536th of F is left to the roundings of R148. -/
def codeLimits (f w slack : Nat) (u : ℚ) (n0 ideal : Int) (corr : ℚ) : Int × Int :=
  let far : ℚ := 15 * f / 1000 - f / 65536 - slack * |u|
  (((ideal - corr - far) / u - n0) / w |>.ceil, ((ideal - corr + far) / u - n0) / w |>.floor)

/-- The device-side conditions under which the bound is stated hold for an array (R221, R226, R227): it is in service, and
RVCFG, RESCOL, RVDUE, THOT and TCOLD are clear. -/
def State.boundApplies (s : State) (t a : Nat) : Bool :=
  s.flag (F.ARR_STAT_INSVC t a) && s.rd (R.ARR_BSTAT t a) &&& 0x5E == 0

/-- What the bound leaves a column's code in a slice of a vector (R121, R221). w is the slice's weight in n, q QAVG before the
vector's first slice, n0 and clip the sums and comparators of the slice before it, m the mantissas of the slices up to this
one. A column that clipped in the slice before is not limited. DESIGN CHOICE: the 3σ figure, which R121 calls a bound on
|computed − exact|, limits every such output, and without a temperature the hottest is taken (log 69). -/
def State.boundCode (s : State) (t a : Nat) (p : Policy) (two : Bool) (w q : Nat) (n0 : List Int) (clip : List Bool)
    (m : List Int) (e : Int) : Nat → Option (Int × Int) :=
  let b := s.active t a
  let x := s.arr t a
  let ws := (ofFP32 (s.wsOf t a b)).rat
  if s.boundApplies t a && ws != 0 then
    let rank := if s.correcting t a then (x.bank b).rank else 0
    let cs := if rank = 0 then [] else ((x.corrections rank p m e).run 0).1
    let scale : ℚ := ws * (FVal.num false 1 e).rat
    let rho : ℚ := if q = 0 then 1 else (s.fld (F.ARR_QCAL_QCAL t a) : ℚ) / q
    let temp : ℚ := match s.junction t with
      | some v => (v : ℚ) / 256 - 64
      | none => 105
    fun j =>
      let c := s.physCol t a b j
      let lsb := lsbOf (s.gainCode t a b c)
      let ts := (List.range 512).map (fun i => (s.logicalTarget b t a i j).1)
      let ideal := (List.zipWith (· * ·) m ts).sum
      let f := fullScale two lsb
      if boundHolds temp ((x.bank b).wearOf c) rank f m ts && rho != 0 && !clip.getD j false then
        some (codeLimits f w (b2n (w == 16)) (lsb * rho) (n0.getD j 0) ideal ((cs.getD j { val := FVal.zero }).val.rat / scale))
      else none
  else fun _ => none

/-! ### Vectors -/

/-- A vector's slices on an array (R129, R141): the sums n of R148, QAVG before the first slice, and whether every
slice was skipped. -/
def State.vector (s : State) (t a acc index : Nat) (p : Policy) (two : Bool) (m : List Int) (e : Int) :
    List Int × Nat × Bool × State :=
  let q := s.fld (F.ARR_QAVG_QAVG t a)
  if two then
    let high := m.map highDrive
    let (hi, s) := s.slice t a acc index high (s.boundCode t a p true 16 q [] [] (high.map (16 * ·)) e)
    let n0 := hi.map (fun r => 16 * r.1)
    let (lo, s) := s.slice t a acc index (m.map lowDrive) (s.boundCode t a p true 1 q n0 (hi.map (·.2)) m e)
    (List.zipWith (fun h l => h + l.1) n0 lo, q, m.all (· = 0), s)
  else
    let (c, s) := s.slice t a acc index m (s.boundCode t a p false 1 q [] [] m e)
    (c.map (·.1), q, m.all (· = 0), s)

/-- The outputs y of a vector (R148). -/
def State.outputs (s : State) (t a : Nat) (p : Policy) (n : List Int) (q : Nat) (e : Int) : Cnt (List Elem) :=
  let b := s.active t a
  n.mapIdxM (fun j v =>
    elemOf (columnValue p v (lsbOf (s.gainCode t a b (s.physCol t a b j))) (s.fld (F.ARR_QCAL_QCAL t a)) q e (s.wsOf t a b)))

/-- A vector's outputs with their corrections (R213, R214): none for a vector of zeros, for the columns that the DPA
computes, and where the active bank has no factors. -/
def State.correct (s : State) (t a : Nat) (p : Policy) (cols : List Nat) (y : List Elem) (m : List Int) (e : Int) :
    Cnt (List Elem) :=
  if s.correcting t a && !m.all (· = 0) then do
    let cs ← (s.arr t a).corrections ((s.arr t a).bank (s.active t a)).rank p m e
    (List.zip y cs).mapIdxM (fun j v =>
      if cols.contains j then pure v.1
      else do
        let z ← elemOf (fadd p v.1.val v.2.val)
        pure { z with absorbed := v.1.absorbed || v.2.absorbed, counted := z.counted || v.1.counted || v.2.counted })
  else pure y

/-- The correction of a vector takes r ÷ 8 beats of the OPE (R215, R245); eighths of a beat are kept until they make one. -/
def State.corrBeats (s : State) (t a : Nat) (m : List Int) : State :=
  if s.correcting t a && !m.all (· = 0) then
    let n := (s.tile t).corrRem + ((s.arr t a).bank (s.active t a)).rank
    let s := s.putTileRec t { s.tile t with corrRem := n % 8 }
    (s.bumpPair (F.OPE_CNT_CORR_LO_COUNT t) (F.OPE_CNT_CORR_HI_COUNT t) (n / 8)).tally t 0x07 (n / 8)
  else s

/-- The columns of an array that the DPA computes now (R251, R256). -/
def State.coveredCols (s : State) (t a : Nat) : List Nat :=
  if s.dfwd then List.range 512 else (s.arr t a).cover

/-! ### Commands -/

/-- No array works: VARR or VHV is outside its band (R504), a thermal trip holds every array (R521), or a rail has tripped
(R503). -/
def State.arrayHeld (s : State) : Bool :=
  s.power.droop / 8 % 4 != 0 || s.flag F.GOV_STAT_TRIP || s.power.short.isSome

/-- No MVM's window is integrated: the arrays are held, or the active bank awaits its re-verify (R194). -/
def State.windowHeld (s : State) (t a : Nat) : Bool := s.arrayHeld || (s.arr t a).reverify

/-- RESIDUAL_CORRECTION (R213, R254): the OPE takes the oldest vector at an array's edge that awaits it, once every covered
column is in place, and adds the correction; the outputs are then released. stalled says that the array's next integration
window was held for it (R216). -/
def execResidualCorrection (t a : Nat) (np stalled : Bool) (s : State) : Outcome :=
  act s fun s =>
    let s := if stalled then (s.bump (F.ARR_CNT_CORRSTALL_COUNT t a) 1).tally t 0x18 1 else s
    let x := s.arr t a
    let cols := s.coveredCols t a
    match x.edge.find? (fun v => !v.done) with
    | some v =>
      if v.full && (v.covered || cols.isEmpty) then
        let y : List Elem := v.y.map (fun w => { val := ofFP32 w })
        let out := ((s.correct t a (policyOf np) cols y v.m v.e).run 0).1.map (fun r => fp32Bits r.val)
        (s.corrBeats t a v.m).putArr t a
          { x with edge := updFirst (fun v => !v.done) (fun v => { v with y := out, done := true }) x.edge }
      else s
    | none => s

/-- CONVERTER_POWER_DOWN (R142, R145): no slot has run for 1,000 ns. -/
def execConverterPowerDown (t a : Nat) (s : State) : Outcome :=
  act s fun s => if s.flag (F.ARR_CTRL_PDEN t a) then s.setFlag (F.ARR_STAT_CONV_ON t a) false else s

end Sys2Proof.Machine
end

