-- ==== Sys2Proof/Machine/Program.lean ====
section
/-! DEFINITION. Programming weights (05_weight_programming.md): targets, the pulse-and-verify cycle, wear, remapping,
refresh, and the commands REWRITE_START, BANK_CLEAR, PROGRAMMING_CYCLE, PROGRAMMING_SUSPEND, REMAP, RVNOW,
REFRESH_INTERVAL_EXPIRY and ACTIVE_BANK_REVERIFY.
-/

namespace Sys2Proof.Machine

/-! ### Targets -/

/-- The row sum of target levels over the logical columns (R152). -/
def State.rowTargets (s : State) (b t a i : Nat) : Int :=
  ((List.range 512).map (fun j => (s.logicalTarget b t a i j).1)).sum

/-- Pairs of a physical column are written (R165, R195): not of a DEAD spare, nor of a checksum column that has reached its
wear limit, nor of the reference columns. -/
def State.written (s : State) (t a b c : Nat) : Bool :=
  decide (c < 512) || (decide (c < 528) && !bit (s.remapEntry t a b (c - 512)) 29)
    || (c == 528 && !((s.arr t a).bank b).wearOff)

/-- The target of a physical pair (R161, R165); none where the pair is never written. DESIGN CHOICE: the original column of
a retired logical column goes on being written (log 70). -/
def State.pairTarget (s : State) (b t a i c : Nat) : Option Int :=
  if !s.written t a b c then none
  else if c < 512 then some (s.logicalTarget b t a i c).1
  else if c < 528 then
    let w := s.remapEntry t a b (c - 512)
    if !bit w 31 then some 0 else some (s.logicalTarget b t a i (bits w 8 0)).1
  else some (max (-31) (min 31 (rneRat ((s.rowTargets b t a i : ℚ) / 32))))

/-- The largest finite magnitude among an array's logical weights, for the WS of a full rewrite (R162). -/
def State.weightMax (s : State) (b t a : Nat) : FVal :=
  blockMax ((List.range 262144).map (fun k =>
    match s.copyWeight b t a (k % 512) (k / 512) with
    | .num _ m e => .num false m e
    | _ => FVal.zero))

/-- WS at a full rewrite (R162). -/
def wsOfMax (a : FVal) : W32 :=
  if a.isZero then fp32Bits (FVal.ofInt 1) else fp32Bits ((fdiv .saturate a (FVal.ofInt 31)).run 0).1

/-! ### Wear, retirement and remapping -/

/-- Wear added to a column. -/
def Bank.addWear (x : Bank) (c n : Nat) : Bank :=
  { x with wear := store (fun _ => 0) x.wear c (lookup (fun _ => 0) x.wear c + n) }
/-- The largest column wear count of a bank. -/
def Bank.wearMax (x : Bank) : Nat := satAdd 32 x.wearBase ((x.wear.map (·.2)).foldl max 0)

/-- ARR_WEARMAX follows, and the Steward writes the count to the ledger once it has grown by 2^20 since the last write
(R191). DESIGN CHOICE: a bank without a record counts from 0, and its first record follows at 2^20 (log 70). -/
def State.wearNote (s : State) (t a b : Nat) : State :=
  let x := s.arr t a
  let k := x.bank b
  let w := k.wearMax
  let s := s.wr (if b = 0 then R.ARR_WEARMAX0 t a else R.ARR_WEARMAX1 t a) (BitVec.ofNat 32 w)
  if k.wearSaved + 2 ^ 20 ≤ w then
    (s.putArr t a (x.setBank b { k with wearSaved := w })).ledgerPut 0 0x20 (16 * t + 2 * a + b) (leBytes 4 w)
  else s

/-- The 16 remap entries of a bank as bytes (R558). -/
def State.remapBytes (s : State) (t a b : Nat) : List Byte :=
  (List.range 16).flatMap (fun n => leBytes 4 (s.remapEntry t a b n).toNat)

/-- The retired-column record is written whenever an entry changes (R199, R558). -/
def State.saveRemap (s : State) (t a b : Nat) : State :=
  s.ledgerPut 0 0x22 (16 * t + 2 * a + b) (s.remapBytes t a b)

/-- A logical column of a bank retired and remapped (R195 to R198): the spare that served it turns DEAD, and the lowest free
entry takes it, or the array leaves service. DESIGN CHOICE: a spare that is VALID and not yet LIVE turns DEAD as a live one
does (log 70). -/
def State.retire (s : State) (t a b j cause : Nat) : State :=
  let s := forEach (List.range 16) s (fun s n =>
    let w := s.remapEntry t a b n
    if bit w 31 && !bit w 29 && bits w 8 0 == j then s.putRemap t a b n (putBits w 30 29 1) else s)
  match (List.range 16).find? (fun n => !bit (s.remapEntry t a b n) 31) with
  | some n =>
    let s := s.putRemap t a b n (pack [(31, 1), (20, cause), (0, j)])
    let s := (s.bump (F.ARR_CNT_REMAP_COUNT t a) 1).recordFault 0x02 0x2 (8 * t + a) 0
    s.saveRemap t a b
  | none =>
    let s := s.saveRemap t a b
    let x := s.arr t a
    let s := s.putArr t a (x.setBank b { x.bank b with unspared := (x.bank b).unspared ++ [j] })
    if x.out then s else s.arrayOut t a

/-- The logical column that a physical column serves, if it serves one. -/
def State.servedBy (s : State) (t a b c : Nat) : Option Nat :=
  if c < 512 then (if (s.liveSpare t a b c).isNone && !s.awaiting t a b c then some c else none)
  else if c < 528 then
    let w := s.remapEntry t a b (c - 512)
    if bit w 31 && !bit w 29 then some (bits w 8 0) else none
  else none

/-- A physical column that reached the endurance limit (R190, R195). -/
def State.wornColumn (s : State) (t a b c : Nat) : State :=
  if c = 528 then
    let x := s.arr t a
    (s.putArr t a (x.setBank b { x.bank b with wearOff := true })).setFlag
      (if b = 0 then F.ARR_PRGSTAT_CHKOFF0 t a else F.ARR_PRGSTAT_CHKOFF1 t a) true
  else
    match s.servedBy t a b c with
    | some j => s.retire t a b j 0x2
    | none => s

/-- The endurance limit of a column (R190). -/
def wearLimit : Nat := 200000000

/-- Every column of a bank that stands at the limit is retired (R190): a stored count at power-up may do so (R191). -/
def State.wornBank (s : State) (t a b : Nat) : State :=
  forEach (List.range 529) s (fun s c => if wearLimit ≤ ((s.arr t a).bank b).wearOf c then s.wornColumn t a b c else s)

/-- Wear added to a list of columns; a column that then stands at the limit of R190 is retired, if it still serves. -/
def State.wearColumns (s : State) (t a b : Nat) (cs : List (Nat × Nat)) : State :=
  let worn := cs.filter (fun c =>
    let k := (s.arr t a).bank b
    decide (wearLimit ≤ satAdd 32 (k.wearOf c.1) c.2))
  let s := forEach cs s (fun s c =>
    let x := s.arr t a
    s.putArr t a (x.setBank b ((x.bank b).addWear c.1 c.2)))
  (forEach worn s (fun s c => s.wornColumn t a b c.1)).wearNote t a b

/-! ### Rewrites -/

/-- ARR_PRGSTAT.STATE. -/
def State.prgState (s : State) (t a : Nat) : Nat := s.fld (F.ARR_PRGSTAT_STATE t a)

/-- The checksum comparison of a bank follows its causes (R174, R195). -/
def State.chkOff (s : State) (t a b : Nat) : State :=
  let k := (s.arr t a).bank b
  s.setFlag (if b = 0 then F.ARR_PRGSTAT_CHKOFF0 t a else F.ARR_PRGSTAT_CHKOFF1 t a)
    (k.remOff || k.unrOff || k.wearOff)

/-- The targets that a rewrite clamps (R161). -/
def State.clampCount (s : State) (b t a : Nat) : Nat :=
  ((List.range 262144).filter (fun k => (s.logicalTarget b t a (k % 512) (k / 512)).2)).length

/-- A rewrite of a bank starts (R161 to R166, R193, R194). A re-verify, which never clears the bank, sets WS and the version
anew, for the reset took them (R157, R200, R600; DESIGN CHOICE, log 79). -/
def State.startRewrite (s : State) (t a b : Nat) (reverify : Bool) : State :=
  let x := s.arr t a
  let k := x.bank b
  let badWs : Bool := match ofFP32 (s.wsOf t a b) with
    | .num _ m _ => m == 0
    | _ => true
  let full := !reverify && (k.oweFull || badWs)
  let refresh := reverify || k.oweRefresh
  let s := if full || badWs then s.wr (if b = 0 then R.ARR_WS0 t a else R.ARR_WS1 t a) (wsOfMax (s.weightMax b t a)) else s
  let s := if reverify then s.wr (if b = 0 then R.ARR_VER0 t a else R.ARR_VER1 t a) (BitVec.ofNat 32 k.version) else s
  let clamps := s.clampCount b t a
  let s := s.bump (F.ARR_CNT_CLAMP_COUNT t a) clamps
  -- DESIGN CHOICE: every rewrite that is not full counts as incremental here, a refresh or a re-verify too (log 84).
  let tooMany := !full && decide (s.fld (F.ARR_PRGLIM_CLAMPLIM t a) < clamps)
  let spares := (List.range 16).filter (fun n =>
    let w := s.remapEntry t a b n
    bit w 31 && !bit w 30 && !bit w 29)
  let x := x.setBank b { k with oweFull := if full then false else k.oweFull, fresh := if reverify then k.fresh else false }
  let x := if tooMany then { x with bank0 := { x.bank0 with oweFull := true }, bank1 := { x.bank1 with oweFull := true } }
    else x
  let s := s.putArr t a { x with rew := { bank := b, spares, clamps } }
  let s := s.setFld (F.ARR_PRGSTAT_STATE t a) (if reverify then 5 else if full then 1 else 2)
  let s := (s.setFlag (F.ARR_PRGSTAT_FULL t a) full).setFlag (F.ARR_PRGSTAT_REFRESH t a) refresh
  ((s.setFlag (F.ARR_PRGSTAT_SUSP t a) false).setFld (F.ARR_PRGSTAT_ROW t a) 0).setFlag
    (F.ARR_STAT_IDLEBUSY t a) true

/-- The legs of program_pair (R170) that still have distance to go; a leg is a cell's side and its signed goal. -/
def liveLegs (code : Int) : List (Nat × Int) → List (Nat × Int)
  | [] => []
  | (side, goal) :: ls => if |4 * goal - code| ≤ 2 then liveLegs code ls else (side, goal) :: ls

/-- The legs for a target from a starting code (R170). -/
def legsOf (t code : Int) : List (Nat × Int) :=
  let carrier (v : Int) : Nat := if v < 0 then 1 else 0
  let ls :=
    if t ≠ 0 ∧ code ≠ 0 ∧ (decide (t < 0) != decide (code < 0)) then [(carrier code, 0), (carrier t, t)]
    else if t ≠ 0 then [(carrier t, t)]
    else if code ≠ 0 then [(carrier code, 0)]
    else []
  liveLegs code ls

/-- The next pulse of a pair: its cell's side, whether the cell moves up, and the strength (R168, R170). -/
def PairProg.pulse (p : PairProg) : Option (Nat × Bool × Nat) :=
  if p.unreached then none
  else
    match p.legs with
    | [] => none
    | (side, goal) :: _ =>
      let r4 := 4 * goal - p.code
      let n := (r4.natAbs + 2) / 4
      let k := if 8 ≤ n then 8 else if 4 ≤ n then 4 else if 2 ≤ n then 2 else 1
      some (side, (decide (0 < r4)) == (side == 0), k)

/-- The verify code of a pair in draw n (R167): the path's γ, the trims of its column (R547) and its errors, at four codes a
level. The offset trim takes 2 o units of P; a verify code is a free number of units, for the spec does not state the drive of
a verify read. -/
def Arr.verifyCode (x : Arr) (t a b row n c : Nat) : Int :=
  let (o, g) := x.trim c
  max (-127) (min 127 (rneRat (Config.gamma n * (4 * (x.bank b).pairLevel t a b row c - 2 * o / Config.verifyUnits)
    * (1 + g / 1024) + Config.verifyError n c)))

/-- A cell pulsed (R168): its level moves by a free value in the pulse's direction and stays within 0 and 31.75. -/
def Bank.pulseCell (x : Bank) (t a b row c n side : Nat) (up : Bool) (k : Nat) : Bank :=
  let key := 2 * (531 * row + c) + side
  let l := lookup (cellReset t a b) x.cells key
  let m := k * Config.pulseMove n c
  let l := max 0 (min (127 / 4) (if up then l + m else l - m))
  { x with cells := store (cellReset t a b) x.cells key l }

/-- The pairs that a row's rewrite writes (R164, R165, R170, R193). codes gives the refresh read's codes. -/
def State.rowPairs (s : State) (t a b row : Nat) (codes : Option (Nat → Int)) : List PairProg :=
  let k := (s.arr t a).bank b
  (List.range 529).filterMap (fun c =>
    match s.pairTarget b t a row c with
    | none => none
    | some tg =>
      match codes with
      | some f =>
        if 2 < |f c - 4 * tg| then some { col := c, legs := legsOf tg (f c), code := f c } else none
      | none =>
        let p := lookup (fun _ => 0) k.prog (531 * row + c)
        if tg ≠ p then some { col := c, legs := legsOf tg (4 * p), code := 4 * p } else none)

/-- The next row of a rewrite that has a pair to write, from a row on (R169, R173); 512 where none is left. -/
def State.nextRow (s : State) (t a b : Nat) : Nat → Nat → Nat
  | 0, _ => 512
  | fuel + 1, row =>
    if 512 ≤ row then 512
    else if (s.rowPairs t a b row none).isEmpty then s.nextRow t a b fuel (row + 1) else row

/-- The end of the row-by-row work of a rewrite: columns over their unreached limit are retired (R195), and the
measurement follows (R208). DESIGN CHOICE: ARR_PRGSTAT.ROW keeps the last row (log 84). -/
def State.endRows (s : State) (t a : Nat) : State :=
  let x := s.arr t a
  let b := x.rew.bank
  let lim := s.fld (F.ARR_PRGLIM_UNRCOL t a)
  let past := x.rew.unreached.filter (fun e => lim < e.2)
  let k := x.bank b
  let s := s.putArr t a (x.setBank b { k with unrOff := past.any (fun e => e.1 == 528), remOff := !k.unfit.isEmpty })
  let s := forEach past s (fun s e =>
    match s.servedBy t a b e.1 with
    | some j => s.retire t a b j 0x1
    | none => s)
  let s := s.chkOff t a b
  let s := s.putArr t a { s.arr t a with rew := { (s.arr t a).rew with row := 512 } }
  if s.prgState t a = 5 then s else s.setFld (F.ARR_PRGSTAT_STATE t a) 3

/-- A row ends: the next one starts, or the rows are done. -/
def State.advanceRow (s : State) (t a row : Nat) : State :=
  let x := s.arr t a
  let b := x.rew.bank
  let row := if s.flag (F.ARR_PRGSTAT_REFRESH t a) then row else s.nextRow t a b 513 row
  if 512 ≤ row then s.endRows t a
  else
    let s := s.putArr t a { x with rew := { x.rew with row, phase := .fresh, pairs := [], sums := [] } }
    s.setFld (F.ARR_PRGSTAT_ROW t a) row

/-- The physical column that serves a logical one once the rewrite's spares are in use (R153, R196). -/
def State.servingCol (s : State) (t a b : Nat) (spares : List Nat) (j : Nat) : Nat :=
  match (List.range 16).find? (fun n =>
      let w := s.remapEntry t a b n
      bit w 31 && !bit w 29 && (bit w 30 || spares.contains n) && bits w 8 0 == j) with
  | some n => 512 + n
  | none => j

/-- The closing of a row (R153, R171, R174): readbacks, programmed levels, remainder, unreached counts. -/
def State.closeRow (s : State) (t a : Nat) : State :=
  let x := s.arr t a
  let b := x.rew.bank
  let row := x.rew.row
  let k := x.bank b
  let sum (c : Nat) : Int := lookup (fun _ => 0) x.rew.sums c
  let k := forEach (List.range 529) k (fun k c =>
    { k with r16 := store (fun _ => 0) k.r16 (531 * row + c) (sum c),
             prog := store (fun _ => 0) k.prog (531 * row + c) (rneRat ((sum c : ℚ) / 16)) })
  let logical := ((List.range 512).map (fun j => sum (s.servingCol t a b x.rew.spares j))).sum
  let q := logical - 32 * sum 528
  let fits : Bool := -32768 ≤ q && q ≤ 32767
  let k := if k.wearOff then k
    else { k with rem := store (fun _ => 0) k.rem row (if fits then q else 0), remOff := k.remOff || !fits,
                  unfit := k.unfit.filter (· != row) ++ (if fits then [] else [row]) }
  let bad := x.rew.pairs.filter (·.unreached)
  let un := forEach bad x.rew.unreached (fun m p => store (fun _ => 0) m p.col (lookup (fun _ => 0) m p.col + 1))
  let s := s.putArr t a { x.setBank b k with rew := { x.rew with unreached := un } }
  let s := s.chkOff t a b
  s.advanceRow t a (row + 1)

/-- A read cycle of a row: the verify code of every pair, in one draw (R167). -/
def State.verifyRow (s : State) (t a b row : Nat) : (Nat → Int) × State :=
  let (n, s) := s.draw
  let x := s.arr t a
  (fun c => x.verifyCode t a b row n c, s)

/-- One pulse cycle of a row (R169, R170): every pair's pulse, then the verify read and the decision. -/
def State.pulseRow (s : State) (t a : Nat) : State :=
  let x := s.arr t a
  let b := x.rew.bank
  let row := x.rew.row
  let open' := x.rew.pairs.filter (fun p => s.written t a b p.col)
  let ps := open'.filterMap (fun p => p.pulse.map (fun u => (p.col, u)))
  let (n, s) := s.draw
  let k := forEach ps (x.bank b) (fun k p => k.pulseCell t a b row p.1 n p.2.1 p.2.2.1 p.2.2.2)
  let s := s.putArr t a (x.setBank b k)
  let s := s.bumpPair (F.ARR_CNT_PULSE_LO_COUNT t a) (F.ARR_CNT_PULSE_HI_COUNT t a) ps.length
  let s := s.wearColumns t a b (ps.map (fun p => (p.1, p.2.2.2)))
  let (f, s) := s.verifyRow t a b row
  let (hit, s) := s.inject 0x04 t a (s.fld F.INJ_TARGET_COL) 0
  let icol := s.fld F.INJ_TARGET_COL
  let x := s.arr t a
  let pairs := (open'.filter (fun p => s.written t a b p.col)).map (fun p =>
    match p.pulse with
    | none => p
    | some _ =>
      let code := f p.col
      let legs := liveLegs code p.legs
      let pulses := p.pulses + 1
      { p with code, legs, pulses, unreached := (!legs.isEmpty && pulses == 8) || (hit && p.col == icol) })
  let new := (pairs.filter (fun p => p.unreached && !open'.any (fun q => q.col == p.col && q.unreached))).length
  let s := s.bump (F.ARR_CNT_UNREACH_COUNT t a) new
  let busy := pairs.any (fun p => p.pulse.isSome)
  s.putArr t a { x with rew := { x.rew with pairs, phase := if busy then .pulsing else .closing 0 } }

/-- One array's part of a programming cycle; admitted says that the charge pump serves it (R169, R176, R193). -/
def State.arrayCycle (s : State) (t a : Nat) (admitted : Bool) : State :=
  let s := s.convertersOn t a false
  let x := s.arr t a
  let b := x.rew.bank
  let row := x.rew.row
  match x.rew.phase with
  | .fresh =>
    if s.flag (F.ARR_PRGSTAT_REFRESH t a) then
      let (f, s) := s.verifyRow t a b row
      let ps := s.rowPairs t a b row (some f)
      s.putArr t a { s.arr t a with rew := { x.rew with pairs := ps, phase := if ps.isEmpty then .closing 0 else .pulsing } }
    else
      let s := s.putArr t a { x with rew := { x.rew with pairs := s.rowPairs t a b row none, phase := .pulsing } }
      if admitted then s.pulseRow t a else s
  | .pulsing => if admitted then s.pulseRow t a else s
  | .closing n =>
    let (f, s) := s.verifyRow t a b row
    let sums := forEach (List.range 529) x.rew.sums (fun m c =>
      store (fun _ => 0) m c (lookup (fun _ => 0) m c + f c))
    let s := s.putArr t a { s.arr t a with rew := { x.rew with sums, phase := .closing (n + 1) } }
    if n + 1 = 4 then s.closeRow t a else s

/-- A calibration of an array is in progress: its windows and its programming cycles do not mix (R126, R552). -/
def State.calibrating (s : State) (t a : Nat) : Bool :=
  s.fld (F.ARR_CALSTAT_STATE t a) == 1 || s.fld (F.ARR_CALSTAT_STATE t a) == 3

/-- Arrays of a tile that program rows now (R178, R179, R188, R504). -/
def State.programming (s : State) (t a : Nat) : Bool :=
  (s.prgState t a == 2 || s.prgState t a == 5) && (s.arr t a).rew.row < 512
    && !s.flag (F.ARR_PRGSTAT_SUSP t a) && s.arrayTime && !s.dfwd && !s.arrayHeld && !s.calibrating t a

/-- An array whose next cycle applies pulses and so needs an admission (R176). -/
def State.wantsPulse (s : State) (t a : Nat) : Bool :=
  match (s.arr t a).rew.phase with
  | .fresh => !s.flag (F.ARR_PRGSTAT_REFRESH t a)
  | .pulsing => true
  | .closing _ => false

/-- The arrays that a tile's pump admits in a cycle (R175, R176): at most three, clears counted, in rotating order
after the array admitted last. -/
def State.admissions (s : State) (t : Nat) : List Nat :=
  let clears := ((List.range 8).filter (fun a => s.prgState t a == 1)).length
  let order := (List.range 8).map (fun k => ((s.tile t).pump + 1 + k) % 8)
  (order.filter (fun a => s.programming t a && s.wantsPulse t a)).take (3 - clears)

/-! ### The budget (R226) -/

/-- HUB_PRGCFG lies outside its valid range (R202, R227). -/
def State.badPrgcfg (s : State) : Bool :=
  let v := s.fld F.HUB_PRGCFG_RVTEMP
  let i := s.fld F.HUB_PRGCFG_RVINT
  i == 0 || 240 < i || v == 0 || 8 < v

/-- ARR_BSTAT evaluated, with what a fall of INBUD entails (R226, R227). DESIGN CHOICE: without a valid temperature THOT and
TCOLD are clear (log 84). -/
def State.budget (s : State) (t a : Nat) : State :=
  let x := s.arr t a
  let was := s.flag (F.ARR_BSTAT_INBUD t a)
  let s := s.setFlag (F.ARR_BSTAT_RVCFG t a) s.badPrgcfg
  let s := s.setFlag (F.ARR_BSTAT_NOFACT t a) (!s.flag (F.ARR_RESSTAT_VALID t a) || s.fld (F.ARR_RESSTAT_RANK_ACT t a) == 0)
  let s := s.setFlag (F.ARR_BSTAT_RESCOL t a) (x.bank (s.active t a)).overlimit
  let s := s.setFlag (F.ARR_BSTAT_RVDUE t a) x.refresh
  let (hot, cold) : Bool × Bool := match s.junction t with
    | some v => (43264 < v, v < 26624)
    | none => (false, false)
  let s := (s.setFlag (F.ARR_BSTAT_THOT t a) hot).setFlag (F.ARR_BSTAT_TCOLD t a) cold
  let now := s.flag (F.ARR_STAT_INSVC t a) && bits (s.rd (R.ARR_BSTAT t a)) 6 1 == 0
  if was && !now then
    let s := s.leaveBudget t a
    if s.budgetAction t a = 2 && s.flag (F.ARR_STAT_INSVC t a) then s.arrayOut t a else s
  else s.setFlag (F.ARR_BSTAT_INBUD t a) now

/-- An array leaves service, and what was in progress on its banks ends (R159, R226): a rewrite, a start-up, a re-verify. -/
def State.leaveService (s : State) (t a : Nat) : State :=
  let s := (s.setFlag (F.ARR_STAT_INSVC t a) false).budget t a
  let s := s.putArr t a { s.arr t a with rew := {}, startup := false, reverify := false }
  let s := (s.setFld (F.ARR_PRGSTAT_STATE t a) 0).setFlag (F.ARR_PRGSTAT_FULL t a) false
  let s := (s.setFlag (F.ARR_PRGSTAT_REFRESH t a) false).setFlag (F.ARR_PRGSTAT_SUSP t a) false
  s.setFlag (F.ARR_STAT_IDLEBUSY t a) false

/-- An array's digital copies hold no weights any more (R166), and its banks owe a full rewrite (R163). -/
def State.dropCopies (s : State) (t a : Nat) : State :=
  let s := s.leaveService t a
  let x := s.arr t a
  let clean (k : Bank) : Bank := { k with copied := false, awaited := false, fresh := false, oweFull := true, imaged := false }
  s.putArr t a { x with bank0 := clean x.bank0, bank1 := clean x.bank1 }

/-! ### Refresh -/

/-- A refresh requested for an array (R192, R193). -/
def State.requestRefresh (s : State) (t a : Nat) : State :=
  let x := s.arr t a
  let s := s.putTileRec t { s.tile t with calWant := true }
  (s.putArr t a { x with refresh := true, bank0 := { x.bank0 with oweRefresh := true },
                         bank1 := { x.bank1 with oweRefresh := true } }).budget t a

/-- A bank's refresh rewrite is complete (R193); the refresh ends once both banks have had one. -/
def State.refreshDone (s : State) (t a b : Nat) : State :=
  let x := s.arr t a
  let x := x.setBank b { x.bank b with oweRefresh := false }
  let x := { x with refresh := x.bank0.oweRefresh || x.bank1.oweRefresh }
  (s.putArr t a x).budget t a

/-- An array's programming is suspended (R179). -/
def State.suspendPrg (s : State) (t a : Nat) : State :=
  if s.flag (F.ARR_STAT_IDLEBUSY t a) && !s.flag (F.ARR_PRGSTAT_SUSP t a) then
    (s.setFlag (F.ARR_PRGSTAT_SUSP t a) true).bump (F.ARR_CNT_SUSP_COUNT t a) 1
  else s

/-- Programming, measurement and calibration go on where a forward phase suspended them (R179): none is in force any more. -/
def State.resumePrg (s : State) : State :=
  forEach (allArrays.filter (fun k => s.flag (F.ARR_PRGSTAT_SUSP k.1 k.2))) s
    (fun s k => s.setFlag (F.ARR_PRGSTAT_SUSP k.1 k.2) false)

/-! ### Commands -/

/-- REWRITE_START (R166): the idle bank's copy holds every target, and no commit is still arriving in it. -/
def execRewriteStart (t a : Nat) (s : State) : Outcome :=
  act s fun s =>
    let b := if (s.arr t a).startup then 0 else 1 - s.active t a
    let k := (s.arr t a).bank b
    if k.copied && !k.awaited && (k.fresh || k.oweFull || k.oweRefresh) && !s.dfwd && s.arrayTime && !s.calibrating t a
        && (s.prgState t a == 0 || s.prgState t a == 4) then
      let s := s.startRewrite t a b false
      if s.prgState t a = 2 then s.advanceRow t a 0 else s
    else s

/-- BANK_CLEAR (R175): every pair of the input rows over columns 0 to 528 falls to level 0. -/
def execBankClear (t a : Nat) (s : State) : Outcome :=
  act s fun s =>
    if s.prgState t a = 1 && s.arrayTime && !s.dfwd && !s.arrayHeld && !s.calibrating t a && !s.flag (F.ARR_PRGSTAT_SUSP t a) then
      let x := s.arr t a
      let b := x.rew.bank
      let k := x.bank b
      let cells := forEach (List.range 512) k.cells (fun m i => forEach (List.range 529) m (fun m c =>
        let key := 2 * (531 * i + c)
        store (cellReset t a b) (store (cellReset t a b) m key 0) (key + 1) 0))
      let s := s.putArr t a (x.setBank b { k with cells, prog := [], r16 := [], rem := [], unfit := [] })
      let s := s.wearColumns t a b ((List.range 529).map (fun c => (c, 32)))
      (s.setFld (F.ARR_PRGSTAT_STATE t a) 2).advanceRow t a 0
    else s

/-- PROGRAMMING_CYCLE (R169, R176): one 500 ns cycle of a tile's arrays. -/
def execProgrammingCycle (t : Nat) (s : State) : Outcome :=
  act s fun s =>
    let adm := s.admissions t
    let run := (List.range 8).filter (fun a => s.programming t a)
    let s := forEach run s (fun s a => s.arrayCycle t a (adm.contains a))
    match adm.getLast? with
    | some a => s.putTileRec t { s.tile t with pump := a }
    | none => s

/-- PROGRAMMING_SUSPEND (R179, R207): at a forward phase the array finishes its cycle or measurement MVM. -/
def execProgrammingSuspend (t a : Nat) (s : State) : Outcome := act s fun s => s.suspendPrg t a

/-- REFRESH_INTERVAL_EXPIRY (R192). -/
def execRefreshIntervalExpiry (s : State) : Outcome :=
  act s fun s =>
    if s.fld F.HUB_PRGCFG_RVINT = 0 then s else forEach allArrays s (fun s k => s.requestRefresh k.1 k.2)

/-- RVNOW (R192, R202). -/
def execRvnow (s : State) : Outcome :=
  hostReg R.HUB_PRGCMD s fun s => forEach allArrays s (fun s k => s.requestRefresh k.1 k.2)

/-- REMAP (R195 to R199): a logical column of a bank retired for a cause of R200. -/
def execRemap (t a b j cause : Nat) (s : State) : Outcome :=
  act s fun s => s.retire t a b j cause

/-- ACTIVE_BANK_REVERIFY (R194): the active bank taken as the idle bank for a refresh rewrite. -/
def execActiveBankReverify (t a : Nat) (s : State) : Outcome :=
  act s fun s =>
    if (s.arr t a).reverify && s.arrayTime && !s.dfwd && !s.calibrating t a then
      (s.startRewrite t a (s.active t a) true).advanceRow t a 0
    else s

end Sys2Proof.Machine
end

