-- ==== Sys2Proof/Machine/Halyard.lean ====
section
/-! DEFINITION. Halyards: completions, their rings and interrupts (R473 to R477), the context registers (R494), and
the header that every command begins with (R468).
-/

namespace Sys2Proof.Machine

/-! ### Accession numbers (R466) -/

/-- The kind of an accession number: 0 host, 1 job, 2 device record. -/
def accKind (acc : Nat) : Nat := acc / 2 ^ 60 % 16
/-- Source bits [11:0] of an accession number: a halyard or a context. -/
def accSource (acc : Nat) : Nat := acc / 2 ^ 48 % 2 ^ 12
/-- The context of a command, 0xFFF where it has none. -/
def accCtx (acc : Nat) : Nat :=
  if accKind acc = 2 then 0xFFF else if accSource acc < 16 then accSource acc else 0xFFF
/-- The accession number of a host command. -/
def hostAcc (h pos : Nat) : Nat := h * 2 ^ 48 + pos % 2 ^ 48

/-! ### Halyards -/

/-- Halyard h. -/
def State.halyard (s : State) (h : Nat) : Halyard := lookup (fun _ => {}) s.hal.halyards h
/-- A halyard replaced. -/
def State.putHalyard (s : State) (h : Nat) (x : Halyard) : State :=
  { s with hal := { s.hal with halyards := store (fun _ => {}) s.hal.halyards h x } }

/-- Entries of a halyard's rings. -/
def State.ringSize (s : State) (h : Nat) : Nat := 2 ^ s.fld (F.HAL_SIZE_LOG2 h)
/-- Completions beyond HAL_CQHEAD. -/
def State.cqDepth (s : State) (h : Nat) : Nat :=
  (s.fld (F.HAL_CQTAIL_COUNT h) + 2 ^ 32 - s.fld (F.HAL_CQHEAD_COUNT h)) % 2 ^ 32

/-- The halyard's vector sent (R477): ARM clears. -/
def State.halIrq (s : State) (h : Nat) : State :=
  (s.sendMsix (s.fld (F.HAL_IRQ_VEC h))).setFlag (F.HAL_IRQ_ARM h) false

/-- One completion written to its ring with its PHASE bit (R474), and the vector of R477. -/
def State.writeCompletion (s : State) (h : Nat) (c : HeldCpl) : State :=
  let n := s.ringSize h
  let tail := s.fld (F.HAL_CQTAIL_COUNT h)
  let phase := 1 - tail / n % 2
  let flags := (c.bytes.getD 10 0).toNat % 128 + 128 * phase
  let bs := c.bytes.take 10 ++ leBytes 1 flags ++ c.bytes.drop 11
  let s := s.putHost (s.pair (F.HAL_CQBASE_LO_ADDR h) (F.HAL_CQBASE_HI_ADDR h) + 32 * (tail % n)) bs
  let s := s.setFld (F.HAL_CQTAIL_COUNT h) (tail + 1)
  let x := s.halyard h
  let s := s.putHalyard h { x with stamps := x.stamps ++ [s.osc] }
  if s.flag (F.HAL_IRQ_ARM h) && (c.irq || decide (s.fld (F.HAL_IRQ_THRESH h) ≤ s.cqDepth h)) then s.halIrq h else s

/-- Held completions written while the ring has room and the link is up (R474, R492), with fuel. -/
def State.releaseHeld (fuel : Nat) (s : State) (h : Nat) : State :=
  match fuel with
  | 0 => s
  | n + 1 =>
    let x := s.halyard h
    match x.held with
    | [] => s.setFlag (F.HAL_STAT_CQFULL h) (decide (s.ringSize h ≤ s.cqDepth h))
    | c :: cs =>
      if !s.linkUp then s
      else if s.ringSize h ≤ s.cqDepth h then s.setFlag (F.HAL_STAT_CQFULL h) true
      else State.releaseHeld n ((s.putHalyard h { x with held := cs }).writeCompletion h c) h

/-- Held completions written as far as the ring and the link allow. -/
def State.drainHeld (s : State) (h : Nat) : State := s.releaseHeld ((s.halyard h).held.length + 1) h

/-- A completion raised: it is written, or held behind those that wait (R474, R491). -/
def State.raiseCompletion (s : State) (h : Nat) (c : HeldCpl) : State :=
  let x := s.halyard h
  (s.putHalyard h { x with held := x.held ++ [c] }).drainHeld h

/-- A fetched command has started: it runs on, or awaits its comparison. -/
def State.started (s : State) (f : Fetched) : Bool :=
  f.running || s.tiles.any (fun e => e.2.redPend.any (fun p => p.cmd.acc == f.acc))

/-- HAL_STAT.BUSY and FENCE follow the fetched commands (R465, R493). -/
def State.halStat (s : State) (h : Nat) : State :=
  let q := (s.halyard h).fetched
  let fenced := (q.drop 1).any (fun f => (leAt f.bytes 13 1).testBit 6)
  (s.setFlag (F.HAL_STAT_BUSY h) (q.any s.started)).setFlag (F.HAL_STAT_FENCE h) fenced

/-- The context registers after a completion (R494). -/
def State.countCtx (s : State) (acc status : Nat) : State :=
  let c := accCtx acc
  if c < 16 then
    let s := s.bump (F.CTX_CNT_CMD_COUNT c) 1
    if status = 0 then s
    else ((s.bump (F.CTX_CNT_ERR_COUNT c) 1).setFld (F.CTX_LASTERR_STATUS c) status).setPair
      (F.CTX_LASTACC_LO_ACC c) (F.CTX_LASTACC_HI_ACC c) acc
  else s

/-- The 32 bytes of a completion without PHASE (R473). -/
def cplBytes (acc status nflags : Nat) (n : NumStat) (ref : Nat) : List Byte :=
  leBytes 8 acc ++ leBytes 2 status ++ leBytes 1 nflags ++ leBytes 1 n.cause ++ leBytes 4 n.sat ++ leBytes 4 n.row
    ++ leBytes 4 n.col ++ leBytes 8 ref

/-- NFLAGS of a completion (R473): the status bits and the policy NP. -/
def nflagsOf (n : NumStat) (np : Bool) : Nat :=
  b2n n.svf + 2 * b2n n.nan + 4 * b2n n.inf + 8 * b2n n.abs + 16 * b2n np

/-- A command completes (R473, R474). A host command leaves its halyard's fetched list; a job command's completion
goes to no ring; a device record's goes to the management ring (R486). -/
def State.completeWith (s : State) (acc status nflags : Nat) (n : NumStat) (ref : Nat) : State :=
  let s := s.countCtx acc status
  if accKind acc = 1 then s
  else
    let h := if accKind acc = 2 then 16 else accSource acc
    let x := s.halyard h
    let irq := x.fetched.any (fun f => f.acc == acc && (leAt f.bytes 13 1).testBit 7)
    let s := s.putHalyard h { x with fetched := x.fetched.filter (fun f => f.acc != acc) }
    let s := if status = 0x40 then s.event (F.HAL_EVT_HOSTFAULT h) else s
    (s.raiseCompletion h ⟨cplBytes acc status nflags n ref, irq⟩).halStat h

/-- A command that is no tile command completes (R473). -/
def State.complete (s : State) (acc status : Nat) (ref : Nat := 0) : State := s.completeWith acc status 0 {} ref

/-- A fetched command has been dispatched: it runs on, or its tile holds it (R24, R465). -/
def State.dispatched (s : State) (f : Fetched) : Bool :=
  f.running || s.tiles.any (fun e => e.2.seqWait.any (fun q => q.2.acc == f.acc) || e.2.redPend.any (fun p => p.cmd.acc == f.acc))

/-- Commands that their tiles hold back are given up (R475, R489). -/
def State.forget (s : State) (p : Nat → Bool) : State :=
  forEach (s.tiles.filter (fun e => e.2.seqWait.any (fun q => p q.2.acc))) s (fun s e =>
    s.putTileRec e.1 { e.2 with seqWait := e.2.seqWait.filter (fun q => !p q.2.acc) })

/-- A command may start (R465): a host command that its halyard has fetched, once every earlier one has been dispatched, and with
its FENCE bit once they have completed. Without a holder of the token nothing is dispatched from the management halyard (R43). -/
def State.mayStart (s : State) (acc : Nat) : Bool :=
  if accKind acc = 0 && accSource acc == 16 && s.ens.up == 0 then false
  else if accKind acc = 0 then
    let q := (s.halyard (accSource acc)).fetched
    match q.find? (fun f => f.acc == acc) with
    | some f =>
      let before := q.takeWhile (fun g => g.acc != acc)
      !f.running && before.all s.dispatched && (!((leAt f.bytes 13 1).testBit 6) || before.isEmpty)
    | none => false
  else accKind acc == 1

/-- The 64 bytes of a fetched command hold what is asked of them: a command acts with the operands that its halyard fetched. -/
def State.fetchedAs (s : State) (acc : Nat) (holds : List Byte → Bool) : Bool :=
  ((s.halyard (accSource acc)).fetched.find? (fun f => f.acc == acc)).any (fun f => holds f.bytes)

/-- A host command that may start now, with its opcode and the fields of its body as (offset, length, value) (R472). -/
def State.hostMay (s : State) (acc op : Nat) (body : List (Nat × Nat × Nat)) : Bool :=
  accKind acc == 0 && s.mayStart acc && s.fetchedAs acc (fun b => leAt b 12 1 == op && body.all (fun q => leAt b q.1 q.2.1 == q.2.2))

/-- A host command marked as running (R489). -/
def State.markRunning (s : State) (acc : Nat) : State :=
  let h := accSource acc
  let x := s.halyard h
  (s.putHalyard h { x with fetched := x.fetched.map (fun f => if f.acc == acc then { f with running := true } else f) }).halStat h

end Sys2Proof.Machine
end

