-- ==== Sys2Proof/Machine/Flags.lean ====
section
/-! DEFINITION. Numeric status (R106 to R111): the special-value flag, cause and position of the first flagged
element, the saturation count, and the TIL_ registers that hold the last successful command's status.
-/

namespace Sys2Proof.Machine

/-- CAUSE of a flagged element (R109). -/
def Special.code : Special → Nat
  | .none => 0
  | .nanOut => 1
  | .infOut => 2
  | .absorbed => 3
  | .drop => 4

/-- What an output element adds to the flag: its conversion's flag, else an absorbed NaN (R106). DESIGN CHOICE: where an
element both absorbed a NaN and was flagged by its conversion, the conversion's cause is recorded (log 63). -/
def elemSpecial (absorbed : Bool) (sp : Special) : Special := if sp = .none && absorbed then .absorbed else sp

/-- One element of the output taken into a status, elements in row-major order (R106). -/
def NumStat.addElem (n : NumStat) (row col : Nat) (absorbed : Bool) (sp : Special) : NumStat :=
  let e := elemSpecial absorbed sp
  let n := { n with nan := n.nan || sp == .nanOut, inf := n.inf || sp == .infOut, abs := n.abs || absorbed,
                    absorbed := n.absorbed + b2n absorbed }
  if e = .none || n.svf then n else { n with svf := true, cause := e.code, row, col }

/-- A row of the output taken into a status. -/
def NumStat.addRow (n : NumStat) (row col : Nat) : List (Bool × Special) → NumStat
  | [] => n
  | (a, sp) :: es => NumStat.addRow (n.addElem row col a sp) row (col + 1) es

/-- Saturations added; the count saturates at 0xFFFF_FFFF (R107). -/
def NumStat.addSat (n : NumStat) (k : Nat) : NumStat := { n with sat := satAdd 32 n.sat k }

/-- TIL_NSTAT and its companions after a command with status success (R109), with the sticky bits of TIL_NSUM and
the page counters of R620. -/
def State.numStatus (s : State) (t acc : Nat) (np : Bool) (n : NumStat) : State :=
  let s := s.wr (R.TIL_NSTAT t) (pack [(31, 1), (16, n.cause), (12, accSource acc % 16), (4, b2n np), (3, b2n n.abs),
    (2, b2n n.inf), (1, b2n n.nan), (0, b2n n.svf)])
  let s := (s.setFld (F.TIL_NROW_ROW t) n.row).setFld (F.TIL_NCOL_COL t) n.col
  let s := (s.setFld (F.TIL_NSAT_COUNT t) n.sat).setPair (F.TIL_NACC_LO_ACC_LO t) (F.TIL_NACC_HI_ACC_HI t) acc
  let s := if n.svf then s.event (F.TIL_NSUM_SVF_ANY t) else s
  let s := if n.sat = 0 then s else s.event (F.TIL_NSUM_SAT_ANY t)
  let s := if n.abs then s.event (F.TIL_NSUM_ABS_ANY t) else s
  ((s.tally t 0x20 (b2n n.svf)).tally t 0x21 n.sat).tally t 0x22 n.absorbed

end Sys2Proof.Machine
end

