-- ==== Sys2Proof/Machine/Operands.lean ====
section
/-! DEFINITION. The operands of tile commands: tensor layouts (R394, R395), scale records (R305 to R312), the checks
of R702 and R703, and reading and writing rows.
-/

namespace Sys2Proof

open Sys2Proof.Machine

/-! ### Header fields (R468) -/

/-- PHASE tag of a command (R289). -/
def TileCmd.tag (c : TileCmd) : Nat := c.flags % 4
/-- AC (R90). -/
def TileCmd.ac (c : TileCmd) : Bool := c.flags.testBit 2
/-- NP (R103). -/
def TileCmd.np (c : TileCmd) : Bool := c.flags.testBit 3
/-- The command's numeric policy. -/
def TileCmd.policy (c : TileCmd) : Policy := policyOf c.np
/-- KEEP (R237). -/
def TileCmd.keep (c : TileCmd) : Bool := c.flags.testBit 4
/-- ADD (R98). -/
def TileCmd.add (c : TileCmd) : Bool := c.flags.testBit 5
/-- UNITSEL bits [2:0]. -/
def TileCmd.sel (c : TileCmd) : Nat := c.unitsel % 8
/-- UNITSEL LANE. -/
def TileCmd.lane (c : TileCmd) : Nat := c.unitsel / 8 % 8
/-- UNITSEL SHIFT. -/
def TileCmd.shift (c : TileCmd) : Bool := c.unitsel.testBit 6
/-- UNITSEL PAIR. -/
def TileCmd.pair (c : TileCmd) : Bool := c.unitsel.testBit 7
/-- MODE MASK. -/
def TileCmd.mask (c : TileCmd) : Bool := c.mode.testBit 0
/-- MODE AT. -/
def TileCmd.transA (c : TileCmd) : Bool := c.mode.testBit 1
/-- MODE BT. -/
def TileCmd.transB (c : TileCmd) : Bool := c.mode.testBit 2
/-- The accession number that a backward statistics op names in bytes 44 to 51 (R469). -/
def TileCmd.group (c : TileCmd) : Nat := c.r0 % 2 ^ 32 + 2 ^ 32 * (c.nr % 2 ^ 32)
/-- A job command: issued from a charter template (R466). -/
def TileCmd.job (c : TileCmd) : Bool := accKind c.acc == 1

/-- The 64 bytes of a tile command (R468, R469). -/
def TileCmd.bytes (op : Nat) (c : TileCmd) : List Byte :=
  leBytes 8 c.acc ++ leBytes 2 c.layer ++ leBytes 2 c.oper ++ leBytes 1 op ++ leBytes 1 c.flags ++ leBytes 1 c.unitsel
    ++ leBytes 1 c.mode ++ leBytes 4 c.ta ++ leBytes 4 c.tb ++ leBytes 4 c.tc ++ leBytes 4 c.td ++ leBytes 2 c.da
    ++ leBytes 2 c.db ++ leBytes 2 c.dc ++ leBytes 2 c.dd ++ leBytes 2 c.tile ++ leBytes 2 c.ofs ++ leBytes 4 c.r0
    ++ leBytes 4 c.nr ++ leBytes 4 c.k ++ leBytes 4 c.p1 ++ leBytes 4 c.p2

/-- A tile command read from its 64 bytes (R468, R469): its opcode and its fields. -/
def Machine.tileOfBytes (b : List Byte) : Nat × TileCmd :=
  (leAt b 12 1,
  { acc := leAt b 0 8, layer := leAt b 8 2, oper := leAt b 10 2, flags := leAt b 13 1,
    unitsel := leAt b 14 1, mode := leAt b 15 1, ta := leAt b 16 4, tb := leAt b 20 4, tc := leAt b 24 4,
    td := leAt b 28 4, da := leAt b 32 2, db := leAt b 34 2, dc := leAt b 36 2, dd := leAt b 38 2, tile := leAt b 40 2,
    ofs := leAt b 42 2, r0 := leAt b 44 4, nr := leAt b 48 4, k := leAt b 52 4, p1 := leAt b 56 4, p2 := leAt b 60 4 })

end Sys2Proof

namespace Sys2Proof.Machine

/-! ### Tensors -/

/-- The layout that a command's tensor field names (R471): host tensors for host commands, else the charter's. -/
def State.layout (s : State) (acc id : Nat) : Option Tensor :=
  if 0xFFFF0000 ≤ id then (if accKind acc = 0 then s.hal.tensors.find? (fun x => x.id == id) else none)
  else s.tensor id

/-- A feed binding of this device to a tensor (R478). -/
def State.feedOf (s : State) (id : Nat) : Option Feed :=
  s.chart.feeds.find? (fun f => f.device == s.devNum && f.tensor == id)

/-- A tensor in a digital copy or PN4 image as a job command reads it: that of the active bank (R185). DEDUCED: a template
names one bank's place, and the bank that is active gives the place that is read (log 19). -/
def State.inActive (s : State) (x : Tensor) : Tensor :=
  match s.chart.regions.find? (fun r => (r.kind == 4 || r.kind == 5 || r.kind == 6) && r.stage == s.stage && r.stack == x.place
      && decide (r.base ≤ x.base) && decide (x.base < r.base + r.length)) with
  | some r =>
    let o := x.base - r.base
    if r.kind = 6 then
      let k := o / 294912
      { x with base := r.base + 294912 * k + 147456 * s.fld (F.ARR_STAT_ACTIVE (k / 8) (k % 8)) + o % 147456 }
    else
      let k := o / 524288
      match s.region (4 + s.fld (F.ARR_STAT_ACTIVE (k / 8) (k % 8))) 0xFFFF with
      | some g => { x with place := g.stack, base := g.base + o }
      | none => x
  | none => x

/-- A tensor as a job command of the current item reads it: a fed tensor's base moves with the micro-batch (R479), a
digital copy's with the active bank (R185). -/
def State.fed (s : State) (c : TileCmd) (x : Tensor) : Tensor :=
  if c.job then
    match s.feedOf x.id with
    | some f =>
      let g := s.step * s.chart.micro + s.fld F.HUB_STEPSTAT_MB
      { x with base := x.base + g % f.slots * f.mbbytes }
    | none => s.inActive x
  else x

/-- Bytes of a row (R63, R64). -/
def Tensor.rowBytes (x : Tensor) : Nat := packedSize x.desc x.rowlen
/-- The end of a tensor's last row (R395). -/
def Tensor.endByte (x : Tensor) : Nat := x.base + (x.rows - 1) * x.pitch + x.rowBytes
/-- Capacity of a tensor's place (R395). -/
def Tensor.room (x : Tensor) : Nat := if x.place = 15 then tstoreBytes else stackBytes

/-- Element i of row r, on tile t's store where the tensor lies there (R395). -/
def State.elem (s : State) (t : Nat) (x : Tensor) (r i : Nat) : FVal :=
  decodeElem x.desc (fun j => s.placeByte x.place t (x.base + r * x.pitch + j)) i

/-- Elements [0, n) of a row, as an operand is first decoded (R105). -/
def State.readRow (s : State) (t : Nat) (p : Policy) (x : Tensor) (r n : Nat) : Cnt (List FVal) :=
  (List.range n).mapM (fun i => readOperand p x.desc (s.elem t x r i))

/-- Rows [r0, r0 + nr) of n elements. -/
def State.readRows (s : State) (t : Nat) (p : Policy) (x : Tensor) (r0 nr n : Nat) : Cnt (List (List FVal)) :=
  (List.range nr).mapM (fun r => s.readRow t p x (r0 + r) n)

/-- Bytes that a command moves, for the counters of R620: rows read once and written once (log 12). -/
def State.traffic (s : State) (t : Nat) (x : Tensor) (write : Bool) (rows : Nat) : State :=
  let n := rows * x.rowBytes
  s.tally t (if x.place = 15 then (if write then 0x41 else 0x40) else (if write then 0x43 else 0x42)) n

/-- The bytes of a tensor overlap a protected region of the device (R471). -/
def State.protectedTensor (s : State) (x : Tensor) : Bool :=
  x.place < 15 && s.chart.regions.any (fun r =>
    ((2 ≤ r.kind && r.kind ≤ 6) || r.kind == 9 || r.kind == 14) && r.stage == s.stage && r.stack == x.place
      && decide (r.base < x.endByte) && decide (x.base < r.base + r.length))

/-! ### The gradient buffer (R300) -/

/-- The gradient buffer of the step (R303). -/
def State.gradRegion (s : State) : Option Region := s.region (2 + s.fld F.HUB_STEPSTAT_GBUF) 0xFFFF

/-- A tensor of the gradient buffers as the running step writes it: with two buffers the steps use them alternately (R303).
DEDUCED: a template names a place in one of them, and the step's buffer gives the place that is written (log 72). -/
def State.inBuffer (s : State) (x : Tensor) : Tensor :=
  match s.chart.regions.find? (fun r => (r.kind == 2 || r.kind == 3) && r.stage == s.stage && r.stack == x.place
      && decide (r.base ≤ x.base) && decide (x.base < r.base + r.length)), s.gradRegion with
  | some r, some g => { x with place := g.stack, base := g.base + (x.base - r.base) }
  | _, _ => x

/-- The layout of a command's TC as it is written. -/
def State.target (s : State) (c : TileCmd) : Option Tensor :=
  (s.layout c.acc c.tc).map (fun x => if c.job then s.inBuffer x else x)

/-- The element of the gradient buffer that element i of row r of an FP32 tensor is, where it lies in the buffer. -/
def State.gradIndex (s : State) (x : Tensor) (r i : Nat) : Option Nat :=
  match s.gradRegion with
  | some g =>
    let o := x.base + r * x.pitch + 4 * i
    if x.place = g.stack && x.place < 15 && g.base ≤ o && o < g.base + g.length then some ((o - g.base) / 4) else none
  | none => none

/-- The element that an addition finds (R98): +0 for the first addition of a step into the gradient buffer (R300). -/
def State.oldElem (s : State) (t : Nat) (x : Tensor) (r i : Nat) : FVal :=
  match s.gradIndex x r i with
  | some g => if lookup (fun _ => false) s.job.touched g then s.elem t x r i else FVal.zero
  | none => s.elem t x r i

/-- An addition has reached the elements of a row. -/
def State.touchRow (s : State) (x : Tensor) (r : Nat) : State :=
  forEach (List.range x.rowlen) s (fun s i =>
    match s.gradIndex x r i with
    | some g => { s with job := { s.job with touched := store (fun _ => false) s.job.touched g true } }
    | none => s)

/-- Ranges of parameter indices that a stage holds: array placements and PARAM tensors (R389, R395, R400). -/
def Charter.stageRanges (c : Charter) (stage : Nat) : List (Nat × Nat) :=
  (c.arrays.filter (fun p => p.stage == stage)).map (fun p => (p.pbase, p.pbase + p.rows * p.cols))
    ++ (c.tensors.filter (fun x => x.stage == stage && x.param)).map (fun x => (x.pbase, x.pbase + x.rows * x.rowlen))

/-- A parameter's place in the gradient buffer: the stage's parameters in ascending index (log 14). -/
def State.gradPlace (s : State) (param : Nat) : Nat :=
  ((s.chart.stageRanges s.stage).map (fun r => min param r.2 - min param r.1)).sum

/-- An FP32 operand of an addition as it enters the sum (R105): an infinity is replaced and counted, and a NaN contributes
zero under SATURATE; the Bool says that it was absorbed. -/
def addend (p : Policy) (v : FVal) : Cnt (FVal × Bool) := do
  let v ← readOperand p 0 v
  if p = .saturate && v = .nan then pure (FVal.zero, true) else pure (v, false)

/-- What a result of an addition adds to the flag (R106). -/
def sumSpecial (v : FVal) : Special :=
  match v with
  | .nan => .nanOut
  | .inf _ => .infOut
  | _ => .none

/-- v added into the gradient-buffer element of a parameter (R98, R300): the state, what was absorbed and flagged, and the
saturations counted (R105 to R107). -/
def State.gradAddParam (s : State) (p : Policy) (param : Nat) (v : FVal) : Bool × Special × Nat × State :=
  match s.gradRegion with
  | some g =>
    let i := s.gradPlace param
    let old := if lookup (fun _ => false) s.job.touched i then ofFP32 (BitVec.ofNat 32 (leNat (s.memBytes (g.addr + 4 * i) 4)))
      else FVal.zero
    let ((z, lost), n) := ((do
      let a ← addend p old
      let b ← addend p v
      pure (← fadd p a.1 b.1, a.2 || b.2) : Cnt (FVal × Bool))).run 0
    let s := s.putMem (g.addr + 4 * i) (leBytes 4 (fp32Bits z).toNat)
    (lost, sumSpecial z, n, { s with job := { s.job with touched := store (fun _ => false) s.job.touched i true } })
  | none => (false, .none, 0, s)

/-- Elements of a bucket (R360). -/
def Charter.bucketElems (c : Charter) : Nat := c.bucket * 2 ^ 18

/-- The buckets of this stage's gradient buffer. -/
def State.allBuckets (s : State) : List Nat :=
  let n := ((s.chart.stageRanges s.stage).map (fun r => r.2 - r.1)).sum
  List.range (ceilDiv n s.chart.bucketElems)

/-- Buckets that the elements lo to hi of the gradient buffer lie in. -/
def Charter.bucketSpan (c : Charter) (lo hi : Nat) : List Nat :=
  (List.range (hi / c.bucketElems + 1 - lo / c.bucketElems)).map (lo / c.bucketElems + ·)

/-- Buckets that rows of an FP32 tensor lie in. -/
def State.rowBuckets (s : State) (x : Tensor) (rows : List Nat) : List Nat :=
  (rows.flatMap (fun r =>
    match s.gradIndex x r 0, s.gradIndex x r (x.rowlen - 1) with
    | some lo, some hi => s.chart.bucketSpan lo hi
    | some lo, none => s.chart.bucketSpan lo lo
    | none, some hi => s.chart.bucketSpan hi hi
    | none, none => [])).eraseDups

/-- Buckets that the parameters of a PARAM tensor's first row lie in. -/
def State.paramBuckets (s : State) (x : Option Tensor) : List Nat :=
  match x with
  | some x => s.chart.bucketSpan (s.gradPlace x.pbase) (s.gradPlace (x.pbase + x.rowlen - 1))
  | none => []

/-- Buckets that a command adds into (R300, R302, R363): the rows of an addition's result, and for LNB and RMSB the
parameters whose gradients they add (R275). -/
def State.addsInto (s : State) (op : Nat) (c : TileCmd) : List Nat :=
  let rows : List Nat := match s.target c with
    | some x =>
      if op = 0x4B || c.add then
        s.rowBuckets x (if op = 0x43 then List.range x.rows else (List.range c.nr).map (c.r0 + ·))
      else []
    | none => []
  let pars := if op = 0x43 && (c.sel == 3 || c.sel == 4) then
      s.paramBuckets (s.tensor c.tb) ++ (if c.sel = 3 then s.paramBuckets (s.tensor c.p2) else [])
    else []
  (rows ++ pars).eraseDups

/-! ### Scale records (R305 to R312) -/

/-- The charter's scaled tensors in the order of its TENSORS section; a record's place in its region is its index
here (log 10). -/
def Charter.scaledIds (c : Charter) : List Nat := (c.tensors.filter (·.scaled)).map (·.id)

/-- Where a tensor's scale record lies. -/
def State.scaleAddr (s : State) (id : Nat) : Option Nat :=
  match s.region 0x0E 0xFFFF, s.chart.scaledIds.findIdx? (fun x => x == id) with
  | some r, some i => some (r.addr + 80 * i)
  | _, _ => none

/-- The 80 bytes of a tensor's scale record; zeros where it has none. -/
def State.scaleRec (s : State) (id : Nat) : List Byte :=
  match s.scaleAddr id with
  | some a => s.memBytes a 80
  | none => zeros 80

/-- A record that is present, valid and whose CRC is right (R312). -/
def scaleOk (r : List Byte) : Bool := (leAt r 71 1).testBit 0 && leAt r 76 4 == (crc32c (r.take 76)).toNat

/-- The exponent of a scale: s is a power of two (R305). -/
def scaleExp (v : FVal) : Int :=
  match v with
  | .num _ m e => if m = 0 then 0 else floorLog2 m 1 + e
  | _ => 0

/-- The exponent of a tensor's scale in force; 0 for a tensor without one (R305). -/
def State.scaleOf (s : State) (x : Tensor) : Int :=
  if x.scaled then
    let r := s.scaleRec x.id
    if scaleOk r then scaleExp (ofFP32 (BitVec.ofNat 32 (leAt r 0 4))) else 0
  else 0

/-- A scaled tensor whose record is lost (R312). -/
def State.scaleLost (s : State) (x : Tensor) : Bool := x.scaled && !scaleOk (s.scaleRec x.id)

/-- A value rounded to FP32 for a record, largest finite where it overflows. -/
def toBits32 (v : FVal) : Nat := (fp32Bits ((toFP32 .saturate v).run 0).1).toNat

/-- The largest of n FP32 entries that end before HEAD. -/
def histMax (hist : List FVal) (head n : Nat) : FVal :=
  blockMax ((List.range n).map (fun i => hist.getD ((head + 15 - i) % 16) FVal.zero))

/-- The largest e with a × 2^e ≤ FMAX ÷ 2^margin (R309); where FMAX is 0 there is none, and the spec states no value
(log 61). -/
def scaleStep (a : FVal) (fmax margin : Nat) : Int :=
  match a with
  | .num _ m e => if fmax = 0 then Config.scaleStepOpen (fp32Bits a) else floorLog2 fmax m - margin - e
  | _ => 0

/-- scale_update of R309: the new record without its flags changed but JIT cleared, and whether the scale fell. -/
def scaleUpdate (r : List Byte) (amax : FVal) (cut : Bool) (desc : W16) (step : Nat) : List Byte × Bool :=
  let head := leAt r 68 1 % 16
  let hist := (List.range 16).map (fun i => if i = head then ofFP32 (BitVec.ofNat 32 (toBits32 amax))
    else ofFP32 (BitVec.ofNat 32 (leAt r (4 + 4 * i) 4)))
  let head' := (head + 1) % 16
  let count := min (leAt r 69 1 + 1) 16
  let margin := leAt r 70 1 % 8
  let old := scaleExp (ofFP32 (BitVec.ofNat 32 (leAt r 0 4)))
  let a := histMax hist head' count
  let e : Int := if a.isZero then old else max (-126) (min 127 (scaleStep a (fmaxOf desc) margin))
  let e := if cut then min e (max (old - 1) (-126)) else e
  let body := leBytes 4 (toBits32 (.num false 1 e)) ++ hist.flatMap (fun v => leBytes 4 (fp32Bits v).toNat)
    ++ leBytes 1 head' ++ leBytes 1 count ++ leBytes 1 (leAt r 70 1) ++ leBytes 1 (leAt r 71 1 &&& 0xFD) ++ leBytes 4 step
  (body ++ leBytes 4 (crc32c body).toNat, decide (e < old))

/-- The cut of R311 on a record whose tensor the closing step did not write, and whether the scale fell: SCALE, STEP, the JIT flag
and the CRC follow scale_update, and the history stays (DEDUCED, log 46). -/
def scaleCut (r : List Byte) (step : Nat) : List Byte × Bool :=
  let old := scaleExp (ofFP32 (BitVec.ofNat 32 (leAt r 0 4)))
  let e := min old (max (old - 1) (-126))
  let body := leBytes 4 (toBits32 (.num false 1 e)) ++ slice r 4 67 ++ leBytes 1 (leAt r 71 1 &&& 0xFD) ++ leBytes 4 step
  (body ++ leBytes 4 (crc32c body).toNat, decide (e < old))

/-- The emptied record of R312. -/
def emptyScale (x : Tensor) : List Byte :=
  leBytes 4 0x3F800000 ++ zeros 64 ++ zeros 2 ++ leBytes 1 x.margin ++ zeros 9

/-- A record's FLAGS replaced, and its CRC. -/
def setScaleFlags (r : List Byte) (flags : Nat) : List Byte :=
  let body := r.take 71 ++ leBytes 1 flags ++ slice r 72 4
  body ++ leBytes 4 (crc32c body).toNat

/-- Just-in-time scaling of a lost record with the amax of the command's first run (R312). -/
def State.jit (s : State) (x : Tensor) (amax : FVal) : State :=
  match s.scaleAddr x.id with
  | some a =>
    let (r, _) := scaleUpdate (emptyScale x) amax false x.desc s.step
    ((s.putMem a (setScaleFlags r 3)).bump F.HUB_CNT_JIT_COUNT 1).event F.HUB_STEPEVT_JIT
  | none => s

/-- What the step has written into a scaled tensor (R308 to R311). -/
def State.use (s : State) (id : Nat) : ScaleUse := lookup (fun _ => {}) s.job.uses id
/-- A use replaced. -/
def State.putUse (s : State) (id : Nat) (u : ScaleUse) : State :=
  { s with job := { s.job with uses := store (fun _ => {}) s.job.uses id u } }

/-- The scale ratio of a command: its own K, a positive finite FP32 value (R75), or in a template s₃ ÷ (s₁ × s₂), which lies in
the FP32 normal range (R306); none where it is not allowed. -/
def State.ratio (s : State) (c : TileCmd) (xa xb xc : Option Tensor) : Option FVal :=
  if c.job && c.k = 0 then
    let e (x : Option Tensor) : Int := (x.map s.scaleOf).getD 0
    let k := e xc - e xa - e xb
    if -126 ≤ k && k ≤ 127 then some (.num false 1 k) else none
  else
    match ofFP32 (BitVec.ofNat 32 c.k) with
    | .num neg m e => if neg || m = 0 then none else some (.num neg m e)
    | _ => none

/-- A command's scale ratio is not allowed (R75, R306). Where the result's record is lost, the ratio is known only once the
command's first run has set its scale (R312). -/
def State.ratioBad (s : State) (c : TileCmd) (xa xb xc : Option Tensor) : Bool :=
  !(c.job && (xc.map s.scaleLost).getD false) && (s.ratio c xa xb xc).isNone

/-! ### Checks -/

/-- The status of the first check that fails, or 0. -/
def firstRefusal (cs : List (Bool × Nat)) : Nat := ((cs.find? (·.1)).map (·.2)).getD 0

/-- A tensor field names a layout whose descriptor is valid and matches (R53, R702). -/
def descBad (x : Option Tensor) (d : Nat) : Bool :=
  match x with
  | some x => !descValid (BitVec.ofNat 16 d) || x.desc != BitVec.ofNat 16 d
  | none => false

/-- Header fields that an opcode does not use (R703), reserved codes (R468) and unit numbers (R472). -/
def headerBad (op : Nat) (c : TileCmd) : Bool :=
  let rse := op = 0x43
  let ope := op = 0x41
  let prod := ope || op = 0x42
  let masked := rse && (c.sel == 2 || c.sel == 5 || c.sel == 6)
  (c.sel != 0 && !(op = 0x40 || rse)) || (rse && c.sel == 7)
    || ((c.lane != 0 || c.shift) && !ope) || (0 < c.lane && c.lane < 4)
    || (c.pair && !rse) || (c.mask && !masked) || (c.transA && !ope) || (c.transB && !prod) || (c.ac && !prod)
    || (c.keep && !ope) || 8 ≤ c.mode || 512 ≤ c.tile

/-- The checks that every tile command takes (R289, R53, R98, R702, R703), before those of its opcode. used says
which of TA, TB and TC the opcode reads and writes. -/
def State.commonRefusal (s : State) (op : Nat) (c : TileCmd) (ua ub uc : Bool) (own : Nat) : Nat :=
  let xa := s.layout c.acc c.ta
  let xb := s.layout c.acc c.tb
  let xc := s.layout c.acc c.tc
  firstRefusal [
    (headerBad op c, 0x12),
    (c.tag == 3, 0x28),
    ((ua && xa.isNone) || (ub && xb.isNone) || (uc && xc.isNone), 0x14),
    ((ua && descBad xa c.da) || (ub && descBad xb c.db) || (uc && descBad xc c.dc), 0x20),
    (c.add && c.dc != 0, 0x20),
    (uc && s.ratioBad c (if ua then xa else none) (if ub then xb else none) xc, 0x20),
    (own != 0, own),
    (accKind c.acc == 0 && uc && (xc.map s.protectedTensor).getD false, 0x13)]

/-! ### Memory errors (R581, R582) -/

/-- The region of this stage that holds a device address. -/
def State.regionOf (s : State) (addr : Nat) : Option Region :=
  s.chart.regions.find? (fun r => r.stage == s.stage && r.stack != 15 && decide (r.addr ≤ addr) && decide (addr < r.addr + r.length))

/-- A corrected error (R581, R579 class 0x05). -/
def State.memCorrected (s : State) (addr : Nat) : State :=
  (s.bump F.RST_CNT_MEMCE_COUNT 1).recordFault 0x05 0x5 (addr / stackBytes) 0

/-- An uncorrectable error, handled by region (R582): a scale record is lost, the memory that recovery rests on leads to
a halt, everything else to rollback. A second one at an address leads to a halt. -/
def State.memUncorrected (s : State) (addr : Nat) : State :=
  let s := (s.bump F.RST_CNT_MEMUE_COUNT 1).event F.RST_EVT_MEMUE
  let again := s.hang.ueSeen.contains addr
  let s : State := { s with hang := { s.hang with ueSeen := if again then s.hang.ueSeen else s.hang.ueSeen ++ [addr] } }
  let stack := addr / stackBytes
  match s.regionOf addr with
  | some r =>
    if again then s.raiseFault 0x10 0x5 stack 0 true
    else if r.kind = 14 then
      (s.putMem (r.addr + (addr - r.addr) / 80 * 80) (zeros 80)).recordFault 0x10 0x5 stack 0
    else s.raiseFault 0x10 0x5 stack 0 (r.kind == 4 || r.kind == 5 || r.kind == 6 || r.kind == 9)
  | none => s.raiseFault 0x10 0x5 stack 0 again

/-- Operand reads pass the injection points 0x13 and 0x14 of their stacks (R573). -/
def State.readsMemory (s : State) (acc : Nat) (xs : List (Option Tensor)) : State :=
  forEach (xs.filterMap (fun x => x.filter (fun y => decide (y.place < 8)))) s (fun s (x : Tensor) =>
    let (ce, s) := s.inject 0x13 x.place 0 0 acc
    let s := if ce then s.memCorrected (stackBytes * x.place + x.base) else s
    let (ue, s) := s.inject 0x14 x.place 0 0 acc
    if ue then s.memUncorrected (stackBytes * x.place + x.base) else s)

end Sys2Proof.Machine
end

