-- ==== Sys2Proof/Machine/Tile.lean ====
section
/-! DEFINITION. How a tile sequencer runs a command (R24, R471): its phase, refusal, numeric results, output
conversion, just-in-time scaling, completion and redundancy; and the commands CONVERT and AMAX.
-/

namespace Sys2Proof.Machine

/-! ### Output -/

/-- A value written NaN by an injection at point 0x0A (R573). -/
def injectNan (k : Nat) (rows : List (Nat × List Elem)) : List (Nat × List Elem) :=
  match rows with
  | [] => []
  | (r, es) :: rs =>
    if k < es.length then (r, es.mapIdx (fun i e => if i = k then { e with val := .nan } else e)) :: rs
    else (r, es) :: injectNan (k - es.length) rs

/-- The true magnitudes of a result, taken before scaling and rounding (R308): the largest finite one. -/
def amaxOf (k : FVal) (e3 : Int) (rows : List (Nat × List Elem)) : FVal :=
  blockMax ((rows.flatMap (·.2)).map (fun e => match (mulExact e.val k).scale (-e3) with
    | .num _ m x => .num false m x
    | _ => FVal.zero))

/-- One row of a result: converted and packed, or added into FP32 elements (R75, R98). -/
def State.rowOut (s : State) (t : Nat) (c : TileCmd) (x : Tensor) (k : FVal) (r : Nat) (es : List Elem) :
    Cnt (List Byte × List (Bool × Special)) := do
  let p := c.policy
  let vs := es.map (fun e => (mulExact e.val k, e.counted))
  if c.add then
    let rs ← (es.zip vs).mapIdxM (fun i ev => do
      let (w, _) ← unlessCounted ev.2.2 (convFloat fmtFP32 p ev.2.1)
      let a ← addend p (s.oldElem t x r i)
      let b ← addend p (ofFP32 (BitVec.ofNat 32 w))
      let z ← fadd p a.1 b.1
      pure (leBytes 4 (fp32Bits z).toNat, (ev.1.absorbed || a.2 || b.2, sumSpecial z)))
    pure (rs.flatMap (·.1), rs.map (·.2))
  else
    let (bs, sps) ← encodeRow x.desc p vs
    pure (bs, List.zipWith (fun e sp => (e.absorbed, sp)) es sps)

/-- The rows of a result written to TC, with the command's status and what a scaled tensor keeps of it (R308,
R310). -/
def State.writeRows (s : State) (t : Nat) (c : TileCmd) (x : Tensor) (k : FVal) (num : NumStat)
    (rows : List (Nat × List Elem)) : NumStat × State :=
  let (num, s) := forEach rows (num, s) (fun (acc : NumStat × State) re =>
    let (num, s) := acc
    let ((bs, fl), n) := (s.rowOut t c x k re.1 re.2).run 0
    let s := if c.add then s.touchRow x re.1 else s
    ((num.addRow re.1 0 fl).addSat n, s.putPlace x.place t (x.base + re.1 * x.pitch) bs))
  (num, s)

/-- Saturations that a result's conversions count (R310). -/
def State.convSat (s : State) (t : Nat) (c : TileCmd) (x : Tensor) (k : FVal) (rows : List (Nat × List Elem)) : Nat :=
  (rows.map (fun re => ((s.rowOut t c x k re.1 re.2).run 0).2)).sum

/-- What a command computes before its output conversion: its rows, the saturations counted so far, the state. -/
abbrev Body := State → List (Nat × List Elem) × Nat × State

/-- The first of the two runs of a job command that writes a tensor whose scale is lost (R312): its scale is set just in
time from the true magnitudes, which no scale of the result enters. -/
def State.justInTime (s : State) (c : TileCmd) (xa xb : Option Tensor) (x : Tensor) (body : Body) : State :=
  if c.job && s.scaleLost x then
    let e (y : Option Tensor) : Int := (y.map s.scaleOf).getD 0
    let k : FVal := if c.k = 0 then .num false 1 (-(e xa) - e xb) else ofFP32 (BitVec.ofNat 32 c.k)
    let (rows, _, s) := body s
    s.jit x (amaxOf k 0 rows)
  else s

/-- A command's result formed and written (R75). -/
def State.produce (s : State) (t : Nat) (c : TileCmd) (xa xb : Option Tensor) (x : Tensor) (body : Body) :
    NumStat × State :=
  let (rows, sat, s) := body s
  let k := (s.ratio c xa xb (some x)).getD (FVal.ofInt 1)
  let (hit, s) := s.injectMany 0x0A t c.acc ((rows.map (fun r => r.2.length)).sum)
  let rows := match hit with
    | some i => injectNan i rows
    | none => rows
  let sats := s.convSat t c x k rows
  let (num, s) := s.writeRows t c x k (NumStat.addSat {} sat) rows
  let s := if x.scaled && c.job then
      let u := s.use x.id
      let a := amaxOf k (s.scaleOf x) rows
      s.putUse x.id { written := true, amax := if FVal.lt u.amax a then a else u.amax, cut := u.cut || sats != 0,
                      svf := u.svf || num.svf }
    else s
  (num, s.traffic t x true rows.length)

/-- The item that runs is a B item. -/
def State.itemBack (s : State) : Bool := ((s.job.item).map (·.1)) == some .backward

/-- The tensors that a command reads, each with the rows that it may read of it (R470, R702). -/
def operandsOf (op : Nat) (c : TileCmd) : List (Nat × Nat) :=
  let a := (c.ta, if c.transA then c.p1 else c.r0 + c.nr)
  let all (id : Nat) : Nat × Nat := (id, 2 ^ 32)
  if op = 0x41 || op = 0x42 then [a, all c.tb]
  else if op = 0x43 then
    if c.sel = 0 then [a, all c.tb, all c.td]
    else if c.sel = 1 || c.sel = 6 then [a, all c.tb]
    else if c.sel = 2 then [a]
    else if c.sel = 5 then [all c.ta, all c.td]
    else [all c.ta, all c.tb, all c.td]
  else if op = 0x49 then []
  else [a]

/-! ### Watched outputs (R315) -/

/-- Rows of the tensors that a layer's forward commands write and none of them reads, with the tile that writes each last
(R315), in row-major order on each tile. DESIGN CHOICE: the spec does not say which of a layer's tensors is its output (log
78). -/
def outputRows (cs : List (Nat × TileCmd)) (layer : Nat) : List (Nat × Nat × Nat) :=
  let cs := cs.filter (fun q => q.2.layer == layer)
  let read (id : Nat) : Bool := cs.any (fun q => (operandsOf q.1 q.2).any (fun o => o.1 == id))
  let writes := cs.filter (fun q => decide (0x40 ≤ q.1) && decide (q.1 ≤ 0x44) && !(q.1 == 0x43 && q.2.sel == 6) && !read q.2.tc)
  let rows := writes.flatMap (fun q => (List.range q.2.nr).map (fun r => (q.2.tile, q.2.tc, q.2.r0 + r)))
  let last := (rows.filter (fun o => !rows.any (fun p => p.2 == o.2 && decide (o.1 < p.1)))).eraseDups
  last.mergeSort (fun a b => decide (a.1 < b.1) || (a.1 == b.1 && (decide (a.2.1 < b.2.1) || (a.2.1 == b.2.1 && decide (a.2.2 ≤ b.2.2)))))

/-- The true values of the rows that a forward command of the job has written for a watched layer, kept for its watchers
(R315). -/
def State.keepOutput (s : State) (c : TileCmd) (x : Tensor) (rows : List Nat) : State :=
  if c.job && !s.itemBack && s.chart.watchers.any (fun w => w.kind == 0 && w.layer == c.layer) then
    let new := rows.map (fun r => ((c.tile, c.tc, r), (List.range x.rowlen).map (fun i => (s.elem c.tile x r i).scale (-(s.scaleOf x)))))
    { s with job := { s.job with layerOut := s.job.layerOut.filter (fun o => !new.any (fun n => n.1.2 == o.1.2)) ++ new } }
  else s

/-! ### Bubbles and buckets -/

/-- A bubble begins (R304), unless one runs. -/
def State.startBubble (s : State) (cause : Nat) : State :=
  if s.job.bubble.isSome then s
  else ((({ s with job := { s.job with bubble := some (cause, s.osc) } } : State).bump F.HUB_CNT_BUBBLE_COUNT 1).setFld
    F.HUB_BUBCAUSE_CAUSE cause)

/-- The bubble that runs ends: its length is added (R304). -/
def State.endBubble (s : State) : State :=
  match s.job.bubble with
  | some (_, t) => ({ s with job := { s.job with bubble := none } } : State).bumpPair F.HUB_BUBBLETIME_LO_TIME F.HUB_BUBBLETIME_HI_TIME
      (s.osc - t)
  | none => s

/-- An addition of this step into a bucket of the only gradient buffer waits until that bucket of an earlier step has
been sent (R303). -/
def State.bufferBusy (s : State) (op : Nat) (c : TileCmd) : Bool :=
  c.job && !s.chart.gbuf && (s.addsInto op c).any (fun b => s.fre.full.any (fun q => q.2 == b && decide (q.1 < s.step)))

/-- The flag bits of the buckets that a command added into (R362, R363). -/
def State.bucketFlags (s : State) (op : Nat) (c : TileCmd) (num : NumStat) : State :=
  let bs := (s.addsInto op c).map (fun b => (s.step, b))
  { s with fre := { s.fre with bsvf := if num.svf then (s.fre.bsvf ++ bs).eraseDups else s.fre.bsvf,
                               bsat := if num.sat = 0 then s.fre.bsat else (s.fre.bsat ++ bs).eraseDups } }

/-- The item that runs is B(m − 1). -/
def State.lastBackward (s : State) : Bool :=
  match s.job.item with
  | some (.backward, n, _) => n + 1 == s.chart.micro
  | _ => false

/-- A command of the running item has completed (R290): in B(m − 1) the buckets whose last addition it was become full
(R302). -/
def State.jobDone (s : State) (op : Nat) (c : TileCmd) : State :=
  if c.job then
    let left := s.job.left.filter (fun q => q.2.acc != c.acc)
    let s : State := { s with job := { s.job with left } }
    if s.lastBackward && decide (s.job.handled ≤ s.step) then
      let full := (s.addsInto op c).filter (fun b => !left.any (fun q => (s.addsInto q.1 q.2).contains b))
      { s with fre := { s.fre with full := s.fre.full ++ full.map (fun b => (s.step, b)) } }
    else s
  else s

/-- The micro-batch of the item that runs. -/
def State.itemMb (s : State) : Nat := ((s.job.item).map (·.2.1)).getD 0

/-! ### The order of commands (R24, R38, R300, R301) -/

/-- Two commands add into the same result: rows of one tensor, or the gradients of one parameter vector. -/
def sharesSum (a b : Nat × TileCmd) : Bool :=
  let adds (q : Nat × TileCmd) : Bool := q.1 == 0x4B || q.2.add
  let norm (q : Nat × TileCmd) : Bool := q.1 == 0x43 && (q.2.sel == 3 || q.2.sel == 4)
  (adds a && adds b && a.2.tc == b.2.tc && decide (a.2.r0 < b.2.r0 + b.2.nr) && decide (b.2.r0 < a.2.r0 + a.2.nr))
    || (norm a && norm b && (a.2.tb == b.2.tb || a.2.p2 == b.2.p2))

/-- Bytes of the inbound activations that a tensor's rows below r take, where it lies in the running item's inbound
queue's region (R410). -/
def State.inboundNeed (s : State) (x : Option Tensor) (r : Nat) (back : Bool) : Nat :=
  match x, s.region (if back then 12 else 10) 0xFFFF with
  | some x, some g =>
    if x.place == g.stack && decide (g.base ≤ x.base) && decide (x.base < g.base + g.length) then
      x.base + (min r x.rows - 1) * x.pitch + x.rowBytes - g.base
    else 0
  | _, _ => 0

/-- Bytes of the inbound activations that a command's operands need. -/
def State.inputNeed (s : State) (op : Nat) (c : TileCmd) (back : Bool) : Nat :=
  ((operandsOf op c).map (fun o => s.inboundNeed (s.layout c.acc o.1) o.2 back)).foldl max 0

/-- The global micro-batch of micro-batch n of the running step (R479). -/
def State.globalMb (s : State) (n : Nat) : Nat := s.step * s.chart.micro + n

/-- A feed has consumed descriptor g: its slot is filled (R479). -/
def State.fedPast (s : State) (f : Feed) (g : Nat) : Bool :=
  let d := (s.fld (F.HAL_FDCONS_COUNT f.ring) + 2 ^ 32 - g % 2 ^ 32) % 2 ^ 32
  d != 0 && decide (d < 2 ^ 31)

/-- This device's feeds. -/
def State.myFeeds (s : State) : List Feed := s.chart.feeds.filter (fun f => f.device == s.devNum)

/-- The feeds that fill a command's tensors have filled the slots of a micro-batch (R291, R479). -/
def State.feedsFilled (s : State) (op : Nat) (c : TileCmd) (n : Nat) : Bool :=
  s.myFeeds.all (fun f => !((operandsOf op c).any (fun o => o.1 == f.tensor)) || s.fedPast f (s.globalMb n))

/-- The rows that a command writes (R470, R702): tensor, first row, end. -/
def resultsOf (op : Nat) (c : TileCmd) : List (Nat × Nat × Nat) :=
  if op = 0x48 || op = 0x4A || op = 0x4B then []
  else if op = 0x45 then [(c.tc, 0, 1)]
  else if op = 0x43 && 3 ≤ c.sel && c.sel ≤ 5 then [(c.tc, 0, 2 ^ 32)]
  else if op = 0x43 && c.sel = 6 then [(c.tc, c.r0, c.r0 + c.nr), (c.td, 0, 1)]
  else [(c.tc, c.r0, c.r0 + c.nr)]

/-- Rows of two tensors of one tile share bytes. -/
def rowsShare (x y : Option Tensor) (p q : Nat × Nat) : Bool :=
  match x, y with
  | some x, some y =>
    let lo (z : Tensor) (r : Nat × Nat) : Nat := z.base + r.1 * z.pitch
    let hi (z : Tensor) (r : Nat × Nat) : Nat := z.base + min r.2 z.rows * z.pitch
    x.place == y.place && decide (lo x p < hi y q) && decide (lo y q < hi x p)
  | _, _ => false

/-- Rows of two tensors of device memory share bytes; tensors of tile stores lie on each tile apart. -/
def rowsMeet (x y : Option Tensor) (p q : Nat × Nat) : Bool :=
  (x.map (·.place)) != some 15 && rowsShare x y p q

/-- A command waits for an earlier one of another tile (R38 steps 4 to 8): it reads rows that the other writes, or it writes,
without adding, rows that the other reads or writes. An addition reads the rows that the other has started (R301). -/
def State.follows (s : State) (op : Nat) (c : TileCmd) (q : Nat × TileCmd) : Bool :=
  let meets (xs ys : List (Nat × Nat × Nat)) : Bool := xs.any (fun x => ys.any (fun y =>
    rowsMeet (s.layout q.2.acc x.1) (s.layout c.acc y.1) x.2 y.2))
  let reads (o : Nat × TileCmd) : List (Nat × Nat × Nat) := (operandsOf o.1 o.2).map (fun r => (r.1, 0, r.2))
  let mine := resultsOf op c
  q.2.tile != c.tile
    && (meets (resultsOf q.1 q.2) (reads (op, c) ++ (if c.add && q.2.add then [] else mine))
      || (!c.add && meets (reads q) mine))

/-- A command's turn: a host command is as its halyard fetched it (R468, R469), and a job command (R24, R30, R38, R301) is one that
the running item has issued, its inputs are here, no earlier command of its tile has still to run, none of another tile whose rows
it takes or replaces, and no lower tile has still to add into its result. -/
def State.issuedCmd (s : State) (op : Nat) (c : TileCmd) : Bool :=
  (!c.job && s.fetchedAs c.acc (· == c.bytes op)) || (c.job && (s.job.left.find? (fun q => q.2.tile == c.tile)) == some (op, c)
    && decide (s.inputNeed op c s.itemBack ≤ s.job.inLoaded) && s.feedsFilled op c s.itemMb
    && !(s.job.left.takeWhile (fun q => q != (op, c))).any (s.follows op c)
    && !s.job.left.any (fun q => decide (q.2.tile < c.tile) && sharesSum q (op, c)))

/-- A command that its tile holds back for its phase, its array or its bucket (R293, R303, R471). -/
def State.waitCmd (s : State) (op : Nat) (c : TileCmd) : State :=
  let y := s.tile c.tile
  if y.seqWait.contains (op, c) then s else s.putTileRec c.tile { y with seqWait := y.seqWait ++ [(op, c)] }

/-- A command stands behind one of its context that its tile holds back (R24). DEDUCED: the order holds within a context,
and a neutral command goes on (R25, R293; log 73). -/
def State.behind (s : State) (op : Nat) (c : TileCmd) : Bool :=
  c.tag != 0 && ((s.tile c.tile).seqWait.takeWhile (fun q => q != (op, c))).any (fun q => accCtx q.2.acc == accCtx c.acc)

/-! ### Statistics groups (R280, R284) -/

/-- Resident and spilled records of a tile. -/
def Tile.records (x : Tile) (spilled : Bool) : Nat :=
  ((x.groups.filter (fun g => g.spilled == spilled)).map (·.count)).sum

/-- TIL_RSE_REC, SPILLED and PEAK follow the groups. -/
def State.rseRegs (s : State) (t : Nat) : State :=
  let x := s.tile t
  let r := x.records false
  let p := x.records true
  let s := (s.setFld (F.TIL_RSE_REC_RESIDENT t) r).setFld (F.TIL_RSE_SPILLED_COUNT t) p
  s.setFld (F.TIL_RSE_PEAK_COUNT t) (max (s.fld (F.TIL_RSE_PEAK_COUNT t)) (r + p))

/-- Groups of a tile replaced. -/
def State.putGroups (s : State) (t : Nat) (gs : List StatGroup) : State :=
  (s.putTileRec t { s.tile t with groups := gs }).rseRegs t

/-- The group that a completed backward command named is released (R284). -/
def State.releaseGroup (s : State) (op : Nat) (c : TileCmd) : State :=
  if op = 0x43 && (c.sel == 3 || c.sel == 4 || c.sel == 5) then
    s.putGroups c.tile ((s.tile c.tile).groups.filter (fun g => g.acc != c.group))
  else s

/-! ### Completion -/

/-- A tile command completes with a status (R108, R109, R473, R630). -/
def State.tileDone (s : State) (op unit : Nat) (c : TileCmd) (status : Nat) (num : NumStat) : State :=
  let s := if status = 0 then (s.releaseGroup op c).numStatus c.tile c.acc c.np num else s
  let nf := nflagsOf num c.np
  let s := s.tally c.tile 0x01 (Config.runBeats s.free)
  let s := s.endCmd c.tile unit c.acc c.layer c.oper status nf num.cause num.sat
  ({ s with free := s.free + 1 }.completeWith c.acc status nf num 0).jobDone op c

/-- A command that a tile sequencer refuses: nothing but its completion and record (R258, R472). -/
def State.tileRefuse (s : State) (op unit : Nat) (c : TileCmd) (status : Nat) : State := s.tileDone op unit c status {}

/-- While suspects are replayed, no context but the one whose replay runs issues on the reset tiles (R604). -/
def State.replayOpen (s : State) (c : TileCmd) : Bool :=
  s.hang.hosts.isEmpty || !s.hang.parts.testBit (partOf c.tile) || (accKind c.acc == 0 && s.hang.replaying == some (accCtx c.acc))

/-- The sequencer may issue a command: no thermal trip is in force (R521), no suspect's replay keeps its tile (R604), and its tag's
phase is open, or no job runs (R289, R293, R471). -/
def State.phaseOpen (s : State) (c : TileCmd) : Bool :=
  !s.flag F.GOV_STAT_TRIP && s.replayOpen c && (!s.job.running || c.tag == 0 || s.fld F.HUB_STEPSTAT_PHASE == c.tag)

/-- Two uses of a scaled tensor in one step together. -/
def ScaleUse.join (u v : ScaleUse) : ScaleUse :=
  { written := u.written || v.written, amax := if FVal.lt u.amax v.amax then v.amax else u.amax, cut := u.cut || v.cut,
    svf := u.svf || v.svf }

/-- A place, address and length that a command writes beside its rows of TC: XENT's loss record, and the gradients of γ and β
(R275, R276). -/
abbrev Range := Nat × Nat × Nat

/-- A command of a suspect tile that awaits its comparison (R563), where s0 is the state before it: its CRC covers its output
bytes in row-major order, the ranges beside them, and completion bytes 10 to 23. Its use of a scaled tensor counts once it
completes. -/
def State.suspend (s s0 : State) (op unit : Nat) (c : TileCmd) (x : Tensor) (rows : List Nat) (beside : List Range)
    (num : NumStat) : State :=
  let rs : List Range := rows.map (fun r => (x.place, x.base + r * x.pitch, x.rowBytes)) ++ beside
  let out := rs.flatMap (fun r => s.placeBytes r.1 c.tile r.2.1 r.2.2)
  let crc := crc32c (out ++ Machine.slice (cplBytes 0 0 (nflagsOf num c.np) num 0) 10 14)
  let y := s.tile c.tile
  let p : RedPend := { op, cmd := c, unit, status := 0, num, crc, old := rs.map (fun r => (r.1, r.2.1, s0.placeBytes r.1 c.tile r.2.1 r.2.2)),
                       touched := (s.job.touched.map (·.1)).filter (fun k => !lookup (fun _ => false) s0.job.touched k),
                       loss := lookup (fun _ => (0, 0)) s0.job.lossTile c.tile,
                       use := if x.scaled && c.job then some (x.id, s.use x.id) else none, start := y.start }
  let s := (s.putUse x.id (s0.use x.id)).putTileRec c.tile { y with redPend := y.redPend ++ [p] }
  if c.job then s else s.halStat (accSource c.acc)

/-- A suspended command whose comparison did not find its tile wrong completes (R563). -/
def State.releasePend (s : State) (p : RedPend) : State :=
  let s := s.bucketFlags p.op p.cmd p.num
  let s := match p.use with
    | some (id, u) => s.putUse id ((s.use id).join u)
    | none => s
  s.tileDone p.op p.unit p.cmd p.status p.num

/-- A failed suspect's output discarded (R564): its bytes, its group, the gradient elements and the loss that it reached. -/
def State.discardPend (s : State) (t : Nat) (p : RedPend) : State :=
  let s := forEach p.old s (fun s q => s.putPlace q.1 t q.2.1 q.2.2)
  let s := s.putGroups t ((s.tile t).groups.filter (fun g => g.acc != p.cmd.acc))
  let j := s.job
  let s : State := { s with job := { j with
    touched := p.touched.foldl (fun m k => store (fun _ => false) m k false) j.touched,
    lossTile := if p.cmd.job then store (fun _ => (0, 0)) j.lossTile t p.loss else j.lossTile,
    layerOut := j.layerOut.filter (fun o => !(p.cmd.job && o.1.1 == t && o.1.2.1 == p.cmd.tc)) } }
  s.tileDone p.op p.unit p.cmd p.status p.num

/-- Suspended commands of a tile dropped, without an effect of theirs: their pages and records end with a status (R623, R630). -/
def State.dropPend (s : State) (t status : Nat) (drop : RedPend → Bool) : State :=
  let x := s.tile t
  forEach (x.redPend.filter drop) (s.putTileRec t { x with redPend := x.redPend.filter (fun p => !drop p) }) (fun s p =>
    (s.takeUp t p.cmd.acc p.start).endCmd t p.unit p.cmd.acc p.cmd.layer p.cmd.oper status 0 0 0)

/-- A tile command run by its sequencer (R24, R25): it waits for its phase, is refused, or runs. outRows are the rows
of TC that it writes, and beside what it writes beside them. dup says that full redundancy duplicates the command (R563); from'
is the command as it was issued, where c carries a bit more. -/
def State.runTile (s : State) (op unit : Nat) (c : TileCmd) (refusal : Nat) (xa xb xc : Option Tensor)
    (outRows : List Nat) (dup : Bool) (body : Body) (after : NumStat × State → NumStat × State) (from' : TileCmd := c)
    (beside : List Range := []) : State :=
  if !s.mayStart c.acc || !s.issuedCmd op from' || s.power.short.isSome then s
  else if refusal != 0 then s.tileRefuse op unit c refusal
  else if !s.phaseOpen c || s.bufferBusy op c || s.behind op from' then
    let s := s.waitCmd op from'
    if s.bufferBusy op c then s.startBubble 3 else s
  else
    let red := dup && s.flag (F.TIL_REDSTAT_ON c.tile)
    let s0 := s
    let s := (s.beginCmd c.tile unit c.acc c.layer c.oper (c.bytes op)).readsMemory c.acc [xa, xb]
    match xc with
    | some x =>
      let s := s.justInTime c xa xb x body
      if (s.ratio c xa xb (some x)).isNone then s0.tileRefuse op unit c 0x20
      else
        let s1 := s
        let (num, s) := after (s.produce c.tile c xa xb x body)
        let s := s.keepOutput c x outRows
        if red then s.suspend s1 op unit c x outRows beside num
        else (s.bucketFlags op c num).tileDone op unit c 0 num
    | none => (after ({}, s)).2.tileDone op unit c 0 {}

/-- The rows R0 to R0 + NR − 1 of a command. -/
def tileRows (c : TileCmd) : List Nat := (List.range c.nr).map (c.r0 + ·)

/-! ### Commands -/

/-- CONVERT's refusal (R702). -/
def State.convertRefusal (s : State) (c : TileCmd) : Nat :=
  let own := match s.layout c.acc c.ta, s.layout c.acc c.tc with
    | some xa, some xc => b2n (xa.rowlen != xc.rowlen || decide (xa.rows < c.r0 + c.nr) || decide (xc.rows < c.r0 + c.nr)) * 0x14
    | _, _ => 0
  s.commonRefusal 0x44 c true false true own

/-- CONVERT's elements: the source's exact values; conversions apply R81 under both policies (R75, R105). -/
def convertBody (c : TileCmd) (x : Tensor) : Body := fun s =>
  let s := s.traffic c.tile x false c.nr
  ((tileRows c).map (fun r => (r, (List.range x.rowlen).map (fun i => { val := s.elem c.tile x r i }))), 0, s)

/-- CONVERT run on its tile. -/
def State.convert (s : State) (c : TileCmd) : State :=
  let xa := (s.layout c.acc c.ta).map (s.fed c)
  s.runTile 0x44 14 c (s.convertRefusal c) xa none (s.target c) (tileRows c) true
    (convertBody c (xa.getD {})) id

/-- CONVERT (R75): each element rounded once to the target format. -/
def execConvert (c : TileCmd) (s : State) : Outcome := act s fun s => s.convert c

/-- AMAX's refusal (R702). -/
def State.amaxRefusal (s : State) (c : TileCmd) : Nat :=
  let own := match s.layout c.acc c.ta, s.layout c.acc c.tc with
    | some xa, some xc =>
      firstRefusal [(xc.rows != 1 || xc.rowlen != 1 || decide (xa.rows < c.r0 + c.nr), 0x14), (c.dc != 0, 0x20)]
    | _, _ => 0
  s.commonRefusal 0x45 c true false true own

/-- AMAX's one element: the largest magnitude of the rows read; a NaN is absorbed, or under PROPAGATE is the result
(DESIGN CHOICE, log 13: the spec names the command and not its special values). -/
def amaxBody (c : TileCmd) (x : Tensor) : Body := fun s =>
  let s := s.traffic c.tile x false c.nr
  let (rows, n) := (s.readRows c.tile c.policy x c.r0 c.nr x.rowlen).run 0
  let vs := rows.flatten
  let anyNan := vs.any (· = .nan)
  let v := if anyNan && c.policy = .propagate then FVal.nan else blockMax vs
  ([(0, [{ val := v, absorbed := anyNan && c.policy = .saturate }])], n, s)

/-- AMAX run on its tile. -/
def State.amaxCmd (s : State) (c : TileCmd) : State :=
  let xa := (s.layout c.acc c.ta).map (s.fed c)
  s.runTile 0x45 14 c (s.amaxRefusal c) xa none (s.target c) [0] true (amaxBody c (xa.getD {})) id

/-- AMAX (R470, R702): the largest magnitude of the rows of TA. -/
def execAmax (c : TileCmd) (s : State) : Outcome := act s fun s => s.amaxCmd c

end Sys2Proof.Machine
end

