-- ==== Sys2Proof/Machine/Segments.lean ====
section
/-! DEFINITION. Segments of the reduction tree and their credit (R361 to R372): which segments a rank sends and receives, the
store slots in use, and when a segment may leave.
-/

namespace Sys2Proof.Machine

/-! ### Shards (R321) -/

/-- A shard of the job with its number. -/
abbrev NumShard := Nat × Shard

/-- The charter's shards with their numbers. -/
def Charter.numShards (c : Charter) : List NumShard := c.shards.mapIdx (fun i x => (i, x))

/-! ### The reduction tree (R364, R365) -/

/-- ⌈log₂ d⌉. -/
def clog2 (d : Nat) : Nat := if d ≤ 1 then 0 else (d - 1).log2 + 1

/-- The rank that hosts the subtree of 2^h ranks with index idx, for an owner rank o among d ranks (R365). -/
def hostRank (o d : Nat) : Nat → Nat → Nat
  | 0, idx => idx
  | h + 1, idx =>
    if d ≤ (2 * idx + 1) * 2 ^ h then hostRank o d h (2 * idx)
    else if o.testBit h then hostRank o d h (2 * idx + 1)
    else hostRank o d h (2 * idx)

/-- The rank that owns a shard. -/
def State.ownerRank (s : State) (x : Shard) : Nat :=
  ((s.chart.devices.find? (fun d => d.device == x.device)).getD {}).rank

/-- The device of this stage at a rank. -/
def State.rankDevice (s : State) (r : Nat) : Nat := s.chart.deviceAt s.stage r

/-- This rank's value at a level of the tree is its leaf, which no addition has touched: no other rank lies below it (R364). It
stands in the gradient buffer (R369). -/
def State.leafLevel (s : State) (h : Nat) : Bool :=
  (List.range h).all (fun l => decide (s.chart.replicas ≤ (s.rank / 2 ^ l ^^^ 1) * 2 ^ l))

/-- A message of this device that carries a result sent onward (R367, R371): a value that is no leaf. -/
def State.sentOnward (s : State) (m : Msg) : Bool := m.src == s.devNum && m.cls == 1 && !s.leafLevel (leAt m.payload 18 1)

/-- Store slots in use (R371): received segments, partial sums, roots awaiting delivery, and results sent onward that wait
for credit or that the link has not acknowledged. A leaf holds none. -/
def State.slotsUsed (s : State) : Nat :=
  (s.fre.slots.filter (fun x => !x.own || !s.leafLevel x.level)).length
    + (s.fre.out.filter (fun o => !s.leafLevel (leAt o.payload 18 1))).length
    + (s.fab.wait.filter s.sentOnward).length
    + ((List.range 32).map (fun p => ((s.port p).msgs.filter s.sentOnward).length)).sum

/-- The peak of the slots in use kept (R385). -/
def State.freSlots (s : State) : State := s.setFld F.FRE_SLOTPEAK_PEAK (max (s.fld F.FRE_SLOTPEAK_PEAK) s.slotsUsed)

/-- FRE_EVT of a segment sent, received or delivered. -/
def State.freFlags (s : State) (svf sat : Bool) : State :=
  let s := if svf then s.event F.FRE_EVT_SVF else s
  if sat then s.event F.FRE_EVT_SAT else s

/-- The bytes of a reduction-class or parameter-class message (R367). -/
def segmentBytes (step shard offset count level flags bucket : Nat) (data : List Byte) : List Byte :=
  let h := leBytes 8 step ++ leBytes 4 shard ++ leBytes 4 offset ++ leBytes 2 (count - 1) ++ leBytes 1 level
    ++ leBytes 1 flags ++ leBytes 4 bucket ++ zeros 4
  h ++ leBytes 4 (crc32c (h ++ data)).toNat ++ data

/-- The segments of a bucket in the order of R361 and R362: shard number, offset in the shard, elements, and the place
in the gradient buffer. -/
def State.bucketSegments (s : State) (b : Nat) : List (Nat × Nat × Nat × Nat) :=
  let e := s.chart.bucketElems
  (s.chart.numShards.filter (fun x => s.chart.devices.any (fun d => d.device == x.2.device && d.stage == s.stage))).flatMap
    (fun x =>
      let g := s.gradPlace x.2.first
      let lo := max g (b * e)
      let hi := min (g + x.2.length) ((b + 1) * e)
      (List.range (ceilDiv (hi - lo) 16384)).map (fun i =>
        let p := lo + 16384 * i
        (x.1, p - g, min 16384 (hi - p), p)))

/-- The key of a segment's message (R367). -/
def segKey (payload : List Byte) : SegKey :=
  { step := leAt payload 0 8, bucket := leAt payload 20 4, shard := leAt payload 8 4, offset := leAt payload 12 4,
    level := leAt payload 18 1 }

/-- The segments of a step that this rank sends, in ascending key, with the devices that host their nodes (R365): one for each node
with two children, one of them hosted here, that another rank hosts. -/
def State.segmentsOut (s : State) (step : Nat) : List (SegKey × Nat) :=
  let d := s.chart.replicas
  s.allBuckets.flatMap (fun b => (s.bucketSegments b).flatMap (fun q =>
    let o := s.ownerRank (s.chart.shards.getD q.1 {})
    (List.range (clog2 d)).filterMap (fun h =>
      let i := s.rank / 2 ^ (h + 1)
      let host := hostRank o d (h + 1) i
      if host ≠ s.rank && hostRank o d h (s.rank / 2 ^ h) == s.rank && decide ((2 * i + 1) * 2 ^ h < d) then
        some ({ step, bucket := b, shard := q.1, offset := q.2.1, level := h }, s.rankDevice host)
      else none)))

/-- A segment to a device may leave (R371, R372): slots are reserved there in ascending key, so the credits held belong to the
lowest keys that this rank has still to send to it. -/
def State.mayLeave (s : State) (o : OutSeg) : Bool :=
  let due := (s.segmentsOut s.job.handled ++ s.segmentsOut (s.job.handled + 1)).filter (fun k =>
    k.2 == o.dest && !s.fre.gone.contains k.1)
  decide ((due.takeWhile (fun k => k.1 != segKey o.payload)).length < lookup (fun _ => 0) s.fre.credit o.dest)

/-- A segment leaves with a credit of its destination. -/
def State.leave (s : State) (o : OutSeg) : State :=
  let f := s.fre
  { s with fre := { f with gone := f.gone ++ [segKey o.payload],
                           credit := store (fun _ => 0) f.credit o.dest (lookup (fun _ => 0) f.credit o.dest - 1) } }.sendOn o.dest 1
    (o.stream.getD (leAt o.payload 8 4 % 2 ^ 16)) o.payload

/-- A segment sent, or kept until it has credit (R371, R372). -/
def State.sendSegment (s : State) (dest : Nat) (payload : List Byte) (stream : Option Nat := none) : State :=
  let o : OutSeg := { dest, payload, stream }
  if s.mayLeave o then s.leave o
  else ({ s with fre := { s.fre with out := s.fre.out ++ [o] } } : State).bump F.FRE_CNT_SLOTWAIT_COUNT 1

/-- The waiting segments that have credit leave, with fuel. -/
def State.flushSegments (fuel : Nat) (s : State) : State :=
  match fuel with
  | 0 => s
  | f + 1 =>
    match s.fre.out.find? s.mayLeave with
    | some o => State.flushSegments f (({ s with fre := { s.fre with out := s.fre.out.erase o } } : State).leave o)
    | none => s

end Sys2Proof.Machine
end

