-- ==== Sys2Proof/Machine/Stash.lean ====
section
/-! DEFINITION. The activation stash (R295 to R299), gradient accumulation (R300, R301) and the inter-stage queues (R410
to R414): the job commands STASH, UNSTASH, SEND and GRADADD, and the events ACTIVATION_MESSAGE and CREDIT_RETURN.
-/

namespace Sys2Proof.Machine

/-! ### Items and their templates (R290, R393) -/

/-- Templates of a stage's F (kind 1) or B (kind 2) item: each entry belongs to the nearest marker before it (R393). -/
def templatesOf (stage kind : Nat) : Bool → List ProgEntry → List (Nat × TileCmd)
  | _, [] => []
  | on, e :: es =>
    if e.marker then templatesOf stage kind (e.stage == stage && e.kind == kind) es
    else if on then tileOfBytes (leBytes 64 e.word) :: templatesOf stage kind on es
    else templatesOf stage kind on es

/-- This stage's templates of a kind. -/
def State.templates (s : State) (kind : Nat) : List (Nat × TileCmd) := templatesOf s.stage kind false s.chart.program

/-! ### Zero-run compression (R296, R297) -/

/-- Bytes of a granule. -/
def granuleBytes (d : W16) : Nat := if descCode d = 12 then 9 else 16
/-- A granule is zero when all of its bytes are 0x00. -/
def zeroGranule (g : List Byte) : Bool := g.all (· == 0)
/-- How many granules at the head are alike. -/
def runLength (z : Bool) : List (List Byte) → Nat
  | [] => 0
  | g :: gs => if zeroGranule g == z then runLength z gs + 1 else 0

/-- The token stream of a page's granules, with fuel. -/
def pageTokens : Nat → List (List Byte) → List Byte
  | 0, _ => []
  | _, [] => []
  | f + 1, g :: gs =>
    let z := zeroGranule g
    let n := min 128 (runLength z (g :: gs))
    let rest := pageTokens f ((g :: gs).drop n)
    if z then leBytes 1 (128 + (n - 1)) ++ rest else leBytes 1 (n - 1) ++ ((g :: gs).take n).flatten ++ rest

/-- A page: header, tokens, zero padding to 16 bytes. DEDUCED: the length that the header holds is the page's, its
header counted and its padding not (log 17). -/
def pageOf (gs : List (List Byte)) : List Byte :=
  let ts := pageTokens gs.length gs
  padTo (roundUp (4 + ts.length) 16) 0 (leBytes 2 (4 + ts.length) ++ zeros 2 ++ ts)

/-- A tensor's bytes cut into pages of 256 granules; a last granule that is short is filled with zeros. -/
def pagesOf (d : W16) (bs : List Byte) : List (List (List Byte)) :=
  chunks 256 ((chunks (granuleBytes d) bs).map (padTo (granuleBytes d) 0))

/-- Offsets of pages from the first. -/
def pageOffsets : Nat → List (List Byte) → List Nat
  | _, [] => []
  | o, p :: ps => o :: pageOffsets (o + p.length) ps

/-- A stashed tensor as it lies in the ring: its pages, then its page index. -/
def compress (d : W16) (bs : List Byte) : List Byte :=
  let ps := (pagesOf d bs).map pageOf
  ps.flatten ++ (pageOffsets 0 ps).flatMap (leBytes 4)

/-- The granules that a token stream holds, with fuel. -/
def readTokens (g : Nat) : Nat → List Byte → List Byte
  | 0, _ => []
  | _, [] => []
  | f + 1, b :: bs =>
    let n := b.toNat % 128 + 1
    if b.toNat < 128 then bs.take (n * g) ++ readTokens g f (bs.drop (n * g)) else zeros (n * g) ++ readTokens g f bs

/-- The tensor bytes of stored pages, with the number of pages left. -/
def decompress (d : W16) : Nat → List Byte → List Byte
  | 0, _ => []
  | n + 1, bs =>
    let len := leAt bs 0 2 - 4
    readTokens (granuleBytes d) (len + 1) (slice bs 4 len) ++ decompress d n (bs.drop (roundUp (4 + len) 16))

/-- Pages of so many tensor bytes. -/
def pageCount (d : W16) (n : Nat) : Nat := ceilDiv (ceilDiv n (granuleBytes d)) 256

/-- The worst-case size of a stashed tensor (R298). -/
def stashWorst (d : W16) (n : Nat) : Nat :=
  let g := granuleBytes d
  let gs := ceilDiv n g
  let page (k : Nat) : Nat := roundUp (k * g + 6) 16
  (gs / 256) * page 256 + (if gs % 256 = 0 then 0 else page (gs % 256)) + 4 * ceilDiv gs 256 + 16

/-- What F(n) stashes on a half at worst (R298): the STASH templates of the half's tiles. -/
def State.stashNeed (s : State) (half : Nat) : Nat :=
  ((s.templates 1).map (fun q =>
    if q.1 = 0x48 && halfOf q.2.tile == half then
      match s.tensor q.2.ta with
      | some x => stashWorst x.desc (q.2.nr * x.rowBytes)
      | none => 0
    else 0)).sum

/-! ### The rings (R298, R299) -/

/-- A half's stash ring. -/
def State.stashRing (s : State) (half : Nat) : List StashRes := if half = 0 then s.job.stash0 else s.job.stash1
/-- A ring replaced, with its occupancy and the peak. -/
def State.putStash (s : State) (half : Nat) (q : List StashRes) : State :=
  let occ := (q.map (·.bytes)).sum / 16
  let s : State := if half = 0 then { s with job := { s.job with stash0 := q } } else { s with job := { s.job with stash1 := q } }
  (s.setFld (if half = 0 then F.HUB_STASHOCC0_BYTES else F.HUB_STASHOCC1_BYTES) occ).setFld F.HUB_STASHPEAK_BYTES
    (max (s.fld F.HUB_STASHPEAK_BYTES) occ)

/-- Bytes of a half's ring. -/
def State.stashRoom (s : State) (half : Nat) : Nat := ((s.region 1 half).map (·.length)).getD 0

/-- F(n) fits a half's free ring space (R299). -/
def State.stashFits (s : State) (half : Nat) : Bool :=
  decide (((s.stashRing half).map (·.bytes)).sum + s.stashNeed half ≤ s.stashRoom half)

/-- F(n) reserves its worst-case size at the tail of a half's ring (R298). -/
def State.stashReserve (s : State) (half mb : Nat) : State :=
  let q := s.stashRing half
  let tail : Nat := match q.getLast? with
    | some r => roundUp (r.tail + r.bytes) 16 % max 16 (s.stashRoom half)
    | none => 0
  s.putStash half (q ++ [{ mb, bytes := s.stashNeed half, tail, used := 0, items := [] }])

/-- F(n) completes: its reservation shrinks to the bytes written (R298). -/
def State.stashShrink (s : State) (half mb : Nat) : State :=
  s.putStash half ((s.stashRing half).map (fun r => if r.mb = mb then { r with bytes := r.used } else r))

/-- B(n) completes: its space is released (R298). -/
def State.stashRelease (s : State) (half mb : Nat) : State :=
  s.putStash half ((s.stashRing half).filter (fun r => r.mb != mb))

/-- Bytes written at a position of a ring, which wraps. -/
def State.putRing (s : State) (r : Region) (pos : Nat) (bs : List Byte) : State :=
  let n := min bs.length (r.length - pos % r.length)
  (s.putMem (r.addr + pos % r.length) (bs.take n)).putMem r.addr (bs.drop n)

/-- Bytes read at a position of a ring. -/
def State.ringBytes (s : State) (r : Region) (pos n : Nat) : List Byte :=
  let k := min n (r.length - pos % r.length)
  s.memBytes (r.addr + pos % r.length) k ++ s.memBytes r.addr (n - k)

/-- The packed bytes of rows of a tensor. -/
def State.rowsBytes (s : State) (t : Nat) (x : Tensor) (r0 nr : Nat) : List Byte :=
  (List.range nr).flatMap (fun r => s.placeBytes x.place t (x.base + (r0 + r) * x.pitch) x.rowBytes)

/-- The name under which a tensor's rows lie in the stash. -/
def stashKey (id r0 : Nat) : Nat := id + 2 ^ 32 * r0

/-- A tensor's rows written to the stash of the running item (R296 to R298). -/
def State.stashRows (s : State) (c : TileCmd) (x : Tensor) : State :=
  let h := halfOf c.tile
  match s.region 1 h with
  | some g =>
    let bs := compress x.desc (s.rowsBytes c.tile x c.r0 c.nr)
    let q := s.stashRing h
    match q.find? (fun r => r.mb == s.itemMb) with
    | some r =>
      let pos := r.tail + r.used
      let s := s.putRing g pos bs
      let r' := { r with used := r.used + roundUp bs.length 16, items := r.items ++ [(stashKey c.ta c.r0, c.tile, pos, bs.length)] }
      (s.putStash h (q.map (fun y => if y.mb = r.mb then r' else y))).tally c.tile 0x43 bs.length
    | none => s
  | none => s

/-- Rows written with the bytes given. -/
def State.putRows (s : State) (t : Nat) (x : Tensor) (r0 : Nat) (bs : List Byte) : State :=
  let rows := chunks (max 1 x.rowBytes) bs
  (rows.zipIdx).foldl (fun (s : State) (q : List Byte × Nat) => s.putPlace x.place t (x.base + (r0 + q.2) * x.pitch) q.1) s

/-- A stashed tensor's rows read back (R296, R297): the item of the running micro-batch with the same tensor and first
row, of the same tile where the tensor lies in tile stores. -/
def State.unstashRows (s : State) (c : TileCmd) (x : Tensor) : State :=
  let h := halfOf c.tile
  match s.region 1 h, (s.stashRing h).find? (fun r => r.mb == s.itemMb) with
  | some g, some r =>
    match r.items.find? (fun i => i.1 == stashKey c.tc c.r0 && (x.place != 15 || i.2.1 == c.tile)) with
    | some (_, _, pos, len) =>
      let n := c.nr * x.rowBytes
      let bs := (decompress x.desc (pageCount x.desc n) (s.ringBytes g pos len)).take n
      (s.putRows c.tile x c.r0 bs).tally c.tile 0x42 len
    | none => s
  | _, _ => s

/-! ### Activations (R410 to R413) -/

/-- Messages of up to 64 KiB for the bytes of a SEND, in ascending offset from the first. -/
def sendMessages (dest mb tensor off : Nat) (bs : List Byte) : List ActMsg :=
  (chunks 65536 bs).mapIdx (fun i b => { dest, mb, tensor, off := off + 65536 * i, bytes := b })

/-- An outbound queue: forward or backward. -/
def State.outbound (s : State) (back : Bool) : List ActMsg := if back then s.job.bout else s.job.fout
/-- Queue depths (R415). DESIGN CHOICE: a depth above the field shows its largest value (log 18). -/
def State.queueDepths (s : State) : State :=
  let d (q : List ActMsg) : Nat := min q.length 0xFFFF
  (((s.setFld F.HUB_QFWD_OUT (d s.job.fout)).setFld F.HUB_QFWD_IN (d s.job.fin)).setFld F.HUB_QBWD_OUT
    (d s.job.bout)).setFld F.HUB_QBWD_IN (d s.job.bin)

/-- Region kinds of the queues (R396, R410): inbound and outbound, forward and backward. -/
def inboundKind (back : Bool) : Nat := if back then 12 else 10
def outboundKind (back : Bool) : Nat := if back then 13 else 11

/-- A queue's messages stand back to back in its region from a position; what the region does not hold stands nowhere in
memory. DESIGN CHOICE: the spec gives the region and no layout (log 18). -/
def State.putQueue (s : State) (kind pos : Nat) (q : List ActMsg) : State :=
  match s.region kind 0xFFFF with
  | some g => s.putMem (g.addr + pos) ((q.flatMap (·.bytes)).take (g.length - pos))
  | none => s

/-- An outbound queue replaced; its messages stand in its region (R410). -/
def State.putOutbound (s : State) (back : Bool) (q : List ActMsg) : State :=
  (({ s with job := if back then { s.job with bout := q } else { s.job with fout := q } } : State).queueDepths).putQueue
    (outboundKind back) 0 q

/-- Credits held for a direction (R411). -/
def State.credit (s : State) (back : Bool) : Nat := if back then s.job.creditB else s.job.creditF
/-- Where HUB_CREDIT shows them. -/
def creditFld (back : Bool) : Fld := if back then F.HUB_CREDIT_BWD else F.HUB_CREDIT_FWD
/-- Credits of a direction replaced. DESIGN CHOICE: a number above the field shows its largest value (log 18). -/
def State.putCredit (s : State) (back : Bool) (n : Nat) : State :=
  ({ s with job := if back then { s.job with creditB := n } else { s.job with creditF := n } } : State).setFld (creditFld back)
    (min n 0xFFFF)
/-- No credit is held: at job start the receivers grant them anew (R411). -/
def State.dropCredits (s : State) : State := (s.putCredit false 0).putCredit true 0

/-- The payload of an activation message: its micro-batch, its tensor and its offset, then its bytes. DESIGN CHOICE: the
spec gives the class and the size and no layout (log 18). -/
def ActMsg.payload (m : ActMsg) : List Byte := leBytes 4 m.mb ++ leBytes 4 m.tensor ++ leBytes 8 m.off ++ m.bytes

/-- The time that the head of a queue has waited for credit is added (R413). -/
def State.creditWaitEnd (s : State) (back : Bool) : State :=
  match (if back then s.job.bwait else s.job.fwait) with
  | some t =>
    let s : State := { s with job := if back then { s.job with bwait := none } else { s.job with fwait := none } }
    s.bumpPair F.HUB_CREDITTIME_LO_TIME F.HUB_CREDITTIME_HI_TIME (s.osc - t)
  | none => s

/-- The head of a queue begins to wait for credit. -/
def State.creditWaitBegin (s : State) (back : Bool) : State :=
  if (if back then s.job.bwait else s.job.fwait).isSome then s
  else { s with job := if back then { s.job with bwait := some s.osc } else { s.job with fwait := some s.osc } }

/-- A queue's head is the next in its order (R411): of the running item, the message at the first byte not yet sent. -/
def State.nextOut (s : State) (back : Bool) (m : ActMsg) : Bool :=
  !(s.job.item.isSome && s.itemBack == back && s.itemMb == m.mb) || m.off == s.job.outSent

/-- A message that finds no credit is counted once (R413). -/
def State.countWait (s : State) (m : ActMsg) : State := if m.waited then s else s.bump F.HUB_CNT_CREDITWAIT_COUNT 1

/-- Outbound messages sent while credit is held, in ascending micro-batch and ascending offset (R411), with fuel. -/
def State.flushOut (fuel : Nat) (s : State) (back : Bool) : State :=
  match fuel with
  | 0 => s
  | f + 1 =>
    match s.outbound back with
    | [] => s
    | m :: ms =>
      if !s.nextOut back m then s
      else if s.credit back = 0 then ((s.countWait m).putOutbound back ({ m with waited := true } :: ms)).creditWaitBegin back
      else
        let here := s.job.item.isSome && s.itemBack == back && s.itemMb == m.mb
        let s : State := if here then { s with job := { s.job with outSent := s.job.outSent + m.bytes.length } } else s
        let s := ((s.creditWaitEnd back).putCredit back (s.credit back - 1)).putOutbound back ms
        State.flushOut f (s.sendOn m.dest 3 (b2n back) m.payload) back

/-- Stage 0 has no backward outbound queue, the last stage no forward one (R410). -/
def State.hasOut (s : State) (back : Bool) : Bool := if back then s.stage != 0 else decide (s.stage + 1 < s.chart.stages)

/-- A message's place in its queue: ascending micro-batch, then ascending offset (R411). -/
def ActMsg.key (m : ActMsg) : Nat := 2 ^ 64 * m.mb + m.off

/-- A message put into its outbound queue in the order in which the queue is sent (R411); one that finds no credit is counted
(R413). -/
def State.enqueueOut (s : State) (back : Bool) (m : ActMsg) : State :=
  let none' := s.credit back == 0
  let m' : ActMsg := { m with waited := m.waited || none' }
  let q := s.outbound back
  let s := (if none' then s.countWait m else s).putOutbound back
    (q.filter (fun x => decide (x.key ≤ m.key)) ++ [m'] ++ q.filter (fun x => decide (m.key < x.key)))
  s.flushOut (s.outbound back).length back

/-- The first byte of a SEND in the output stream of its item's micro-batch (R411): the SENDs of activations before it in the
item's templates come before it. -/
def State.sendOffset (s : State) (c : TileCmd) : Nat :=
  let q := s.templates (if s.itemBack then 2 else 1)
  let i := (c.acc + 2 ^ 48 + q.length - s.job.issued % 2 ^ 48) % 2 ^ 48
  ((q.take i).map (fun o =>
    if o.1 = 0x4A && o.2.p2 == 3 then o.2.nr * ((s.tensor o.2.ta).map (·.rowBytes)).getD 0 else 0)).sum

/-- Where a SEND of activations goes (R388): to the device of this rank at the stage of the device that its template
names. -/
def State.peer (s : State) (dest : Nat) : Nat :=
  match s.chart.devices.find? (fun d => d.device == dest) with
  | some d => s.chart.deviceAt d.stage s.rank
  | none => dest

/-- The STREAM of a SEND in the reduction or parameter class (R431): the shard of its first element's parameter; 0 for a tensor
that holds no parameters (DEDUCED, log 18). -/
def State.shardStream (s : State) (c : TileCmd) (x : Tensor) : Nat :=
  let p := x.pbase + c.r0 * x.rowlen
  if x.param then
    ((s.chart.numShards.find? (fun q => decide (q.2.first ≤ p) && decide (p < q.2.first + q.2.length))).map (·.1)).getD 0 % 2 ^ 16
  else 0

/-- A SEND's bytes leave (R38 step 7, R410, R430, R431), cut into messages of up to 64 KiB: activations through the outbound queue
of the running item, the reduction class with store-slot credit (R371), any other class at once. DESIGN CHOICE: activations sent
by an item whose stage has no such queue go nowhere (log 18). -/
def State.sendRows (s : State) (c : TileCmd) (x : Tensor) : State :=
  let bs := s.rowsBytes c.tile x c.r0 c.nr
  if c.p2 = 3 then
    let back := s.itemBack
    if !s.hasOut back then s
    else forEach (sendMessages (s.peer c.p1) s.itemMb c.ta (s.sendOffset c) bs) s (fun s m => s.enqueueOut back m)
  else forEach (chunks 65536 bs) s (fun s b =>
    if c.p2 = 1 then s.sendSegment c.p1 b (some (s.shardStream c x))
    else s.sendOn c.p1 c.p2 (if c.p2 = 4 then c.tile else if c.p2 = 2 then s.shardStream c x else 0) b)

/-- One credit granted to a sender of activations (R411). DESIGN CHOICE: a control-class message of kind 0x80 with the
direction (log 18). -/
def State.grantCredit (s : State) (dest : Nat) (back : Bool) (n : Nat) : State :=
  s.sendCtrl dest 0x80 s.step (leBytes 1 (b2n back) ++ zeros 3 ++ leBytes 4 n)

/-- The device of this rank at the stage before (activations) or after (data gradients), which sends to this one. -/
def State.feeder (s : State) (back : Bool) : Option Nat :=
  if back then (if s.stage + 1 < s.chart.stages then some (s.chart.deviceAt (s.stage + 1) s.rank) else none)
  else (if s.stage = 0 then none else some (s.chart.deviceAt (s.stage - 1) s.rank))

/-- Bytes of the running item's loaded messages, which stand before those that a queue holds. -/
def State.loadedIn (s : State) (back : Bool) : Nat :=
  if s.job.item.isSome && s.itemBack == back then s.job.inLoaded else 0

/-- The inbound queue of a direction. -/
def State.inbound (s : State) (back : Bool) : List ActMsg := if back then s.job.bin else s.job.fin

/-- A message fits the inbound queue: credits admit no more than its region holds (R410, R411). -/
def State.roomIn (s : State) (back : Bool) (n : Nat) : Bool :=
  match s.region (inboundKind back) 0xFFFF with
  | some g => decide (n ≤ 65536) && decide (((s.inbound back).map (fun m => m.bytes.length)).sum + n ≤ g.length)
  | none => false

/-- Inbound messages of the running item's micro-batch loaded (R38 step 2): their bytes stand as its commands read them,
back to back from the first byte of the queue's region in the order of arrival, with those that the queue still holds after
them, and their credits return (R411). DESIGN CHOICE: the spec gives the queue's region and no layout (log 18). -/
def State.loadIn (s : State) (back : Bool) (mb : Nat) : State :=
  let q := s.inbound back
  let new := q.filter (fun m => m.mb == mb)
  let rest := q.filter (fun m => m.mb != mb)
  let job := if back then { s.job with bin := rest } else { s.job with fin := rest }
  let pos := s.job.inLoaded
  let s := ({ s with job := { job with inLoaded := pos + (new.flatMap (·.bytes)).length } } : State).queueDepths
  let s := (s.putQueue (inboundKind back) pos new).putQueue (inboundKind back) s.job.inLoaded rest
  match s.feeder back with
  | some d => if new.isEmpty then s else s.grantCredit d back new.length
  | none => s

/-! ### The job commands' refusals and runs (R470, R472, R702) -/

/-- The refusal of a job-only opcode: from a host it is an invalid opcode (R470). -/
def State.jobRefusal (s : State) (op : Nat) (c : TileCmd) (ua uc : Bool) (own : Nat) : Nat :=
  if c.job then s.commonRefusal op c ua false uc own else 0x10

/-- Rows R0 to R0 + NR − 1 lie in a tensor. -/
def rowsIn (c : TileCmd) (x : Option Tensor) : Bool :=
  match x with
  | some x => decide (c.r0 + c.nr ≤ x.rows)
  | none => true

/-- STASH's refusal (R702). -/
def State.stashRefusal (s : State) (c : TileCmd) : Nat :=
  s.jobRefusal 0x48 c true false (if rowsIn c (s.layout c.acc c.ta) then 0 else 0x14)
/-- UNSTASH's refusal (R702). -/
def State.unstashRefusal (s : State) (c : TileCmd) : Nat :=
  s.jobRefusal 0x49 c false true (if rowsIn c (s.layout c.acc c.tc) then 0 else 0x14)
/-- SEND's refusal (R702). -/
def State.sendRefusal (s : State) (c : TileCmd) : Nat :=
  s.jobRefusal 0x4A c true false (firstRefusal [(!rowsIn c (s.layout c.acc c.ta), 0x14), (decide (5 ≤ c.p2), 0x12)])
/-- GRADADD's refusal (R300, R702). -/
def State.gradRefusal (s : State) (c : TileCmd) : Nat :=
  let own := match s.layout c.acc c.ta, s.layout c.acc c.tc with
    | some a, some y =>
      firstRefusal [(!rowsIn c (some a) || !rowsIn c (some y) || a.rowlen != y.rowlen, 0x14), (c.dc != 0, 0x20)]
    | _, _ => 0
  s.jobRefusal 0x4B c true true own

/-- STASH run on its tile. -/
def State.stash (s : State) (c : TileCmd) : State :=
  let xa := (s.layout c.acc c.ta).map (s.fed c)
  s.runTile 0x48 14 c (s.stashRefusal c) xa none none [] false (fun s => ([], 0, s)) (fun q =>
    (q.1, (q.2.traffic c.tile (xa.getD {}) false c.nr).stashRows c (xa.getD {})))

/-- UNSTASH run on its tile. -/
def State.unstash (s : State) (c : TileCmd) : State :=
  let xc := s.layout c.acc c.tc
  s.runTile 0x49 14 c (s.unstashRefusal c) none none none [] false (fun s => ([], 0, s)) (fun q =>
    (q.1, (q.2.unstashRows c (xc.getD {})).traffic c.tile (xc.getD {}) true c.nr))

/-- SEND run on its tile. -/
def State.sendCmd (s : State) (c : TileCmd) : State :=
  let xa := (s.layout c.acc c.ta).map (s.fed c)
  s.runTile 0x4A 14 c (s.sendRefusal c) xa none none [] false (fun s => ([], 0, s)) (fun q =>
    (q.1, (q.2.traffic c.tile (xa.getD {}) false c.nr).sendRows c (xa.getD {})))

/-- GRADADD's partial sums: the source's elements, as the addition's operands (R300, R105). -/
def gradBody (c : TileCmd) (x : Tensor) : Body := fun s =>
  let s := s.traffic c.tile x false c.nr
  let (rows, n) := (s.readRows c.tile c.policy x c.r0 c.nr x.rowlen).run 0
  (rows.mapIdx (fun i r => (c.r0 + i, r.map (fun v => { val := v }))), n, s)

/-- A command that adds its result (R98), whatever its ADD bit. -/
def withAdd (c : TileCmd) : TileCmd := { c with flags := c.flags ||| 0x20 }

/-- GRADADD run on its tile. -/
def State.gradAdd (s : State) (c : TileCmd) : State :=
  let xa := (s.layout c.acc c.ta).map (s.fed c)
  let xc := s.target c
  s.runTile 0x4B 14 (withAdd c) (s.gradRefusal c) xa none xc (tileRows c) true
    (gradBody c (xa.getD {})) id c

/-! ### Commands -/

/-- STASH (R296). -/
def execStash (c : TileCmd) (s : State) : Outcome := act s fun s => s.stash c
/-- UNSTASH (R296). -/
def execUnstash (c : TileCmd) (s : State) : Outcome := act s fun s => s.unstash c
/-- SEND (R470). -/
def execSend (c : TileCmd) (s : State) : Outcome := act s fun s => s.sendCmd c
/-- GRADADD (R300, R301). -/
def execGradadd (c : TileCmd) (s : State) : Outcome := act s fun s => s.gradAdd c

/-- ACTIVATION_MESSAGE (R410): a message of the activation class arrives in its inbound queue and stands in the queue's
region; one of the running item is loaded at once (R38 step 2). While a rollback runs it is discarded (R591). One that the
queue does not hold cannot arrive (R411; log 4). -/
def execActivationMessage (back : Bool) (mb tensor off : Nat) (bytes : List Byte) (s : State) : Outcome :=
  act s fun s =>
    if s.job.rolling.isSome || (s.feeder back).isNone || !s.roomIn back bytes.length then s
    else
      let q := s.inbound back ++ [({ mb, tensor, off, bytes } : ActMsg)]
      let s := ({ s with job := if back then { s.job with bin := q } else { s.job with fin := q } } : State).queueDepths
      if s.job.item.isSome && s.itemBack == back && s.itemMb == mb then s.loadIn back mb
      else s.putQueue (inboundKind back) (s.loadedIn back) q

/-- CREDIT_RETURN (R411): a receiver has granted credits for a direction. -/
def execCreditReturn (back : Bool) (n : Nat) (s : State) : Outcome :=
  act s fun s => (s.putCredit back (s.credit back + n)).flushOut ((s.outbound back).length + 1) back

end Sys2Proof.Machine
end

