-- ==== Sys2Proof/Machine/Update.lean ====
section
/-! DEFINITION. The update engine's arithmetic and memory (10_update_engine.md): the engine state layout, master modes,
optimisers, and the pending slot's writes.
-/

namespace Sys2Proof.Machine

/-! ### Shards and their state in memory (R321, R329) -/

/-- The shards that an engine of this device owns, in ascending number. -/
def State.engineShards (s : State) (n : Nat) : List NumShard :=
  s.chart.numShards.filter (fun x => x.2.device == s.devNum && x.2.engine == n)

/-- The layer of a parameter (R400, R395): of the placement or PARAM tensor that holds it. -/
def Charter.layerOf (c : Charter) (p : Nat) : Nat :=
  match c.arrays.find? (fun x => decide (x.pbase ≤ p) && decide (p < x.pbase + x.rows * x.cols)) with
  | some x => x.layer
  | none =>
    match c.tensors.find? (fun x => x.param && decide (x.pbase ≤ p) && decide (p < x.pbase + x.rows * x.rowlen)) with
    | some x => x.layer
    | none => 0xFFFF

/-- The group of a parameter: its layer's (R392); group 0 where it has no layer (log 16). -/
def Charter.groupOf (c : Charter) (p : Nat) : Nat :=
  ((c.layers.find? (fun l => l.id == c.layerOf p)).map (·.group)).getD 0

/-- A shard holds a parameter of a trust-ratio group (R329). -/
def Charter.shardTrust (c : Charter) (x : Shard) : Bool :=
  (List.range x.length).any (fun i => ((c.groups.getD (c.groupOf (x.first + i)) {}).opt == 2))

/-- Offsets of a shard's areas from its start (R329): records of slots 0 and 1, h0, h1, r0, r1, m0, m1, u0, u1, G,
scratch, and the end. -/
def shardAreas (l : Nat) (trust : Bool) : List Nat :=
  let b := l / 32
  let sizes := [4096, 4096, 2 * l, 2 * l, 2 * l, 2 * l, 34 * b, 34 * b, 34 * b, 34 * b, 4 * l, if trust then 4 * l else 0]
  sizes.foldl (fun acc n => acc ++ [roundUp (acc.getLastD 0 + n) 4096]) [0]

/-- Where a shard's state starts in device memory (R329). -/
def State.shardBase (s : State) (n : Nat) (num : Nat) : Option Nat :=
  (s.region 9 n).map (fun r =>
    r.addr + (((s.engineShards n).filter (fun x => x.1 < num)).map
      (fun x => (shardAreas x.2.length (s.chart.shardTrust x.2)).getLastD 0)).sum)

/-- A shard of an engine as the engine works on it: its number, entry, base and area offsets. -/
structure ShardAt where
  num : Nat
  shard : Shard
  base : Nat
  areas : List Nat
  deriving DecidableEq, Repr

/-- An engine's shards with their places. -/
def State.shardsAt (s : State) (n : Nat) : List ShardAt :=
  (s.engineShards n).filterMap (fun x => (s.shardBase n x.1).map (fun b =>
    ⟨x.1, x.2, b, shardAreas x.2.length (s.chart.shardTrust x.2)⟩))

/-- The address of area k of a shard. -/
def ShardAt.area (x : ShardAt) (k : Nat) : Nat := x.base + x.areas.getD k 0

/-- A state record (R328). -/
def stateRecord (count step : Nat) : List Byte :=
  let b := leBytes 8 count ++ leBytes 8 step ++ zeros 12
  b ++ leBytes 4 (crc32c b).toNat

/-- A slot's record: optimiser count and step, where its CRC passes (R328, R330). -/
def State.slotRecord (s : State) (x : ShardAt) (slot : Nat) : Option (Nat × Nat) :=
  let b := s.memBytes (x.area slot) 32
  if leAt b 28 4 == (crc32c (b.take 28)).toNat then some (leAt b 0 8, leAt b 8 8) else none

/-- The current slot (R330); 0 where neither record passes. -/
def State.curSlot (s : State) (x : ShardAt) : Nat :=
  match s.slotRecord x 0, s.slotRecord x 1 with
  | some a, some b => if a.1 < b.1 then 1 else 0
  | none, some _ => 1
  | _, _ => 0

/-- The optimiser count of a shard's current slot. -/
def State.shardCount (s : State) (x : ShardAt) : Nat := ((s.slotRecord x (s.curSlot x)).getD (0, 0)).1

/-- An FP32 word of device memory. -/
def State.memF32 (s : State) (a : Nat) : FVal := ofFP32 (BitVec.ofNat 32 (leNat (s.memBytes a 4)))

/-- The step of the last update that a shard's current slot holds, all ones for none (R328, R330). -/
def State.shardStep (s : State) (x : ShardAt) : Nat := ((s.slotRecord x (s.curSlot x)).getD (0, 2 ^ 64 - 1)).2

/-- An engine's STEP, COUNT and CUR follow its first shard's current slot (R356). -/
def State.reloadEngine (s : State) (n : Nat) : State :=
  match (s.shardsAt n).head? with
  | some x =>
    let s := s.setPair (F.UPD_COUNT_LO_C n) (F.UPD_COUNT_HI_C n) (s.shardCount x)
    (s.setPair (F.UPD_STEP_LO_STEP n) (F.UPD_STEP_HI_STEP n) (s.shardStep x)).setFld (F.UPD_STAT_CUR n) (s.curSlot x)
  | none => s

/-- Job start (R330): slot 0 of a shard initialised, slot 1's record zero; h is the host's. -/
def State.initShard (s : State) (x : ShardAt) : State :=
  let l := x.shard.length
  let powers := s.chart.groups.flatMap (fun _ => leBytes 4 0x3F800000 ++ leBytes 4 0x3F800000)
  let s := s.putMem (x.area 0) (stateRecord 0 (2 ^ 64 - 1) ++ powers)
  let s := s.putMem (x.area 4) (zeros (2 * l))
  let s := s.putMem (x.area 6) (zeros (34 * (l / 32)))
  let s := s.putMem (x.area 8) (zeros (34 * (l / 32)))
  s.putMem (x.area 1) (zeros 32)

/-! ### Learning rate (R402) -/

/-- The learning rate of a schedule at optimiser count c, under the group's policy (R103). -/
def rateAt (p : Policy) (segs : List RateSeg) (c : Nat) : Cnt FVal :=
  match (segs.filter (fun g => g.start ≤ c)).getLast? with
  | none => pure FVal.zero
  | some g => do
    let a := ofFP32 g.a
    let b := ofFP32 g.b
    let len := ofFP32 g.len
    let j ← toFP32 p (FVal.ofInt ((c - g.start : Nat) : Int))
    if g.kind = 1 then
      let d ← fsub p b a
      let t ← fdiv p j len
      let t := if FVal.lt (FVal.ofInt 1) t then FVal.ofInt 1 else t
      ffma p t d a
    else if g.kind = 2 then
      let x := if FVal.lt j len then len else j
      let y ← fdiv p len x
      let z ← fsqrt p y
      fmul p a z
    else pure a

/-! ### Master modes (R331 to R333) -/

/-- The exponent of ulp(h) (R331). -/
def ulpExp (h : Nat) : Int := let e := h / 128 % 256; if e = 0 then -133 else (e : Int) - 134

/-- W from h and r (R331). -/
def masterOf (split : Bool) (h r : Nat) : FVal :=
  match decodeFloat fmtBF16 h with
  | .num s m e => if split then addExact (.num s m e) ((FVal.ofInt (signed 16 r)).scale (ulpExp h - 16)) else .num s m e
  | v => v

/-- The next BF16 above or below a finite h. -/
def bf16Next (h : Nat) (up : Bool) : Nat :=
  let neg := h / 32768 % 2 == 1
  let mag := h % 32768
  if mag = 0 then (if up then 1 else 32769)
  else if neg == up then h - 1 else h + 1

/-- split of R332: h and r. -/
def splitMaster (p : Policy) (w : FVal) : Cnt (Nat × Nat) :=
  match w with
  | .nan => pure (0x7FC0, 0)
  | .inf neg => do
    let (h, _) ← convFloat fmtBF16 p (.inf neg)
    pure (h, 0)
  | .num _ m e =>
    let (r, q) := roundMag fmtBF16 m 1 e
    if overflows fmtBF16 r q then do
      let (h, _) ← convFloat fmtBF16 p w
      pure (h, 0)
    else do
      let (h, _) ← convFloat fmtBF16 p w
      let d := (addExact w (decodeFloat fmtBF16 h).neg).scale (16 - ulpExp h)
      let r := d.rne
      if r = 32768 then pure (bf16Next h true, unsigned 16 (-32768))
      else if r = -32769 then pure (bf16Next h false, 32767)
      else pure (h, unsigned 16 r)

/-! ### Optimisers (R337 to R340) -/

/-- The step constants of a group (R337's constants). -/
structure Consts where
  g : Group
  p : Policy
  p1 : FVal
  p2 : FVal
  bc1 : FVal
  sb2 : FVal
  c1 : FVal
  c2 : FVal
  lr : FVal
  deriving DecidableEq, Repr

/-- An operand of the engine (R105): a NaN contributes zero, an infinity is the largest finite. -/
def engOperand (p : Policy) (v : FVal) : Cnt FVal :=
  match p, v with
  | .saturate, .nan => pure FVal.zero
  | .saturate, .inf neg => do countSat; pure (maxFVal fmtFP32 neg)
  | _, v => pure v

/-- constants(c_new), from the powers of the power table, which are operands of the engine (R105). -/
def constsOf (g : Group) (rates : List (List RateSeg)) (cnew : Nat) (p1 p2 : FVal) : Cnt Consts := do
  let p := policyOf (g.flags.testBit 1)
  let one := FVal.ofInt 1
  let b1 := ofFP32 g.beta1
  let b2 := ofFP32 g.beta2
  let q1 ← fmul p (← engOperand p p1) b1
  let q2 ← fmul p (← engOperand p p2) b2
  let bc1 ← fsub p one q1
  let sb2 ← fsqrt p (← fsub p one q2)
  let c1 ← fsub p one b1
  let c2 ← fsub p one b2
  let lr ← rateAt p (rates.getD g.sched []) cnew
  pure { g, p, p1 := q1, p2 := q2, bc1, sb2, c1, c2, lr }

/-- A computed value and whether a saturation was counted while it was formed (R107). -/
abbrev Marked := FVal × Bool

/-- A parameter as an engine computes it: W₁, m₁, u₁, and t of a trust-ratio group. -/
structure ParamNew where
  w : Marked
  m : Marked
  u : Marked
  t : FVal
  deriving DecidableEq, Repr

/-- Whether a saturation was counted since the count stood at n (R107). -/
def countedSince (n : Nat) : Cnt Bool := do
  pure (decide (n < (← get)))

/-- W as the engine reads it (R105, R331): an infinite h is BF16's largest finite value. -/
def masterOperand (p : Policy) (split : Bool) (h r : Nat) : Cnt FVal :=
  match p, decodeFloat fmtBF16 h with
  | .saturate, .inf neg => do countSat; pure (maxFVal fmtBF16 neg)
  | _, _ => engOperand p (masterOf split h r)

/-- One binary32 addition of two operands (R105). -/
def engAdd (p : Policy) (a b : W32) : Cnt FVal := do
  fadd p (← engOperand p (ofFP32 a)) (← engOperand p (ofFP32 b))

/-- AdamW up to q (R337): m₁, u₁ and q. -/
def adamCore (k : Consts) (kappa gr m u : FVal) : Cnt (Marked × Marked × FVal) := do
  let p := k.p
  let n ← get
  let g ← fmul p gr kappa
  let m1 ← ffma p (ofFP32 k.g.beta1) m (← fmul p k.c1 g)
  let mc ← countedSince n
  let n1 ← get
  let uu ← fmul p u u
  let gg ← fmul p g g
  let v1 ← ffma p (ofFP32 k.g.beta2) uu (← fmul p k.c2 gg)
  let u1 ← fsqrt p v1
  let uc ← countedSince n1
  let d ← fadd p (← fdiv p u1 k.sb2) (ofFP32 k.g.eps)
  let q ← fdiv p (← fdiv p m1 k.bc1) d
  pure ((m1, mc), (u1, uc), q)

/-- One parameter's update (R337, R338); of a trust-ratio group pass 2 with the layer's φ (R339). -/
def updateParam (k : Consts) (kappa phi gr w m u : FVal) : Cnt ParamNew := do
  let p := k.p
  let lam := ofFP32 k.g.lambda
  let n ← get
  if k.g.opt = 1 then
    let g ← ffma p lam w (← fmul p gr kappa)
    let b1 ← ffma p (ofFP32 k.g.beta1) m g
    let mc ← countedSince n
    let d ← if k.g.flags.testBit 2 then ffma p (ofFP32 k.g.beta1) b1 g else pure b1
    let w1 ← ffma p k.lr.neg d w
    pure { w := (w1, ← countedSince n), m := (b1, mc), u := (FVal.zero, false), t := FVal.zero }
  else
    let (m1, u1, q) ← adamCore k kappa gr m u
    let t ← ffma p lam w q
    let w1 ← if k.g.opt = 2 then do ffma p (← fmul p k.lr phi).neg t w else ffma p k.lr.neg t w
    pure { w := (w1, ← countedSince n), m := m1, u := u1, t }

/-- φ of a layer from its summed pairs, operands of the engine (R105, R339), and whether it reached φmax; a NaN under PROPAGATE stays NaN (R104). -/
def trustPhi (p : Policy) (phimax : FVal) (a b : FVal) : Cnt (FVal × Bool) := do
  let sw ← engOperand p a
  let st ← engOperand p b
  if sw.isZero || st.isZero then pure (FVal.ofInt 1, false)
  else
    let v ← fdiv p (← fsqrt p sw) (← fsqrt p st)
    pure <| if v == FVal.nan || FVal.lt v phimax then (v, false) else (phimax, true)

/-- What a shard's update reads of parameter i (R326): G, W, m, u. -/
def State.paramOld (s : State) (x : ShardAt) (slot : Nat) (g : Group) (i : Nat) : Cnt (FVal × FVal × FVal × FVal) := do
  let p := policyOf (g.flags.testBit 1)
  let split := !g.flags.testBit 0
  let h := leNat (s.memBytes (x.area (2 + slot) + 2 * i) 2)
  let r := leNat (s.memBytes (x.area (4 + slot) + 2 * i) 2)
  let pn (k : Nat) (uns : Bool) : FVal :=
    decodeElem (BitVec.ofNat 16 (13 + (if uns then 16 else 0)))
      (fun j => lookup memReset s.mem (x.area k + 34 * (i / 32) + j)) (i % 32)
  let gr ← engOperand p (s.memF32 (x.area 10 + 4 * i))
  let w ← masterOperand p split h r
  let m ← engOperand p (pn (6 + slot) false)
  let u ← engOperand p (pn (8 + slot) true)
  pure (gr, w, m, if g.opt = 1 then FVal.zero else u)

/-- One parameter's update of a shard, with its layer and old master value. -/
structure ParamUpd where
  layer : Nat
  group : Group
  old : FVal
  new : ParamNew
  deriving DecidableEq, Repr

/-- What an engine's update of a shard needs: κ, the step, the power table's constants by group with the saturations
counted in them, φ by layer. -/
structure UpdCtx where
  kappa : FVal
  step : Nat
  consts : List Consts
  constSats : Nat
  phi : Nat → FVal

/-- The constants of every group for a shard's next update, from the current slot's power table (R328). -/
def State.shardConsts (s : State) (x : ShardAt) : List Consts × Nat :=
  let slot := s.curSlot x
  let c := s.shardCount x + 1
  (s.chart.groups.zipIdx.mapM (fun (gi : Group × Nat) =>
    constsOf gi.1 s.chart.rates c (s.memF32 (x.area slot + 32 + 8 * gi.2))
      (s.memF32 (x.area slot + 36 + 8 * gi.2)))).run 0

/-- Every parameter of a shard updated (R337 to R339). -/
def State.shardUpdate (s : State) (x : ShardAt) (k : UpdCtx) : Cnt (List ParamUpd) :=
  let slot := s.curSlot x
  (List.range x.shard.length).mapM (fun i => do
    let id := x.shard.first + i
    let layer := s.chart.layerOf id
    let kc := k.consts.getD (s.chart.groupOf id) ((constsOf {} [] 0 FVal.zero FVal.zero).run 0).1
    let (gr, w, m, u) ← s.paramOld x slot kc.g i
    let new ← updateParam kc k.kappa (k.phi layer) gr w m u
    pure { layer, group := kc.g, old := w, new })

/-- The layers of a shard's parameters in ascending identifier; a parameter of no layer has none (log 16). -/
def layersOf (ps : List ParamUpd) : List Nat :=
  (((ps.map (·.layer)).filter (· != 0xFFFF)).eraseDups).mergeSort (· ≤ ·)

/-- A pair as it enters a sum (R105). -/
def pairOperand (p : Policy) (v : Pair) : Cnt Pair := do pure (← engOperand p v.1, ← engOperand p v.2)

/-- A pair as words. -/
def pairBits (p : Pair) : W32 × W32 := (fp32Bits p.1, fp32Bits p.2)
/-- A pair from its words. -/
def ofPairBits (p : W32 × W32) : Pair := (ofFP32 p.1, ofFP32 p.2)

/-- Per-layer sums of squares over a shard (R340): of f and of g. -/
def layerSums (p : Policy) (ps : List ParamUpd) (f g : ParamUpd → Cnt FVal) : Cnt (List LayerSums) :=
  (layersOf ps).mapM (fun l => do
    let qs := ps.filter (fun q => q.layer == l)
    let a ← sumSquares p Pair.zero (← qs.mapM f)
    let b ← sumSquares p Pair.zero (← qs.mapM g)
    pure { layer := l, a := pairBits a, b := pairBits b })

/-- The difference W₁ − W of a parameter, one R99 operation (R345). -/
def deltaW (p : Policy) (q : ParamUpd) : Cnt FVal := fsub p q.new.w.1 q.old

/-- An update report's status (R345): 1 for a value that is not finite or a NaN block scale. -/
def updStatus (ps : List ParamUpd) (mBytes uBytes : List Byte) : Nat :=
  let bad (v : Marked) : Bool := !v.1.isFinite
  let nanScale (bs : List Byte) : Bool := (chunks 34 bs).any (fun b => leAt b 32 2 == 0x7FC0)
  if ps.any (fun q => bad q.new.w || bad q.new.m || bad q.new.u) || nanScale mBytes || nanScale uBytes then 1 else 0

/-- The moments of a shard encoded in PN8 blocks (R335), with the policy of each block's first parameter. -/
def encodeMoments (uns : Bool) (vs : List (Marked × Policy)) : Cnt (List Byte) := do
  let d : W16 := BitVec.ofNat 16 (13 + (if uns then 16 else 0))
  let bs ← (chunks 32 vs).mapM (fun b => do
    let (bytes, _) ← encodeRow d ((b.head?.map (·.2)).getD .saturate) (b.map (·.1))
    pure bytes)
  pure bs.flatten

/-- The policy of a parameter's group. -/
def ParamUpd.policy (q : ParamUpd) : Policy := policyOf (q.group.flags.testBit 1)

/-- h and r of a parameter's new master value (R332, R333); an overflow of a value already counted is not counted
again (R107). -/
def masterWords (seed step id : Nat) (q : ParamUpd) : Cnt (Nat × Nat) :=
  unlessCounted q.new.w.2 <|
    if q.group.flags.testBit 0 then do
      let (h, _) ← stochasticBF16 q.policy (randomWord seed id step) q.new.w.1
      pure (h, 0)
    else splitMaster q.policy q.new.w.1

/-- A shard's pending slot written (R327, R335): h, r, m, u, the power table, then the record is left to commit.
Returns the status, the layers' sums of the report and the saturations counted. -/
def State.writePending (s : State) (x : ShardAt) (k : UpdCtx) : State × Nat × List LayerSums × Nat :=
  let slot := 1 - s.curSlot x
  let ((ps, hr, mb, ub, sums), sats) := (do
    let ps ← s.shardUpdate x k
    let hr ← ps.zipIdx.mapM (fun (qi : ParamUpd × Nat) => masterWords s.chart.seed k.step (x.shard.first + qi.2) qi.1)
    let mb ← encodeMoments false (ps.map (fun q => (q.new.m, q.policy)))
    let ub ← encodeMoments true (ps.map (fun q => (q.new.u, q.policy)))
    let sums ← layerSums (policyOf s.chart.rnp) ps (fun q => deltaW q.policy q) (fun q => pure q.old)
    pure (ps, hr, mb, ub, sums) :
      Cnt (List ParamUpd × List (Nat × Nat) × List Byte × List Byte × List LayerSums)).run k.constSats
  let powers := k.consts.flatMap (fun c => leBytes 4 (fp32Bits c.p1).toNat ++ leBytes 4 (fp32Bits c.p2).toNat)
  let s := s.putMem (x.area (2 + slot)) (hr.flatMap (fun q => leBytes 2 q.1))
  let s := s.putMem (x.area (4 + slot)) (hr.flatMap (fun q => leBytes 2 q.2))
  let s := (s.putMem (x.area (6 + slot)) mb).putMem (x.area (8 + slot)) ub
  let s := s.putMem (x.area slot + 32) powers
  (s, updStatus ps mb ub, sums, sats)

/-- Pass 1 of a shard (R339): t in the trust scratch, the per-layer sums of W² and t², and the saturations counted
in the sums. -/
def State.trustPass (s : State) (x : ShardAt) (k : UpdCtx) : State × List LayerSums × Nat :=
  let (ps, _) := (s.shardUpdate x k).run 0
  let s := if s.chart.shardTrust x.shard then
      s.putMem (x.area 11) (ps.flatMap (fun q => leBytes 4 (fp32Bits q.new.t).toNat))
    else s
  let tr := ps.filter (fun q => q.group.opt == 2)
  (s, (layerSums (policyOf s.chart.rnp) tr (fun q => pure q.old) (fun q => pure q.new.t)).run 0)

/-- The sum of squares of a shard's summed gradient (R342): a pair per block, then the blocks in order. -/
def State.shardNorm (s : State) (x : ShardAt) : Pair × Nat :=
  let p := policyOf s.chart.rnp
  ((do
    let blocks ← (List.range (x.shard.length / 32)).mapM (fun b => do
      let vs ← (List.range 32).mapM (fun i => engOperand p (s.memF32 (x.area 10 + 4 * (32 * b + i))))
      sumSquares p Pair.zero vs)
    pairSum p Pair.zero blocks : Cnt Pair).run 0)

/-- The engines hold no update of a step (R356): STATE is idle, and no pending slot is unresolved. -/
def State.idleEngines (s : State) : State :=
  forEach (List.range 8) s (fun s n => (s.setFld (F.UPD_STAT_STATE n) 0).setFlag (F.UPD_STAT_PEND n) false)

end Sys2Proof.Machine
end

