-- ==== Sys2Proof/Machine/Charter.lean ====
section
/-! DEFINITION. The charter container (R390 to R403): its sections read from bytes, and the checks of a load (R405, R406).
-/

namespace Sys2Proof.Machine

/-! ### Sections (R391, R392) -/

/-- A directory entry (R391). -/
structure Section where
  type : Nat
  entsz : Nat
  count : Nat
  offset : Nat
  deriving DecidableEq, Repr

/-- The directory of a charter. -/
def directory (b : List Byte) : List Section :=
  (List.range (leAt b 6 2)).map (fun k =>
    let o := 64 + 16 * k
    { type := leAt b o 2, entsz := leAt b (o + 2) 2, count := leAt b (o + 4) 4, offset := leAt b (o + 8) 8 })

/-- Entry size of a section type (R392). -/
def sectionSize (type : Nat) : Nat :=
  ([0, 16, 48, 32, 168, 64, 32, 16, 200, 4, 16, 16, 12, 32, 32]).getD type 0

/-- The entries of a section; none where it is absent. -/
def entriesOf (b : List Byte) (type : Nat) : List (List Byte) :=
  match (directory b).find? (fun q => q.type == type) with
  | some q => (List.range q.count).map (fun i => slice b (q.offset + q.entsz * i) q.entsz)
  | none => []

/-- Where an entry of a section starts. -/
def entryOffset (b : List Byte) (type i : Nat) : Nat :=
  match (directory b).find? (fun q => q.type == type) with
  | some q => q.offset + q.entsz * i
  | none => 0

/-! ### Records -/

/-- A 32-bit word of a record. -/
def w32At (b : List Byte) (o : Nat) : W32 := BitVec.ofNat 32 (leAt b o 4)

/-- The formats in which a tensor that the charter marks is scaled (R305): FP8, FP6, FP4, INT8, UINT8, INT4, UINT4 and
INT2. -/
def scaledOk (d : W16) : Bool := 3 ≤ descCode d && descCode d ≤ 11

/-- A layout record (R394); a mark on another format leaves the tensor unscaled (R305). -/
def tensorOf (b : List Byte) : Tensor :=
  let f := leAt b 6 1
  let d : W16 := BitVec.ofNat 16 (leAt b 4 2)
  { id := leAt b 0 4, desc := d, scaled := f.testBit 0 && scaledOk d, stashed := f.testBit 1, param := f.testBit 2,
    margin := f / 8 % 8, place := leAt b 7 1 % 16, base := leAt b 8 8, rows := leAt b 16 4, rowlen := leAt b 20 4,
    pitch := leAt b 24 4, stage := leAt b 28 2, layer := leAt b 30 2, pbase := leAt b 32 6 }

/-- A region record (R396). -/
def regionOf (b : List Byte) : Region :=
  { kind := leAt b 0 1, stack := leAt b 1 1, stage := leAt b 4 2, unit := leAt b 6 2, base := leAt b 8 8, length := leAt b 16 8 }

/-- A placement record (R399). -/
def placementOf (b : List Byte) : Placement :=
  { stage := leAt b 0 2, tile := leAt b 2 2, array := leAt b 4 1, rank := leAt b 5 1, iter := leAt b 6 1, action := leAt b 7 1,
    layer := leAt b 8 2, rowoff := leAt b 10 4, coloff := leAt b 14 4, rows := leAt b 18 2, cols := leAt b 20 2,
    pbase := leAt b 24 6, gain := leAt b 32 136 }

/-- A PROGRAM entry (R393). -/
def progOf (b : List Byte) : ProgEntry :=
  if leAt b 0 1 = 0xFF then { marker := true, kind := leAt b 1 1, stage := leAt b 2 2, word := leNat b }
  else { word := leNat b }

/-- A group descriptor (R323). -/
def groupRec (b : List Byte) : Group :=
  { opt := leAt b 0 1, flags := leAt b 1 1, beta1 := w32At b 4, beta2 := w32At b 8, eps := w32At b 12, lambda := w32At b 16,
    phimax := w32At b 20, sched := leAt b 24 2 }

/-- A learning-rate schedule's segments below NSEG (R401). -/
def ratesOf (b : List Byte) : List RateSeg :=
  (List.range (leAt b 0 1)).map (fun i =>
    let o := 8 + 24 * i
    { start := leAt b o 8, kind := leAt b (o + 8) 1, a := w32At b (o + 12), b := w32At b (o + 16), len := w32At b (o + 20) })

/-- A feed binding (R478). -/
def feedRec (b : List Byte) : Feed :=
  { device := leAt b 0 2, ring := leAt b 2 1, kind := leAt b 3 1, tensor := leAt b 4 4, mbbytes := leAt b 8 4,
    region := leAt b 12 4, slots := leAt b 16 4 }

/-- A charter read from its bytes (R390, R392). -/
def parseCharter (b : List Byte) : Charter :=
  let f := leAt b 32 1
  { id := leAt b 16 8, crc := w32At b 60, seed := leAt b 24 8, lag1 := f.testBit 0, dfwd := f.testBit 1, rnp := f.testBit 2,
    gbuf := f.testBit 3, bucket := leAt b 36 4, clip := w32At b 40, stages := leAt b 44 2 + 1, replicas := leAt b 46 2 + 1,
    micro := leAt b 48 4,
    devices := (entriesOf b 1).map (fun e =>
      { device := leAt e 0 2, stage := leAt e 2 2, rank := leAt e 4 2, serial := leAt e 8 8 }),
    tensors := (entriesOf b 2).map tensorOf, regions := (entriesOf b 3).map regionOf,
    arrays := (entriesOf b 4).map placementOf, program := (entriesOf b 5).map progOf,
    groups := (entriesOf b 6).map groupRec,
    shards := (entriesOf b 7).map (fun e =>
      { first := leAt e 0 6, length := leAt e 8 4, device := leAt e 12 2, engine := leAt e 14 1 }),
    rates := (entriesOf b 8).map ratesOf, order := (entriesOf b 9).map (fun e => (leAt e 0 2, leAt e 2 1)),
    layers := (entriesOf b 10).map (fun e =>
      { id := leAt e 0 2, stage := leAt e 2 2, dgmode := leAt e 4 1, group := leAt e 5 1, weights := leAt e 8 8 }),
    watchers := (entriesOf b 11).map (fun e =>
      { layer := leAt e 0 2, kind := leAt e 2 1, shift := leAt e 3 1, factor := w32At e 4, warmup := leAt e 8 1,
        action := leAt e 9 1, steps := leAt e 10 2 }),
    ports := (entriesOf b 12).map (fun e =>
      { device := leAt e 0 2, dest := leAt e 2 2, count := leAt e 4 1,
        ports := (List.range (min 4 (leAt e 4 1))).map (fun i => leAt e (8 + i) 1) }),
    feeds := (entriesOf b 13).map feedRec,
    ckInterval := leAt ((entriesOf b 14).headD []) 0 4, ckFirst := leAt ((entriesOf b 14).headD []) 4 8 }

/-! ### Checks (R405, R406) -/

/-- What a check finds wrong: section type, entry, QTY and LIMIT. -/
abbrev Viol := Nat × Nat × Nat × Nat

/-- The violation that is reported: the lowest section type, then the lowest entry (R405). -/
def leastViol : List Viol → Option Viol
  | [] => none
  | v :: vs =>
    match leastViol vs with
    | none => some v
    | some w => if w.1 < v.1 || (w.1 == v.1 && decide (w.2.1 < v.2.1)) then some w else some v

/-- A violation where a condition holds. -/
def viol (bad : Bool) (sect entry qty lim : Nat) : List Viol := if bad then [(sect, entry, qty, lim)] else []

/-- A check over a section's records. -/
def eachOf {α : Type} (xs : List α) (f : Nat → α → List Viol) : List Viol := (xs.mapIdx f).flatten

/-- Two sections overlap; an empty one takes no bytes (R391). -/
def sectOverlap (p q : Section) : Bool :=
  p.count != 0 && q.count != 0 && decide (p.offset < q.offset + q.entsz * q.count) && decide (q.offset < p.offset + p.entsz * p.count)

/-- Reason 0x0001: the header and the directory (R390 to R393). Counts that reasons 0x0012 and 0x0013 cover are left to
them. -/
def badContainer (b : List Byte) : List Viol :=
  let n := leAt b 6 2
  let len := leAt b 8 8
  let dir := directory b
  let need := [1, 2, 3, 4, 5, 6, 7, 8, 9, 10, 12, 14]
  viol (leAt b 0 4 != 0x4843564F) 0 0 0 0
    ++ viol (decide (n < 1) || decide (64 < n)) 0 0 6 0
    ++ viol (len != b.length || len % 16 != 0 || decide (len < 64 + 16 * n)) 0 0 8 0
    ++ viol (leAt b 60 4 != (crc32c (b.take 60 ++ b.drop 64)).toNat) 0 0 60 0
    ++ viol (need.any (fun t => !dir.any (fun q => q.type == t))) 0 0 64 0
    ++ (dir.mapIdx (fun k q =>
      viol (q.type = 0 || decide (14 < q.type) || q.entsz != sectionSize q.type || q.offset % 16 != 0
          || decide (len < q.offset + q.entsz * q.count) || (q.count != 0 && decide (q.offset < 64 + 16 * n))
          || (dir.take k).any (fun p => p.type == q.type || sectOverlap p q)
          || ((q.type == 2 || q.type == 3 || q.type == 4 || q.type == 6 || q.type == 8 || q.type == 10) && q.count == 0)
          || (q.type == 2 && decide (1048576 < q.count)) || (q.type == 3 && decide (65536 < q.count))
          || (q.type == 4 && decide ((leAt b 44 2 + 1) * 4096 < q.count)) || (q.type == 14 && q.count != 1))
        q.type 0 (64 + 16 * k) 0)).flatten

/-- Reserved bits of a section's entries as (byte, mask) pairs (R323, R392, R394, R396, R399, R401, R478, R482). -/
def reservedBits (type : Nat) : List (Nat × Nat) :=
  let bytes (lo hi : Nat) : List (Nat × Nat) := (List.range (hi + 1 - lo)).map (fun i => (lo + i, 0xFF))
  if type = 1 then bytes 6 7
  else if type = 2 then [(6, 0xC0), (7, 0xF0)] ++ bytes 38 47
  else if type = 3 then bytes 2 3 ++ bytes 24 31
  else if type = 4 then bytes 22 23 ++ bytes 30 31 ++ [(164, 0xFC)] ++ bytes 165 167
  else if type = 6 then [(1, 0xF8)] ++ bytes 2 3 ++ bytes 26 31
  else if type = 7 then bytes 6 7 ++ bytes 15 15
  else if type = 8 then bytes 1 7 ++ (List.range 8).flatMap (fun i => bytes (17 + 24 * i) (19 + 24 * i))
  else if type = 9 then bytes 3 3
  else if type = 10 then bytes 6 7
  else if type = 11 then bytes 12 15
  else if type = 12 then bytes 5 7
  else if type = 13 then bytes 20 31
  else if type = 14 then bytes 12 31
  else []

/-- Reserved codes in an entry, with the marker and template fields of PROGRAM: the byte that holds one (R394, R396, R399,
R227, R393, R468, R469, R323, R392, R401, R403, R478). -/
def reservedCode (type : Nat) (e : List Byte) : List Nat :=
  let at' (o : Nat) (bad : Bool) : List Nat := if bad then [o] else []
  if type = 2 then at' 7 (decide (8 ≤ leAt e 7 1 % 16) && leAt e 7 1 % 16 != 15)
      ++ at' 32 (!(leAt e 6 1).testBit 2 && leAt e 32 6 != 0)
  else if type = 3 then at' 0 (!((decide (1 ≤ leAt e 0 1) && decide (leAt e 0 1 ≤ 18)) || (decide (32 ≤ leAt e 0 1) && decide (leAt e 0 1 ≤ 34))))
      ++ at' 1 (decide (8 ≤ leAt e 1 1) && leAt e 1 1 != 15)
  else if type = 4 then at' 5 (decide (4 < leAt e 5 1)) ++ at' 7 (decide (2 < leAt e 7 1))
  else if type = 5 then
    if leAt e 0 1 = 0xFF then
      at' 1 (leAt e 1 1 != 1 && leAt e 1 1 != 2) ++ ((List.range 60).map (· + 4)).filter (fun o => leAt e o 1 != 0)
    else
      let lane := leAt e 14 1 / 8 % 8
      at' 14 (decide (0 < lane) && decide (lane < 4)) ++ at' 15 (decide (8 ≤ leAt e 15 1)) ++ at' 41 (decide (2 ≤ leAt e 41 1))
  else if type = 6 then at' 0 (decide (2 < leAt e 0 1))
  else if type = 8 then (List.range 8).flatMap (fun i => at' (16 + 24 * i) (decide (2 < leAt e (16 + 24 * i) 1)))
  else if type = 9 then at' 2 (leAt e 2 1 != 1 && leAt e 2 1 != 2)
  else if type = 10 then at' 4 (decide (1 < leAt e 4 1))
  else if type = 11 then at' 2 (decide (1 < leAt e 2 1)) ++ at' 9 (decide (2 < leAt e 9 1))
  else if type = 13 then at' 3 (decide (1 < leAt e 3 1))
  else []

/-- Reason 0x0005: reserved fields and codes that are not zero. -/
def badReserved (b : List Byte) : List Viol :=
  viol (16 ≤ leAt b 32 1) 0 0 32 0
    ++ ([33, 34, 35, 52, 53, 54, 55, 56, 57, 58, 59].flatMap (fun o => viol (leAt b o 1 != 0) 0 0 o 0))
    ++ ((List.range 15).map (fun t => eachOf (entriesOf b t) (fun i e =>
      let bits' := (reservedBits t).filter (fun q => leAt e q.1 1 &&& q.2 != 0)
      let offs := bits'.map (·.1) ++ reservedCode t e
      offs.map (fun o => ((t, i, entryOffset b t i + o, 0) : Viol))))).flatten

/-- AW of a layer and the weights that its records place (R400). -/
def Charter.placed (c : Charter) (layer : Nat) : Nat × Nat :=
  (((c.arrays.filter (fun p => p.layer == layer)).map (fun p => p.rows * p.cols)).sum,
   ((c.layers.find? (fun l => l.id == layer)).map (·.weights)).getD 0)

/-- Reason 0x0011 (R399, R400). -/
def Charter.badPlacements (c : Charter) : List Viol :=
  eachOf c.arrays (fun i p =>
    let (n, aw) := c.placed p.layer
    let same (q : Placement) : Bool := q.stage == p.stage && q.tile == p.tile && q.array == p.array
    let meets (q : Placement) : Bool := q.layer == p.layer && decide (q.rowoff < p.rowoff + p.rows)
      && decide (p.rowoff < q.rowoff + q.rows) && decide (q.coloff < p.coloff + p.cols) && decide (p.coloff < q.coloff + q.cols)
    viol (c.stages ≤ p.stage || 512 ≤ p.tile || 8 ≤ p.array || p.iter < 1 || 4 < p.iter || p.rows < 1 || 512 < p.rows
        || p.cols < 1 || 512 < p.cols || n != aw || (c.arrays.take i).any (fun q => same q || meets q)
        || !c.layers.any (fun l => l.id == p.layer && l.stage == p.stage))
      4 i n aw)
  ++ eachOf c.layers (fun i l =>
    let (n, aw) := c.placed l.id
    viol (n == 0 && aw != 0) 10 i n aw)

/-- Reason 0x0012 (R387). -/
def Charter.badDevices (c : Charter) : List Viol :=
  let pd := c.stages * c.replicas
  viol (65536 < pd || c.devices.length != pd) 1 0 pd 65536
    ++ eachOf c.devices (fun i d =>
      viol (c.stages ≤ d.stage || c.replicas ≤ d.rank
        || (c.devices.take i).any (fun e => (e.stage == d.stage && e.rank == d.rank) || e.device == d.device)) 1 i pd 65536)

/-- Reason 0x0022 (R395). -/
def Charter.badLayouts (c : Charter) : List Viol :=
  eachOf c.tensors (fun i x =>
    viol (x.base % 16 != 0 || x.pitch % 16 != 0 || x.pitch < x.rowBytes || x.rows < 1 || x.rowlen < 1
        || (x.param && descCode x.desc != 1) || 0xFFFF0000 ≤ x.id
        || (c.tensors.take i).any (fun y => y.id == x.id))
      2 i (roundUp x.rowBytes 16) x.pitch)

/-- The opcodes of R470. -/
def tileOpcode (op : Nat) : Bool := (0x40 ≤ op && op ≤ 0x45) || (0x48 ≤ op && op ≤ 0x4B)

/-- Reason 0x0023 (R289, R393, R703), with the kind that the nearest marker names. -/
def badTemplates (stages kind i : Nat) : List ProgEntry → List Viol
  | [] => []
  | e :: es =>
    if e.marker then viol (stages ≤ e.stage) 5 i i 0 ++ badTemplates stages e.kind (i + 1) es
    else
      let (op, c) := tileOfBytes (leBytes 64 e.word)
      viol (!tileOpcode op || headerBad op c || c.tag == 3 || kind == 0 || (c.tag != 0 && c.tag != kind)) 5 i i 0
        ++ badTemplates stages kind (i + 1) es

/-- Worst case of one micro-batch on a half of a stage (R298). -/
def Charter.stashNeed (c : Charter) (stage half : Nat) : Nat :=
  ((templatesOf stage 1 false c.program).map (fun q =>
    if q.1 = 0x48 && halfOf q.2.tile == half then
      match c.tensors.find? (fun x => x.id == q.2.ta) with
      | some x => stashWorst x.desc (q.2.nr * x.rowBytes)
      | none => 0
    else 0)).sum

/-- A region of a stage with its index. -/
def Charter.regionAt (c : Charter) (stage kind unit : Nat) : Option (Nat × Region) :=
  (c.regions.zipIdx.find? (fun r => r.1.kind == kind && r.1.stage == stage && r.1.unit == unit)).map (fun r => (r.2, r.1))

/-- Reason 0x0030 (R299). -/
def Charter.badStash (c : Charter) : List Viol :=
  (List.range c.stages).flatMap (fun st => (List.range 2).flatMap (fun h =>
    let need := c.stashNeed st h
    match c.regionAt st 1 h with
    | some (i, r) => viol (r.length < need) 3 i need r.length
    | none => viol (0 < need) 3 0 need 0))

/-- Two regions overlap: of one stage on one stack, or in one tile's store. -/
def Region.meets (q r : Region) : Bool :=
  q.stage == r.stage && q.stack == r.stack && (r.stack != 15 || q.unit == r.unit) && q.length != 0 && r.length != 0
    && decide (q.base < r.base + r.length) && decide (r.base < q.base + q.length)

/-- Reason 0x0031 (R397): a half's stacks are M0 to M3 and M4 to M7 (R320). -/
def Charter.badRegions (c : Charter) : List Viol :=
  eachOf c.regions (fun i r =>
    let meets (q : Region × Nat) : Bool := q.2 != i && q.1.meets r
    viol (r.base % 4096 != 0 || r.length % 4096 != 0 || c.regions.zipIdx.any meets || stackBytes < r.base + r.length
        || (r.kind == 9 && r.stack != r.unit) || (r.kind == 1 && r.stack / 4 != r.unit)
        || (r.kind == 0x21 && r.length != 524288)) 3 i r.base 0)

/-- Reason 0x0032: the bytes of one stack in a stage. -/
def Charter.fullStacks (c : Charter) : List Viol :=
  eachOf c.regions (fun i r =>
    let n := ((c.regions.filter (fun q => q.stage == r.stage && q.stack == r.stack)).map (·.length)).sum
    viol (r.stack != 15 && decide (stackBytes < n)) 3 i n stackBytes)

/-- K of R412; the micro-batch count where nothing is stashed. -/
def Charter.inFlight (c : Charter) : Nat :=
  (List.range c.stages).foldl (fun k st => (List.range 2).foldl (fun k h =>
    let need := c.stashNeed st h
    if need = 0 then k else min k ((((c.regionAt st 1 h).map (·.2.length)).getD 0) / need)) k) c.micro

/-- Bytes that an item of a stage sends as activations. -/
def Charter.sends (c : Charter) (stage kind : Nat) : Nat :=
  ((templatesOf stage kind false c.program).map (fun q =>
    if q.1 = 0x4A && q.2.p2 == 3 then
      match c.tensors.find? (fun x => x.id == q.2.ta) with
      | some x => q.2.nr * x.rowBytes
      | none => 0
    else 0)).sum

/-- Reason 0x0033 (R410, R412). -/
def Charter.badQueues (c : Charter) : List Viol :=
  let k := min c.micro c.inFlight
  let check (st kind need : Nat) : List Viol :=
    match c.regionAt st kind 0xFFFF with
    | some (i, r) => viol (r.length < need) 3 i need r.length
    | none => viol (0 < need) 3 0 need 0
  (List.range c.stages).flatMap (fun st =>
    (if st = 0 then [] else check st 0x0A 65536 ++ check st 0x0D (k * c.sends st 2))
      ++ (if st + 1 = c.stages then [] else check st 0x0B (k * c.sends st 1) ++ check st 0x0C 65536))

/-- Reason 0x0040 (R398). -/
def Charter.badTiles (c : Charter) : List Viol :=
  (List.range c.stages).flatMap (fun st =>
    let ts := ((c.arrays.filter (fun p => p.stage == st)).map (·.tile)
      ++ (c.regions.filter (fun r => r.stage == st && r.stack == 15)).map (·.unit)).eraseDups
    ts.flatMap (fun t =>
      let mine := c.regions.zipIdx.filter (fun r => r.1.stage == st && r.1.stack == 15 && r.1.unit == t)
      let r := ((c.arrays.filter (fun p => p.stage == st && p.tile == t)).map (fun p => ([0, 4, 8, 16, 32]).getD p.rank 0)).foldl max 0
      let n := (mine.map (fun q => q.1.length)).sum + 65536 + 16384 * r
      viol (1572864 < n) 3 ((mine.head?.map (·.2)).getD 0) n 1572864))

/-- The most micro-batches that the schedule holds in flight at a stage (R285). -/
def mostInFlight : Nat → Nat → List Nat → Nat
  | _, best, [] => best
  | n, best, k :: ks => if k = 1 then mostInFlight (n + 1) (max best (n + 1)) ks else mostInFlight (n - 1) best ks

/-- Reason 0x0041 (R285): records of a tile's statistics ops, over every micro-batch in flight. -/
def Charter.badStats (c : Charter) : List Viol :=
  (List.range c.stages).flatMap (fun st =>
    let fl := mostInFlight 0 0 ((c.order.filter (fun o => o.1 == st)).map (·.2))
    let cs := (templatesOf st 1 false c.program).filter (fun q => q.1 == 0x43 && decide (q.2.sel ≤ 2))
    ((cs.map (fun q => q.2.tile)).eraseDups).flatMap (fun t =>
      let n := fl * ((cs.filter (fun q => q.2.tile == t)).map (fun q => q.2.nr)).sum
      let room := 28672 + (((c.regionAt st 8 t).map (·.2.length)).getD 0) / 8
      viol (room < n) 5 0 n room))

/-- Reason 0x0050 (R321). -/
def Charter.badShards (c : Charter) : List Viol :=
  eachOf c.shards (fun i x =>
    let holds (base n : Nat) : Bool := decide (base < x.first + x.length) && decide (x.first < base + n)
    let ls := ((c.arrays.filter (fun a => holds a.pbase (a.rows * a.cols))).map (·.layer)
      ++ (c.tensors.filter (fun t => t.param && t.layer != 0xFFFF && holds t.pbase (t.rows * t.rowlen))).map (·.layer)).eraseDups
    viol (x.first % 32 != 0 || x.length % 32 != 0 || x.length == 0 || 8 ≤ x.engine || 256 < ls.length
      || !c.devices.any (fun d => d.device == x.device)) 7 i i 0)

/-- A positive finite FP32 word. -/
def posWord (w : W32) : Bool := let v := ofFP32 w; v.isFinite && FVal.lt FVal.zero v
/-- A non-negative finite FP32 word. -/
def nonNegWord (w : W32) : Bool := let v := ofFP32 w; v.isFinite && !FVal.lt v FVal.zero
/-- From 0 up to, but not including, 1. -/
def unitWord (w : W32) : Bool := nonNegWord w && FVal.lt (ofFP32 w) (FVal.ofInt 1)

/-- Reason 0x0051 (R324). -/
def Charter.badGroups (c : Charter) : List Viol :=
  eachOf c.groups (fun i g =>
    viol (!unitWord g.beta1 || (g.opt != 1 && (!unitWord g.beta2 || !posWord g.eps)) || !nonNegWord g.lambda
      || (g.opt == 2 && !posWord g.phimax) || c.rates.length ≤ g.sched || (g.opt != 1 && g.flags.testBit 2)) 6 i i 0)

/-- Segments of a schedule in strictly rising STARTs. -/
def risingStarts : List RateSeg → Bool
  | [] => true
  | [_] => true
  | g :: h :: gs => decide (g.start < h.start) && risingStarts (h :: gs)

/-- A schedule that R401 forbids. -/
def badRate (e : List Byte) : Bool :=
  let n := leAt e 0 1
  let gs := ratesOf e
  decide (n < 1) || decide (8 < n) || ((e.drop (8 + 24 * n)).any (· != 0)) || (gs.headD {}).start != 0 || !risingStarts gs
    || gs.any (fun g => !nonNegWord g.a || !nonNegWord g.b || (g.kind != 0 && !posWord g.len))

/-- Entries of ORDER that break R403, with what has been counted so far of each stage. -/
def badOrder (stages m : Nat) : Nat → List (Nat × Nat) → List (Nat × Nat) → List Viol
  | _, _, [] => []
  | i, seen, o :: os =>
    let n := (seen.filter (· == (o.1, o.2))).length + 1
    let f := (seen.filter (· == (o.1, 1))).length
    viol (stages ≤ o.1 || m < n || (o.2 == 2 && decide (f < n))) 9 i i 0 ++ badOrder stages m (i + 1) (o :: seen) os

/-- Reason 0x0053 (R401, R403); a micro-batch count outside R390 is refused with ORDER. -/
def Charter.badSchedules (c : Charter) (b : List Byte) : List Viol :=
  eachOf (entriesOf b 8) (fun i e => viol (badRate e) 8 i i 0)
    ++ viol (decide (c.micro < 1) || decide (65536 < c.micro)) 9 0 0 0 ++ badOrder c.stages c.micro 0 [] c.order
    ++ viol (c.order.length != 2 * c.micro * c.stages) 9 c.order.length c.order.length 0

/-- Reason 0x0060 (R443). -/
def Charter.badPorts (c : Charter) : List Viol :=
  eachOf c.ports (fun i p =>
    let n := ((c.ports.filter (fun q => q.device == p.device)).map (·.count)).sum
    viol (4 < p.count) 12 i p.count 4 ++ viol (32 < n) 12 i n 32)

/-- A port is up and its HELLO neighbour is a device (R443). -/
def State.portLeadsTo (s : State) (c : Charter) (q dest : Nat) : Bool :=
  let serial := s.pair (F.FAB_PNBR_LO_SERIAL q) (F.FAB_PNBR_HI_SERIAL q)
  decide (q < 32) && s.portUp q && s.flag (F.FAB_PSTAT_NBRV q)
    && c.devices.any (fun d => d.device == dest && d.serial == serial)

/-- Reason 0x0061 (R443): a port that this device's entries name does not lead to the destination, or is named twice. -/
def State.untrainedPorts (s : State) (c : Charter) : List Viol :=
  eachOf c.ports (fun i p =>
    if p.device = s.devNum then
      let before := ((c.ports.take i).filter (fun e => e.device == s.devNum)).flatMap (·.ports)
      match p.ports.zipIdx.find? (fun q => !s.portLeadsTo c q.1 p.dest || before.contains q.1 || (p.ports.take q.2).contains q.1) with
      | some q => [(12, i, q.1, 0)]
      | none => []
    else [])

/-- Reason 0x0004. -/
def State.badSelf (s : State) (c : Charter) : List Viol :=
  match c.devices.zipIdx.find? (fun d => d.1.device == s.devNum) with
  | some d => viol (d.1.serial != Config.serial.toNat || !s.flag F.FAB_DEVNUM_VALID) 1 d.2 s.devNum 0
  | none => [(1, 0, s.devNum, 0)]

/-- Every check of R406 from 0x0001 on, in code order; what a later one reads is sound once the earlier have passed. -/
def State.charterChecks (s : State) (b : List Byte) : List (Nat × (Unit → List Viol)) :=
  let c := parseCharter b
  [(0x0001, fun _ => badContainer b),
   (0x0002, fun _ => viol (leAt b 4 2 != 1) 0 0 (leAt b 4 2) 1),
   (0x0004, fun _ => s.badSelf c),
   (0x0005, fun _ => badReserved b),
   (0x0010, fun _ => eachOf c.layers (fun i l =>
      let n := ((c.layers.filter (fun q => q.stage == l.stage)).map (·.weights)).sum
      viol (1073741824 < n) 10 i n 1073741824)),
   (0x0011, fun _ => c.badPlacements),
   (0x0012, fun _ => c.badDevices),
   (0x0013, fun _ => viol (256 < c.groups.length) 6 0 c.groups.length 256 ++ viol (256 < c.rates.length) 8 0 c.rates.length 256
      ++ viol (4096 < c.layers.length) 10 0 c.layers.length 4096 ++ viol (1024 < c.watchers.length) 11 0 c.watchers.length 1024),
   (0x0020, fun _ => eachOf c.tensors (fun i x => viol (!descValid x.desc) 2 i x.desc.toNat 0)),
   (0x0021, fun _ => eachOf c.tensors (fun i x =>
      viol (x.stashed && descCode x.desc != 3 && descCode x.desc != 4 && descCode x.desc != 12) 2 i x.desc.toNat 0))] ++
  [(0x0022, fun _ => c.badLayouts),
   (0x0023, fun _ => badTemplates c.stages 0 0 c.program),
   (0x0024, fun _ => eachOf c.tensors (fun i x => viol (x.room < x.endByte) 2 i x.endByte x.room)),
   (0x0030, fun _ => c.badStash), (0x0031, fun _ => c.badRegions), (0x0032, fun _ => c.fullStacks),
   (0x0033, fun _ => c.badQueues), (0x0040, fun _ => c.badTiles), (0x0041, fun _ => c.badStats),
   (0x0050, fun _ => c.badShards), (0x0051, fun _ => c.badGroups)] ++
  [(0x0052, fun _ => viol (c.bucket < 4 || 256 < c.bucket) 0 0 c.bucket 0),
   (0x0053, fun _ => c.badSchedules b),
   (0x0054, fun _ => viol (!nonNegWord c.clip) 0 0 c.clip.toNat 0),
   (0x0060, fun _ => c.badPorts),
   (0x0061, fun _ => s.untrainedPorts c)]

/-- The first reason that applies, with what is reported (R405). -/
def firstReason : List (Nat × (Unit → List Viol)) → Option (Nat × Viol)
  | [] => none
  | q :: qs =>
    match leastViol (q.2 ()) with
    | some v => some (q.1, v)
    | none => firstReason qs

/-! ### A load (R404, R405, R407) -/

/-- A refusal's registers (R406, R415). -/
def State.charterRefused (s : State) (reason : Nat) (v : Viol) : State :=
  let s := (s.setFld F.HUB_CHSTAT_REASON reason).setFld F.HUB_CHSECT_SECTION v.1
  let s := (s.setFld F.HUB_CHENTRY_ENTRY v.2.1).setPair F.HUB_CHQTY_LO_QTY F.HUB_CHQTY_HI_QTY v.2.2.1
  (s.setPair F.HUB_CHLIM_LO_LIMIT F.HUB_CHLIM_HI_LIMIT v.2.2.2).bump F.HUB_CNT_REFUSE_COUNT 1

/-- What the Stewards take at acceptance for one array (R399, R400, R227): its gain tables, its correction settings. The
array awaits its start-up rewrites (R407). -/
def State.takePlacement (s : State) (p : Placement) : State :=
  let t := p.tile
  let a := p.array
  let s := forEach (List.range 34) s (fun s w =>
    let v : W32 := BitVec.ofNat 32 (p.gain / 2 ^ (32 * w))
    (s.wr (R.ARR_GAIN0 t a w) v).wr (R.ARR_GAIN1 t a w) v)
  let s := (s.setFld (F.ARR_RESCFG_RANK t a) p.rank).setFld (F.ARR_RESCFG_ITER t a) p.iter
  s.putArr t a { s.arr t a with startup := true }

/-- Acceptance (R407 step 3b, R330, R312): no array is in service after it (R159), and no copy holds weights (R166). -/
def State.acceptCharter (s : State) (c : Charter) : State :=
  let s := (forEach allArrays s (fun s k => s.dropCopies k.1 k.2)).idleEngines
  let s : State := { s with charter := some c, job := { first := s.step, losses := [] }, root := { s.root with started := false } }
  let s := (s.wr R.HUB_CHSTAT (pack [(30, 2)])).setPair F.HUB_CHID_LO_ID F.HUB_CHID_HI_ID c.id
  let s := s.setFlag F.HUB_PRGSTAT_POLICY c.lag1
  let s := forEach (c.arrays.filter (fun p => p.stage == s.stage)) s (fun s p => s.takePlacement p)
  let s := match s.region 0x0E 0xFFFF with
    | some r => forEach (c.tensors.filter Tensor.scaled).zipIdx s (fun s (q : Tensor × Nat) => s.putMem (r.addr + 80 * q.2) (emptyScale q.1))
    | none => s
  let s := forEach (List.range 8) s (fun s n => forEach (s.shardsAt n) s (fun s x => s.initShard x))
  let s := forEach (List.range 8) s (fun s n => s.reloadEngine n)
  s.toRoot 0x08 s.step (leBytes 8 c.id ++ leBytes 4 c.crc.toNat ++ leBytes 2 s.devNum ++ zeros 2)

/-- A charter's bytes checked and accepted or refused (R404 to R407): none for acceptance, or true. -/
def State.loadCharter (s : State) (b : List Byte) : Bool × State :=
  if s.fld F.HUB_CHSTAT_STATE = 2 || s.fld F.HUB_CHSTAT_STATE = 1 then (false, s.charterRefused 3 (0, 0, 0, 0))
  else
    let (hit, s) := s.inject 0x20 0 0 0 0
    match (if hit then some (1, (0, 0, 60, 0)) else firstReason (s.charterChecks b)) with
    | some (reason, v) =>
      (false, ((s.wr R.HUB_CHSTAT (pack [(30, 3)])).charterRefused reason v))
    | none =>
      let s : State := { s with sec := { s.sec with charterDigest := leBytes 48 (Config.sha384 b).toNat } }
      (true, s.acceptCharter (parseCharter b))

end Sys2Proof.Machine
end

