-- ==== Sys2Proof/Machine/Product.lean ====
section
/-! DEFINITION. The product engines (07_outer_product_engine.md): OPE_PRODUCT, DPA_PRODUCT, MVM, and the events
COVER, COVER_STAGING, PANEL_FETCH, STATIONARY_OPERAND_FETCH, OPE_CNT_CLR and ARR_CNT_CLR.
-/

namespace Sys2Proof.Machine

/-! ### Refusals (R85, R91, R238, R239, R241, R248, R258, R702) -/

/-- Operand A lies outside its tensor, or operand B does, or the rows lie outside TC (R702, R238). -/
def productRange (c : TileCmd) (xa xb xc : Tensor) : Bool :=
  let aBad := if c.transA then decide (xa.rows < c.p1) || decide (xa.rowlen < c.r0 + c.nr)
    else decide (xa.rows < c.r0 + c.nr) || decide (xa.rowlen < c.p1)
  let bBad := if c.shift then c.p2 = 0 || c.p1 != xb.rows * c.p2 || decide (xb.rowlen < xc.rowlen - 1 + c.p2)
    else if c.transB then decide (xb.rows < xc.rowlen) || decide (xb.rowlen < c.p1)
    else decide (xb.rows < c.p1) || decide (xb.rowlen < xc.rowlen)
  aBad || bBad || decide (xc.rows < c.r0 + c.nr)

/-- Elements that one load of shift mode holds at most (R239): a lane has a quarter of the row register (R240). -/
def shiftRoom (xb : Tensor) (lane : Bool) : Nat := (if isWide xb.desc then 32768 else 65536) / (if lane then 4 else 1)

/-- The refusals of a product beside the common ones, in the order of R85: the format first, then the class. -/
def State.productRefusal (s : State) (op : Nat) (c : TileCmd) : Nat :=
  let own := match s.layout c.acc c.ta, s.layout c.acc c.tb, s.layout c.acc c.tc with
    | some xa, some xb, some xc =>
      firstRefusal [
        (notOperand xa.desc || notOperand xb.desc, 0x21),
        (op == 0x42 && isWide xa.desc, 0x21),
        (c.ac && (isWide xa.desc || isWide xb.desc || decide (524288 < c.p1) || !(c.dc == 0 || c.dc == 14)), 0x22),
        (4 ≤ c.lane && decide (32 < c.nr), 0x23),
        (productRange c xa xb xc, 0x14),
        (c.shift && decide (shiftRoom xb (c.lane != 0) < xb.rows * (63 + c.p2)), 0x24)]
    | _, _, _ => 0
  s.commonRefusal op c true true true own

/-! ### Values -/

/-- Rows of A as vectors over the reduction index (R702). -/
def State.operandA (s : State) (c : TileCmd) (x : Tensor) : Cnt (List (List FVal)) :=
  if c.transA then do
    let rows ← (List.range c.p1).mapM (fun k => (List.range c.nr).mapM (fun i =>
      readOperand c.policy x.desc (s.elem c.tile x k (c.r0 + i))))
    pure ((List.range c.nr).map (fun i => rows.map (fun r => r.getD i FVal.zero)))
  else s.readRows c.tile c.policy x c.r0 c.nr c.p1

/-- The first n elements of a row, of which the first `skip` were decoded before and count nothing now (R105). -/
def State.readRowFrom (s : State) (t : Nat) (p : Policy) (x : Tensor) (r skip n : Nat) : Cnt (List FVal) := do
  let old := ((s.readRow t p x r (min skip n)).run 0).1
  let new ← (List.range (n - skip)).mapM (fun i => readOperand p x.desc (s.elem t x r (skip + i)))
  pure (old ++ new)

/-- B as one list of n columns per reduction index (R702, R238). The first `held` columns stand in the row register
already, and their elements count nothing now (R105, R237). -/
def State.operandB (s : State) (c : TileCmd) (x : Tensor) (n held : Nat) : Cnt (List (List FVal)) :=
  if c.shift then do
    let lines ← (List.range x.rows).mapM (fun l =>
      s.readRowFrom c.tile c.policy x l (if held = 0 then 0 else held - 1 + c.p2) (n - 1 + c.p2))
    pure (lines.flatMap (fun l => (List.range c.p2).map (fun tau => (l.drop tau).take n)))
  else if c.transB then do
    let cols ← (List.range n).mapM (fun j => s.readRowFrom c.tile c.policy x j (if j < held then c.p1 else 0) c.p1)
    pure ((List.range c.p1).map (fun k => cols.map (fun v => v.getD k FVal.zero)))
  else (List.range c.p1).mapM (fun r => s.readRowFrom c.tile c.policy x r held n)

/-- The result elements of A · B in the command's class (R90, R93 to R97). -/
def productRows (c : TileCmd) (a b : List (List FVal)) (n : Nat) : Cnt (List (List Elem)) :=
  a.mapM (fun row => (List.range n).mapM (fun j =>
    accumulate c.ac c.policy (products row (b.map (fun r => r.getD j FVal.zero)))))

/-- A result element with one bit of its FP32 form flipped. -/
def flipElem (bit : Nat) (e : Elem) : Elem := { e with val := ofFP32 (fp32Bits e.val ^^^ BitVec.ofNat 32 (2 ^ bit)) }

/-- A comparison of R559 for a row or a column: its operand v, the sums of the other operand's rows m by reduction index, and the
results x. In the exact class the sums are equal; in the narrow-run class they differ within the tolerance. One that holds a
non-finite product is not compared. -/
def sumHolds (ac : Bool) (v : List FVal) (m : List (List FVal)) (x : List FVal) : Bool :=
  if !v.all (·.isFinite) || !m.all (fun r => r.all (·.isFinite)) then true
  else
    let sum (f : FVal → ℚ) : ℚ := ((List.zip v m).map (fun q => f q.1 * (q.2.map f).sum)).sum
    let diff := |(x.map (·.rat)).sum - sum FVal.rat|
    let tol : ℚ := if ac then 0 else (1 / 2 ^ 17 + (ceilDiv v.length 256 : ℚ) / 2 ^ 21) * sum (fun w => |w.rat|)
    x.all (·.isFinite) && decide (diff ≤ tol)

/-- Element j of every list. -/
def columnOf (j : Nat) (rows : List (List FVal)) : List FVal := rows.map (fun r => r.getD j FVal.zero)

/-- The comparisons of one output tile or panel run hold (R559, R560): a is A's rows, b is B by reduction index, x the results.
The DPA compares rows alone. -/
def runHolds (ac cols : Bool) (a b x : List (List FVal)) : Bool :=
  (List.zip a x).all (fun q => sumHolds ac q.1 b q.2)
    && (!cols || (List.range (x.headD []).length).all (fun j =>
      sumHolds ac (columnOf j b) ((List.range b.length).map (fun k => columnOf k a)) (columnOf j x)))

/-- How many output tiles of h rows by 64 columns, or panel runs of h vectors, fail their comparisons (R559, R560). -/
def runsFailing (ac cols : Bool) (h : Nat) (a b : List (List FVal)) (rows : List (List Elem)) : Nat :=
  let n := (rows.headD []).length
  ((List.zip (chunks h a) (chunks h rows)).map (fun (q : List (List FVal) × List (List Elem)) =>
    ((List.range (ceilDiv n 64)).filter (fun p =>
      let cut (r : List FVal) : List FVal := (r.drop (64 * p)).take 64
      !runHolds ac cols q.1 (b.map cut) (q.2.map (fun r => cut (r.map (·.val)))))).length)).sum

/-- Comparisons that failed, and failed again in the re-run (R562): counted, flagged, and followed by a tile fault and an ENGINE
test. -/
def State.checkHard (s : State) (t acc n : Nat) : State :=
  let s := (s.bump (F.TIL_CNT_CHKHARD_COUNT t) n).event (F.TIL_CHKEVT_PERSIST t)
  (s.tileFault t acc).requestTest t 3 0 0 0 0 none

/-- A checksum comparison of a tile failed, which a running ENGINE test takes (R569). -/
def State.checkFailed (s : State) (t : Nat) : State :=
  let s := s.tally t 0x50 1
  s.putTileRec t { s.tile t with redFailed := true }

/-- The checksum comparisons of n output tiles or panel runs (R559, R560, R562), of which `fails` do not hold: the re-run from the
same operands fails as they did. A SIGNAL injection fails one comparison, and its re-run passes; a DATA injection flips a bit in
both runs. -/
def State.checkRuns (s : State) (t acc point : Nat) (on : Bool) (n fails : Nat) (els : List (List Elem)) :
    List (List Elem) × State :=
  if !(on || s.flag (F.TIL_REDSTAT_ON t)) then (els, s)
  else
    let s := if fails = 0 then s else (s.checkFailed t).checkHard t acc fails
    match s.injectMany point t acc n with
    | (none, s) => (els, s)
    | (some _, s) =>
      let s := s.checkFailed t
      if s.flag F.INJ_CTRL_MODE then
        let (d, s) := s.draw
        let w := (els.headD []).length
        let i := Config.flipElem d % max 1 (els.length * w)
        let els := els.mapIdx (fun r row => if r = i / max 1 w then
          row.mapIdx (fun j e => if j = i % max 1 w then flipElem (Config.flipBit d % 32) e else e) else row)
        (els, s.checkHard t acc 1)
      else (els, (s.bump (F.TIL_CNT_CHKFAIL_COUNT t) 1).event (F.TIL_CHKEVT_TRANS t))

/-! ### The OPE -/

/-- Reduction indices that the row register holds (R234, R240). -/
def rowDepth (wide lane : Bool) : Nat := (if wide then 512 else 1024) / (if lane then 4 else 1)

/-- Beats of an output tile's reduction (R231, R232). -/
def tileBeats (xa xb : Tensor) (k : Nat) : Nat :=
  if is4bit xa.desc && is4bit xb.desc then (k + 1) / 2
  else if isWide xa.desc && isWide xb.desc then 4 * k
  else k

/-- Column vectors come directly from the tile store (R233). -/
def directA (c : TileCmd) (xa : Tensor) : Bool := c.transA && c.r0 % unitElems (descCode xa.desc) == 0

/-- Position tiles that one window of shift mode serves (R239). -/
def windowTiles (c : TileCmd) (xb : Tensor) : Nat :=
  max 1 ((shiftRoom xb (c.lane != 0) / max 1 xb.rows - 63 - c.p2) / 64 + 1)

/-- Windows that shift mode loads for nc position tiles (R239). -/
def shiftLoads (c : TileCmd) (xb : Tensor) (nc : Nat) : Nat := ceilDiv nc (windowTiles c xb)

/-- Blocks of at most 128 × 128 narrow or 128 × 64 wide operands that a panel of the row side fills (R243): 128 reduction
indices by 128 or 64 columns. DESIGN CHOICE: a panel's blocks start at its first index and column, and an incomplete block
counts as one (log 87). -/
def turnBlocks (xb : Tensor) (k n : Nat) : Nat := ceilDiv k 128 * ceilDiv n (if isWide xb.desc then 64 else 128)

/-- Blocks that the loads of one output tile's segments put through the turn buffer: the last segment may be short (R234,
R243). -/
def segmentBlocks (xb : Tensor) (k depth : Nat) : Nat :=
  k / depth * turnBlocks xb depth 64 + turnBlocks xb (k % depth) 64

/-- The lanes that a command uses: its own, or all four at full width (R240). -/
def tileLanes (c : TileCmd) : List Nat := if c.lane = 0 then List.range 4 else [c.lane - 4]

/-- The region of a row operand, which KEEP compares (R237): the bytes that it names and how they are laid out. -/
def Tensor.region (x : Tensor) : List Nat := [x.place, x.base, x.pitch, x.rows, x.rowlen]

/-- KEEP is honoured (R237): the panel that the row register holds. -/
def State.keepPanel (s : State) (c : TileCmd) (xb : Tensor) (depth : Nat) : Option (List (List FVal)) :=
  let x := s.tile c.tile
  let tags := (tileLanes c).map (fun l => lookup (fun _ => none) x.keep l)
  match tags.head? with
  | some (some k) =>
    if c.keep && tags.all (· == some k) && k.ctx == accCtx c.acc && k.region == xb.region && k.db == c.db && k.bt == c.transB
        && k.shift == c.shift && k.full == (c.lane == 0) && k.depth == min c.p1 depth then some k.panel else none
  | _ => none

/-- What the row register holds after a command (R237): nothing that a KEEP may use when the reduction ran in several
segments. -/
def State.setKeep (s : State) (c : TileCmd) (xb : Tensor) (depth : Nat) (b : List (List FVal)) : State :=
  let wide := 64 * (if c.shift then windowTiles c xb else 1)
  let k : Option KeepTag := if c.p1 ≤ depth then
      some { ctx := accCtx c.acc, region := xb.region, db := c.db, bt := c.transB, shift := c.shift, depth := c.p1,
             full := c.lane == 0, panel := b.map (fun r => r.take wide) }
    else none
  let x := s.tile c.tile
  s.putTileRec c.tile { x with keep := (tileLanes c).foldl (fun m l => store (fun _ => none) m l k) x.keep }

/-- The first panel of B replaced by what the row register holds (R237). -/
def withPanel (panel b : List (List FVal)) : List (List FVal) :=
  b.mapIdx (fun k r => match panel[k]? with
    | some p => p.take r.length ++ r.drop (min p.length r.length)
    | none => r)

/-- The mode of the OPE and the contexts of its lanes as a command starts (R242, R259). DESIGN CHOICE: a lane's context
stays shown after its command (log 71). -/
def State.opeMode (s : State) (c : TileCmd) : State :=
  let t := c.tile
  let s := s.putTileRec t { s.tile t with laneMode := c.lane != 0 }
  if c.lane = 4 then s.setFld (F.OPE_LCTX_CTX0 t) (accCtx c.acc)
  else if c.lane = 5 then s.setFld (F.OPE_LCTX_CTX1 t) (accCtx c.acc)
  else if c.lane = 6 then s.setFld (F.OPE_LCTX_CTX2 t) (accCtx c.acc)
  else if c.lane = 7 then s.setFld (F.OPE_LCTX_CTX3 t) (accCtx c.acc)
  else s

/-- Unit counters of an OPE command (R230 to R245), with the events of R620 (log 11 on what timing is left out). -/
def State.opeCounts (s : State) (c : TileCmd) (xa xb : Tensor) (n : Nat) (kept : Bool) : State :=
  let t := c.tile
  let depth := rowDepth (isWide xb.desc) (c.lane != 0)
  let mc := ceilDiv c.nr (if c.lane = 0 then 128 else 32)
  let nc := ceilDiv n 64
  let segs := max 1 (ceilDiv c.p1 depth)
  let beats := tileBeats xa xb c.p1
  let raw := if c.shift then shiftLoads c xb nc else if segs = 1 then nc else nc * mc * segs
  let loads := if kept then raw - 1 else raw
  let chk := s.flag (F.TIL_CHKCTRL_OPE t) || s.flag (F.TIL_REDSTAT_ON t)
  let gap := if chk then 136 - (beats + ceilDiv beats 32) else 128 - beats
  let dstall := if segs = 1 || c.shift then (nc * mc - raw) * gap else 0
  let first := if c.shift then turnBlocks xb xb.rows (shiftRoom xb (c.lane != 0) / max 1 xb.rows)
    else turnBlocks xb (min c.p1 depth) 64
  let all := if c.shift || segs = 1 then raw * first else nc * mc * segmentBlocks xb c.p1 depth
  let turnB := if kept then all - first else all
  let turnA := if directA c xa then 0 else mc * nc * ceilDiv c.p1 (if isWide xa.desc then 64 else 128)
  let s := (s.bumpPair (F.OPE_CNT_BUSY_LO_COUNT t) (F.OPE_CNT_BUSY_HI_COUNT t) (mc * nc * beats)).tally t 0x02 (mc * nc * beats)
  let s := (s.bump (F.OPE_CNT_LOAD_COUNT t) loads).bump (F.OPE_CNT_LSTALL_COUNT t) (128 * loads)
  let s := (s.tally t 0x03 (128 * loads)).bump (F.OPE_CNT_DSTALL_COUNT t) dstall
  let s := (s.tally t 0x04 dstall).bump (F.OPE_CNT_TURN_COUNT t) (turnB + turnA)
  let s := s.tally t 0x05 (turnB + turnA)
  if c.keep && !kept then (s.bump (F.OPE_CNT_KEEPMISS_COUNT t) 1).tally t 0x06 1 else s

/-- The array (8 × tile + array), bank, first output and first input of the PN4 image that a tensor lies in (R314). -/
def State.imageAt (s : State) (x : Tensor) : Option (Nat × Nat × Nat × Nat) :=
  match s.region 6 0xFFFF with
  | some g =>
    if x.place == g.stack && decide (g.base ≤ x.base) && decide (x.base < g.base + g.length) then
      let o := x.base - g.base
      some (o / 294912, o / 147456 % 2, o % 147456 / 288, o % 288 / 9 * 16)
    else none
  | none => none

/-- V_q(U_qᵀδ) for n inputs from i0, with δ on the outputs from j0 (R313), in R213's order. -/
def Bank.dxCorrection (k : Bank) (p : Policy) (j0 i0 n : Nat) (delta : List FVal) : Cnt (List Elem) :=
  lowRank p 8 n (fun c => (List.range delta.length).map (fun j => bfAt k.uq (32 * (j0 + j) + c)))
    (fun i => (List.range 8).map (fun c => bfAt k.vq (32 * (i0 + i) + c))) delta 0

/-- A result element with a correction added to it (R213, R313): one FP32 addition, and the marks of both. -/
def addElem (p : Policy) (y corr : Elem) : Cnt Elem := do
  let z ← elemOf (fadd p y.val corr.val)
  pure { z with absorbed := y.absorbed || corr.absorbed, counted := z.counted || y.counted || corr.counted }

/-- The rows of a dX product in PN4 data-gradient mode with their correction (R313); other rows as they are. -/
def State.dxRows (s : State) (c : TileCmd) (xb : Tensor) (n : Nat) (a : List (List FVal)) (rows : List (List Elem)) :
    Cnt (List (List Elem)) :=
  match (if c.job then s.imageAt xb else none) with
  | some (k, b, j0, i0) =>
    let bank := (s.arr (k / 8) (k % 8)).bank b
    (List.zip a rows).mapM (fun (q : List FVal × List Elem) => do
      let v ← bank.dxCorrection c.policy j0 i0 n q.1
      (List.zip q.2 v).mapM (fun (e : Elem × Elem) => addElem c.policy e.1 e.2))
  | none => pure rows

/-- The OPE's computation. -/
def opeBody (c : TileCmd) (xa xb xc : Tensor) : Body := fun s =>
  let n := xc.rowlen
  let depth := rowDepth (isWide xb.desc) (c.lane != 0)
  let kept := s.keepPanel c xb depth
  let held := ((kept.getD []).headD []).length
  let ((a, b), sat) := ((do
    let a ← s.operandA c xa
    let b ← s.operandB c xb n held
    pure (a, b)) : Cnt (List (List FVal) × List (List FVal))).run 0
  let b := match kept with
    | some p => withPanel p b
    | none => b
  let (rows, sat) := (productRows c a b n).run sat
  let h := if c.lane = 0 then 128 else 32
  let (rows, s) := s.checkRuns c.tile c.acc 0x07 (s.flag (F.TIL_CHKCTRL_OPE c.tile)) (ceilDiv c.nr h * ceilDiv n 64)
    (runsFailing c.ac true h a b rows) rows
  let (rows, sat) := (s.dxRows c xb n a rows).run sat
  let s := (s.opeMode c).opeCounts c xa xb n kept.isSome
  let s := s.setKeep c xb depth b
  let s := (s.traffic c.tile xa false (if c.transA then c.p1 else c.nr)).traffic c.tile xb false xb.rows
  (rows.mapIdx (fun i es => (c.r0 + i, es)), sat, s)

/-- OPE product run on its tile. -/
def State.opeProduct (s : State) (c : TileCmd) : State :=
  let xa := (s.layout c.acc c.ta).map (s.fed c)
  let xb := (s.layout c.acc c.tb).map (s.fed c)
  let xc := s.target c
  s.runTile 0x41 (if c.lane = 0 then 0 else c.lane - 4) c (s.productRefusal 0x41 c) xa xb xc (tileRows c) true
    (opeBody c (xa.getD {}) (xb.getD {}) (xc.getD {})) id

/-- OPE_PRODUCT (R229 to R246). -/
def execOpeProduct (c : TileCmd) (s : State) : Outcome := act s fun s => s.opeProduct c

/-! ### The DPA -/

/-- Vectors of a run (R249). -/
def State.dpaRun (s : State) (t : Nat) : Nat := max 1 (s.fld (F.OPE_DPACFG_RUN t))

/-- Unit counters of DPA work on m vectors of k inputs against n columns, in a given number of runs (R247 to R249). -/
def State.dpaCounts (s : State) (t m k n runs : Nat) : State :=
  let panels := ceilDiv n 64 * ceilDiv k 512 * runs
  let beats := m * ceilDiv n 64 * ceilDiv k 32
  let s := (s.bumpPair (F.OPE_DPA_CNT_BUSY_LO_COUNT t) (F.OPE_DPA_CNT_BUSY_HI_COUNT t) beats).tally t 0x08 beats
  (s.bump (F.OPE_DPA_CNT_PANEL_COUNT t) panels).tally t 0x09 panels

/-- The DPA's computation. -/
def dpaBody (c : TileCmd) (xa xb xc : Tensor) : Body := fun s =>
  let n := xc.rowlen
  let ((a, b), sat) := ((do
    let a ← s.operandA c xa
    let b ← s.operandB c xb n 0
    pure (a, b)) : Cnt (List (List FVal) × List (List FVal))).run 0
  let (rows, sat) := (productRows c a b n).run sat
  let h := s.dpaRun c.tile
  let (rows, s) := s.checkRuns c.tile c.acc 0x08 (s.flag (F.TIL_CHKCTRL_DPA c.tile)) (ceilDiv n 64 * ceilDiv c.nr h)
    (runsFailing c.ac false h a b rows) rows
  let (rows, sat) := (s.dxRows c xb n a rows).run sat
  let s := s.dpaCounts c.tile c.nr c.p1 n (ceilDiv c.nr (s.dpaRun c.tile))
  let s := (s.traffic c.tile xa false (if c.transA then c.p1 else c.nr)).traffic c.tile xb false xb.rows
  (rows.mapIdx (fun i es => (c.r0 + i, es)), sat, s)

/-- DPA product run on its tile. -/
def State.dpaProduct (s : State) (c : TileCmd) : State :=
  let xa := (s.layout c.acc c.ta).map (s.fed c)
  let xb := (s.layout c.acc c.tb).map (s.fed c)
  let xc := s.target c
  s.runTile 0x42 4 c (s.productRefusal 0x42 c) xa xb xc (tileRows c) true
    (dpaBody c (xa.getD {}) (xb.getD {}) (xc.getD {})) id

/-- DPA_PRODUCT (R247 to R250, R255). -/
def execDpaProduct (c : TileCmd) (s : State) : Outcome := act s fun s => s.dpaProduct c

/-! ### MVM -/

/-- Covered columns' weights from the digital copy of the active bank (R160, R188, R251), each decoded once (R87, R105). -/
def State.coverWeights (s : State) (t a : Nat) (p : Policy) (cols : List Nat) : Cnt (List (Nat × List FVal)) :=
  cols.mapM (fun j => do
    let w ← (List.range 512).mapM (fun i => readOperand p 1 (s.copyWeight (s.active t a) t a i j))
    pure (j, w))

/-- cover of R251 for one column of weights, before the block exponent is applied: the run of the DPA; a vector of zeros needs
none. -/
def coverRun (p : Policy) (w : List FVal) (m : List Int) : Cnt Elem :=
  if m.all (· = 0) then pure { val := FVal.zero } else narrowRun p (products w (m.map FVal.ofInt))

/-- The covered columns' runs for a vector (R251). -/
def coverRuns (p : Policy) (ws : List (Nat × List FVal)) (m : List Int) : Cnt (List Elem) := ws.mapM (fun w => coverRun p w.2 m)

/-- The covered columns placed among a vector's outputs (R251), with the block exponent applied to their runs. -/
def placeCover (p : Policy) (ws : List (Nat × List FVal)) (runs : List Elem) (e : Int) (y : List Elem) : Cnt (List Elem) := do
  let vs ← runs.mapM (fun r => do
    let v ← elemOf (fldexp p r.val e)
    pure { v with absorbed := r.absorbed, counted := v.counted || r.counted })
  pure (y.mapIdx (fun j v => match (List.zip ws vs).find? (fun w => w.1.1 == j) with
    | some w => w.2
    | none => v))

/-- The checksum comparisons of a vector's covered columns (R560): its panels of 64 columns are runs of the DPA, which start with
the first vector of a run. -/
def State.checkCover (s : State) (t acc : Nat) (first : Bool) (ws : List (Nat × List FVal)) (m : List Int) (runs : List Elem) :
    List Elem × State :=
  let b := (List.range 512).map (fun i => ws.map (fun w => w.2.getD i FVal.zero))
  let (els, s) := s.checkRuns t acc 0x08 (s.flag (F.TIL_CHKCTRL_DPA t)) (b2n first * ceilDiv ws.length 64)
    (runsFailing false false 1 [m.map FVal.ofInt] b [runs]) [runs]
  (els.headD [], s)

/-- An integer-coded MVM input (R129). -/
def intInput (d : W16) : Bool := 7 ≤ descCode d && descCode d ≤ 11
/-- A one-slice input: INT2, INT4 and UINT4 (R129). -/
def oneSlice (d : W16) : Bool := descCode d == 9 || descCode d == 10 || descCode d == 11

/-- A vector as the array edge forms it (R129, R131, R132): codes or mantissas of 512 rows and the block exponent,
whether a NaN was absorbed; none where it is not driven (R133). -/
def edgeVector (p : Policy) (d : W16) (xs : List FVal) : Cnt (Option (List Int × Int × Bool)) :=
  if intInput d then pure (some (padTo 512 0 (xs.map FVal.rne), 0, false))
  else do
    match ← edgeConvert p d (padTo 512 FVal.zero xs) with
    | some (m, e, ab) => pure (some (padTo 512 0 m, e, ab))
    | none => pure none

/-- Clips of an MVM attributed to its command (R310): a column of a float input keeps its mark, an integer-coded
input's tensor is cut. -/
def State.attributeClips (s : State) (t a : Nat) (x : Tensor) (before : List Nat) : State :=
  let y := s.arr t a
  let new := y.clipped
  if intInput x.desc then
    let s := s.putArr t a { y with clipped := before }
    if x.scaled && !new.isEmpty then s.putUse x.id { s.use x.id with cut := true } else s
  else s.putArr t a { y with clipped := before ++ new.filter (fun j => !before.contains j) }

/-- One vector of an MVM (R129 to R134, R148, R213, R251): the elements of its 512 outputs, where ws holds the covered
columns' weights. CHKVEC's index is the row of the command's tensor (DESIGN CHOICE, log 66). -/
def State.mvmVector (s : State) (c : TileCmd) (xa : Tensor) (ws : List (Nat × List FVal)) (r : Nat) :
    Cnt (List Elem × State) := do
  let t := c.tile
  let a := c.sel
  let p := c.policy
  match ← edgeVector p xa.desc ((List.range xa.rowlen).map (fun i => s.elem t xa r i)) with
  | none =>
    let s := (s.event (F.ARR_EVT_NONFIN t a)).bump (F.ARR_CNT_NONFIN_COUNT t a) 1
    pure (List.replicate 512 { val := .nan }, s.tally t 0x17 1)
  | some (m, e, absorbed) =>
    let cols := ws.map (·.1)
    let none' : List Elem := List.replicate 512 { val := FVal.zero }
    let (ys, s) ← if s.dfwd || (s.arr t a).out then pure (none', s)
      else do
        let (n, q, zero, s) := s.vector t a c.acc r p (!oneSlice xa.desc) m e
        if zero then pure (none', s)
        else do
          let y ← s.outputs t a p (n.mapIdx (fun j v => if cols.contains j then 0 else v)) q e
          let y ← s.correct t a p cols y m e
          pure (y, s.corrBeats t a m)
    let runs ← coverRuns p ws m
    let (runs, s) := s.checkCover t c.acc ((r - c.r0) % s.dpaRun t == 0) ws m runs
    let out ← placeCover p ws runs e ys
    let s := if cols.isEmpty then s else (s.bump (F.OPE_DPA_CNT_COVER_COUNT t) 1).tally t 0x0A 1
    pure (out.map (fun y => { y with absorbed := y.absorbed || absorbed }), s)

/-- The tile command that runs or waits under an accession number, as far as the device holds it. -/
def State.commandOf (s : State) (t acc : Nat) : Option TileCmd :=
  ((s.job.left ++ (s.tile t).seqWait).find? (fun q => q.1 == 0x40 && q.2.acc == acc && q.2.tile == t)).map (·.2)

/-- Clips of a slice that the array edge ran by itself (R150, R310): by the tensor of its MVM, where the device holds that
command; a one-slice vector is integer-coded (R129) and lowers no gain. -/
def State.edgeClips (s : State) (t a acc slice : Nat) (before : List Nat) : State :=
  match (s.commandOf t acc).bind (fun c => s.layout acc c.ta) with
  | some x => s.attributeClips t a x before
  | none =>
    let y := s.arr t a
    s.putArr t a { y with clipped := if slice = 0 then before else before ++ y.clipped.filter (fun j => !before.contains j) }

/-- A slice of a vector on the active bank, and what the array edge holds of the vector after it. Slice 0 is a vector of one
slice, 1 and 2 are the high and the low slice (R129, R141). -/
def State.arraySlice (s : State) (t a acc index slice : Nat) (p : Policy) (e : Int) (d : List Int) : State :=
  let q := s.fld (F.ARR_QAVG_QAVG t a)
  if slice = 1 then
    let m := d.map (16 * ·)
    let (c, s) := s.slice t a acc index d (s.boundCode t a p true 16 q [] [] m e)
    let x := s.arr t a
    let v : EdgeVec := { acc, index, n := c.map (fun r => 16 * r.1), trips := c.map (·.2), qavg := q, m, e }
    s.putArr t a { x with edge := x.edge ++ [v] }
  else
    let (v, rest) : EdgeVec × List EdgeVec := match slice, (s.arr t a).edge.getLast? with
      | 2, some v => ({ v with m := List.zipWith (· + ·) v.m d }, (s.arr t a).edge.dropLast)
      | _, _ => ({ acc, index, qavg := q, m := d, e }, (s.arr t a).edge)
    let (c, s) := s.slice t a acc index d (s.boundCode t a p (slice == 2) 1 v.qavg v.n v.trips v.m v.e)
    let n := if v.n.isEmpty then c.map (·.1) else List.zipWith (fun h (r : Int × Bool) => h + r.1) v.n c
    let y := ((s.outputs t a p n v.qavg v.e).run 0).1.map (fun r => if v.m.all (· = 0) then 0 else fp32Bits r.val)
    s.putArr t a { s.arr t a with edge := rest ++ [{ v with n, y, full := true }] }

/-- ARRAY_MVM (R128 to R150, R194, R503, R504, R521): a slice of a vector on the active bank of an array in service. -/
def execArrayMvm (t a acc index slice : Nat) (np : Bool) (e : Int) (d : List Int) (s : State) : Outcome :=
  act s fun s =>
    if s.flag (F.ARR_STAT_INSVC t a) && !(s.arr t a).out && !s.windowHeld t a then
      let x := s.arr t a
      let s := s.putArr t a { x with clipped := [] }
      (s.arraySlice t a acc index slice (policyOf np) e d).edgeClips t a acc slice x.clipped
    else s

/-- Every vector of an MVM in order, and how many were driven. -/
def State.mvmRows (c : TileCmd) (xa : Tensor) (ws : List (Nat × List FVal)) (n : Nat) :
    List Nat → State → Cnt (List (Nat × List Elem) × State)
  | [], s => pure ([], s)
  | r :: rs, s => do
    let (es, s) ← s.mvmVector c xa ws r
    let (rows, s) ← State.mvmRows c xa ws n rs s
    pure ((r, es.take n) :: rows, s)

/-- The MVM's computation. The DPA covers its vectors in runs (R249, R251). -/
def mvmBody (c : TileCmd) (xa xc : Tensor) : Body := fun s =>
  let t := c.tile
  let x := s.arr t c.sel
  let before := x.clipped
  let cols := s.coveredCols t c.sel
  let s := s.putArr t c.sel { x with clipped := [] }
  let ((rows, s), sat) := ((do
    let ws ← s.coverWeights t c.sel c.policy cols
    State.mvmRows c xa ws xc.rowlen (tileRows c) s) : Cnt (List (Nat × List Elem) × State)).run 0
  let s := if cols.isEmpty then s else s.dpaCounts t c.nr 512 cols.length (ceilDiv c.nr (s.dpaRun t))
  let s := (s.attributeClips t c.sel xa before).traffic t xa false c.nr
  (rows, sat, s)

/-- MVM's refusals (R130, R132, R702). -/
def State.mvmRefusal (s : State) (c : TileCmd) : Nat :=
  let own := match s.layout c.acc c.ta, s.layout c.acc c.tc with
    | some xa, some xc =>
      let d := xa.desc
      firstRefusal [
        (notOperand d || descZpe d, 0x21),
        (decide (512 < xa.rowlen) || decide (512 < xc.rowlen) || decide (xa.rows < c.r0 + c.nr)
          || decide (xc.rows < c.r0 + c.nr), 0x14)]
    | _, _ => 0
  s.commonRefusal 0x40 c true false true own

/-- MVM run on its tile's array: an array that is neither in service nor covered has it wait (R159, R407), and so does one
whose windows are held (R194, R503, R504, R521). -/
def State.mvm (s : State) (c : TileCmd) : State :=
  let xa := (s.layout c.acc c.ta).map (s.fed c)
  let xc := s.target c
  let ready := s.dfwd || (s.arr c.tile c.sel).out
    || (s.flag (F.ARR_STAT_INSVC c.tile c.sel) && !s.windowHeld c.tile c.sel)
  let r := s.mvmRefusal c
  if r = 0 && !ready && s.mayStart c.acc && s.issuedCmd 0x40 c then
    s.waitCmd 0x40 c
  else
    s.runTile 0x40 (6 + c.sel) c r xa none xc (tileRows c) false (mvmBody c (xa.getD {}) (xc.getD {})) id

/-- MVM (R129 to R134, R251, R256). -/
def execMvm (c : TileCmd) (s : State) : Outcome := act s fun s => s.mvm c

/-! ### Events of the engines -/

/-- COVER (R251, R254): the DPA computes the covered columns of the oldest complete vector at an array's edge that awaits
them and places them among its outputs. A panel is loaded when a run of vectors starts (R249). held says that a whole run
of the array's vectors waited. -/
def execCover (t a : Nat) (np held : Bool) (s : State) : Outcome :=
  act s fun s =>
    let s := if held then
        ((s.bump (F.OPE_DPA_CNT_HOLD_COUNT t) 1).event (F.OPE_EVT_PACE t)).tally t 0x18 1
      else s
    let x := s.arr t a
    let cols := s.coveredCols t a
    match x.edge.find? (fun v => v.full && !v.covered && !v.done) with
    | some v =>
      if cols.isEmpty then s
      else
        let y : List Elem := (padTo 512 0 v.y).map (fun w => { val := ofFP32 w })
        let (ws, _) := (s.coverWeights t a (policyOf np) cols).run 0
        let (runs, _) := (coverRuns (policyOf np) ws v.m).run 0
        let (runs, s) := s.checkCover t v.acc (x.coverRun == 0) ws v.m runs
        let out := ((placeCover (policyOf np) ws runs v.e y).run 0).1.map (fun r => fp32Bits r.val)
        let s := s.putArr t a { x with
          edge := updFirst (fun v => v.full && !v.covered && !v.done) (fun v => { v with y := out, covered := true }) x.edge,
          coverRun := (x.coverRun + 1) % s.dpaRun t }
        ((s.bump (F.OPE_DPA_CNT_COVER_COUNT t) 1).tally t 0x0A 1).dpaCounts t 1 512 cols.length (b2n (x.coverRun == 0))
    | none => s

/-- COVER_STAGING (R252): the copies of the columns that a tile covers are staged from memory into its cover region,
1 KiB a column in ascending array and column, once each of these copies has been written (R166). -/
def execCoverStaging (t : Nat) (s : State) : Outcome :=
  act s fun s =>
    match s.region 0x21 t with
    | none => s
    | some r =>
      let cols := (List.range 8).flatMap (fun a => (s.arr t a).cover.map (fun j => (a, j)))
      if !cols.all (fun c => ((s.arr t c.1).bank (s.active t c.1)).copied) then s else
      let s := (cols.zipIdx).foldl (fun (s : State) cj =>
        match s.copyAddr (s.active t cj.1.1) t cj.1.1 with
        | some base => s.putTile t (r.base + 1024 * cj.2) (s.memBytes (base + 1024 * cj.1.2) 1024)
        | none => s) s
      s.putTileRec t { s.tile t with staged := ceilDiv cols.length 64 }

/-- PANEL_FETCH (R704): in digital forward mode the next 64 KiB panel arrives in the cover region: the 64 columns
from column 64 × panel of an array, in the half of the region that the DPA does not use. -/
def execPanelFetch (t a panel : Nat) (s : State) : Outcome :=
  act s fun s =>
    match s.region 0x21 t, s.copyAddr (s.active t a) t a with
    | some r, some base =>
      if s.dfwd then
        let s := s.putTile t (r.base + 65536 * ((s.tile t).staged % 8)) (s.memBytes (base + 65536 * panel) 65536)
        s.putTileRec t { s.tile t with staged := (s.tile t).staged + 1 }
      else s
    | _, _ => s

/-- STATIONARY_OPERAND_FETCH (R236): the next stationary operand is in the tile store. waited is how many beats a
load that was due waited for it. -/
def execStationaryOperandFetch (t tensor waited : Nat) (s : State) : Outcome :=
  act s fun s =>
    let s := (s.bump (F.OPE_CNT_LSTALL_COUNT t) waited).tally t 0x03 waited
    s.putTileRec t { s.tile t with fetched := some tensor }

/-- OPE_CNT_CLR (R259, R260): a write of 1 to OPE_CTRL.CNT_CLR. -/
def execOpeCntClr (t : Nat) (s : State) : Outcome :=
  hostReg (R.OPE_CTRL t) s fun s => s.clearRegs (fun o => R.OPE_CNT_BUSY_LO t ≤ o && o ≤ R.OPE_DPA_CNT_HOLD t)

/-- Offsets of the ARR_CNT_ registers inside an array's window (R157, R201, R227, R319, R575). -/
def arrCounters (t a : Nat) : List Nat :=
  [R.ARR_CNT_MVM_LO t a, R.ARR_CNT_MVM_HI t a, R.ARR_CNT_ZSKIP t a, R.ARR_CNT_CLIP t a, R.ARR_CNT_CHK t a,
   R.ARR_CNT_CHKSUP t a, R.ARR_CNT_START t a, R.ARR_CNT_REF t a, R.ARR_CNT_NONFIN t a, R.ARR_CNT_PULSE_LO t a,
   R.ARR_CNT_PULSE_HI t a, R.ARR_CNT_UNREACH t a] ++
  [R.ARR_CNT_CLAMP t a, R.ARR_CNT_SUSP t a, R.ARR_CNT_REMAP t a, R.ARR_CNT_HMVM t a, R.ARR_CNT_EXCL t a,
   R.ARR_CNT_BOUT t a, R.ARR_CNT_CORRSTALL t a, R.ARR_CNT_GAINCUT t a, R.ARR_CNT_CAL t a, R.ARR_CNT_CALFAIL t a]

/-- ARR_CNT_CLR (R157, R158): a write of 1 to ARR_CTRL.CNT_CLR. -/
def execArrCntClr (t a : Nat) (s : State) : Outcome :=
  hostReg (R.ARR_CTRL t a) s fun s => s.clearRegs (fun o => (arrCounters t a).contains o)

end Sys2Proof.Machine
end

