-- ==== Sys2Proof/Machine/Residual.lean ====
section
/-! DEFINITION. Measuring a bank, building its factors, the budget conditions (06_residual_correction.md) and the
calibration of an array (R547 to R558): RESIDUAL_MEASUREMENT, FACTOR_BUILD, CALIBRATION and CALIBRATION_SUSPEND.
-/

namespace Sys2Proof.Machine

/-! ### Patterns and transforms -/

/-- The parity of a number's bits. -/
def parity : Nat → Nat → Bool
  | 0, _ => false
  | n + 1, v => (v % 2 == 1) != parity n (v / 2)

/-- σ of R205. -/
def sigmaAt (i : Nat) : Int := if (i * 0x9E3779B9 % 2 ^ 32) / 2 ^ 31 = 1 then -1 else 1
/-- s of R205: element i of pattern k. -/
def patternAt (k i : Nat) : Int := if parity 9 (k &&& i) then -(sigmaAt i) else sigmaAt i

/-- One stage of butterflies with distance h over a list (R206). -/
def butterfly (h : Nat) (xs : List FVal) : Cnt (List FVal) :=
  (List.range xs.length).mapM (fun i =>
    if i / h % 2 = 0 then fadd .saturate (xs.getD i .nan) (xs.getD (i + h) .nan)
    else fsub .saturate (xs.getD (i - h) .nan) (xs.getD i .nan))

/-- The fast Walsh-Hadamard transform, butterflies in ascending bit order (R206). -/
def wht (xs : List FVal) : Cnt (List FVal) :=
  (List.range 9).foldlM (fun ys b => butterfly (2 ^ b) ys) xs

/-! ### Measurement (R206) -/

/-- D of one pattern and column: the ratiometric output less what the readback predicts. DESIGN CHOICE: the operations of a
measurement take the policy SATURATE, for R206 names none (log 84). -/
def measured (c lsb qcal : Int) (qbar : FVal) (pred : Int) : Cnt FVal := do
  let a ← fmul .saturate (FVal.ofInt (c * lsb)) (.num false qcal.natAbs (-12))
  let b ← fdiv .saturate a qbar
  fsub .saturate b (.num (pred < 0) pred.natAbs (-1))

/-- Ẽ of a cell (R204, R206): target, readback in sixteenths, path difference. -/
def residualOf (ws : FVal) (t r16 : Int) (delta : FVal) : Cnt Nat := do
  let a ← fsub .saturate (FVal.ofInt t) (.num (r16 < 0) r16.natAbs (-4))
  let b ← fsub .saturate a delta
  let c ← fmul .saturate ws b
  let (code, _) ← convFloat fmtBF16 .saturate c
  pure code

/-- The residual of one logical column from its codes and trips by pattern, REF0's mean, targets and readbacks. -/
def columnResidual (ws qbar : FVal) (qcal lsb : Int) (reads : List (Int × Bool)) (ts rs : List Int) :
    List Nat :=
  let excl := (reads.filter (·.2)).length
  let m : Cnt (List Nat) := do
    let d ← (List.range 512).mapM (fun k =>
      let (c, trip) := reads.getD k (0, false)
      if trip then pure FVal.zero
      else measured c lsb qcal qbar ((List.range 512).map (fun i => patternAt k i * rs.getD i 0)).sum)
    let w ← wht d
    (List.range 512).mapM (fun i =>
      let v := w.getD i FVal.zero
      let v := if sigmaAt i < 0 then v.neg else v
      residualOf ws (ts.getD i 0) (rs.getD i 0) (if 32 < excl then FVal.zero else v.scale (-12)))
  (m.run 0).1

/-- The QCAL that belongs to a bank: a calibration's value that awaits its point of effect, else the register's. -/
def State.bankQcal (s : State) (t a b : Nat) : Nat :=
  let c := (s.arr t a).cal
  if s.fld (F.ARR_CALSTAT_STATE t a) = 2 then (if b = 0 then c.qcal0 else c.qcal1)
  else if b = s.active t a then s.fld (F.ARR_QCAL_QCAL t a) else s.fld (F.ARR_QCALI_QCAL t a)

/-- One measurement MVM (R206, R207): pattern k on the bank, in one draw; its codes and trips by logical column, and REF0.
Each tripped column is an excluded sample. DESIGN CHOICE: it is no clip of R150 (log 85). -/
def State.measurePattern (s : State) (t a b k : Nat) : List (Int × Bool) × Int × State :=
  let (n, s) := s.draw
  let x := s.arr t a
  let d := (List.range 512).map (fun i => 8 * patternAt k i)
  let read (c lsb : Nat) : Int × Bool := x.reading n ((x.bank b).charge t a b d c) lsb c
  let row := (List.range 512).map (fun j =>
    let c := s.physCol t a b j
    read c (lsbOf (s.gainCode t a b c)))
  let s := s.bump (F.ARR_CNT_EXCL_COUNT t a) (row.filter (·.2)).length
  (row, (read 529 16).1, s.bump (F.ARR_CNT_HMVM_COUNT t a) 1)

/-- The next pattern of a measurement: its outputs are kept until the last. -/
def State.nextPattern (s : State) (t a : Nat) : State :=
  let r := (s.arr t a).rew
  let (row, ref, s) := s.measurePattern t a r.bank r.pattern
  s.putArr t a { s.arr t a with rew := { r with pattern := r.pattern + 1, reads := r.reads ++ [row], ref0 := r.ref0 ++ [ref] } }

/-! ### The residual scratch region (R208) -/

/-- Where an array's factors lie in its tile's residual scratch region: behind the 512 KiB of Ẽ, each array in an eighth of
what is left, U before V, by rows. DESIGN CHOICE: the spec gives the sizes and no layout (log 39). -/
def State.factorAddr (s : State) (t a : Nat) : Option Nat :=
  (s.region 7 t).map (fun r => r.addr + 524288 + (r.length - 524288) / 8 * a)

/-- The BF16 words of a memory range. -/
def State.words16 (s : State) (addr n : Nat) : List W16 :=
  (List.range n).map (fun i => BitVec.ofNat 16 (leNat (s.memBytes (addr + 2 * i) 2)))

/-- Ẽ as the scratch region holds it: output rows of 512 inputs, keyed 512 × output + input. -/
def State.residAt (s : State) (t : Nat) : Sparse W16 :=
  match s.region 7 t with
  | some r => writeMany (fun _ => 0) [] 0 (s.words16 r.addr 262144)
  | none => []

/-- A 512 × rank factor by rows, as bytes. -/
def factorBytes (rank : Nat) (cols : List (List FVal)) : List Byte :=
  (List.range 512).flatMap (fun i => (List.range rank).flatMap (fun c =>
    leBytes 2 (encodeFloat fmtBF16 ((cols.getD c []).getD i FVal.zero))))

/-- A factor read back from memory, keyed 32 × index + column. -/
def State.factorFrom (s : State) (addr rank : Nat) : Sparse W16 :=
  ((s.words16 addr (512 * rank)).zipIdx).foldl (fun m w => store (fun _ => 0) m (32 * (w.2 / rank) + w.2 % rank) w.1) []

/-- The tile sequencer loads a bank's factors from the scratch region into the tile store (R212); those that they replace are
kept for a swap back. -/
def State.loadFactors (s : State) (t a b : Nat) : State :=
  let x := s.arr t a
  let r := (x.bank b).rank
  match s.factorAddr t a with
  | some g =>
    if (x.bank b).factors && r != 0 then
      s.putArr t a { x with resU := s.factorFrom g r, resV := s.factorFrom (g + 1024 * r) r, prevU := x.resU, prevV := x.resV }
    else s.putArr t a { x with resU := [], resV := [], prevU := x.resU, prevV := x.resV }
  | none => s

/-- The array edge forms D, Δ and Ẽ once every pattern is read (R206), and writes Ẽ to the scratch region (R208). -/
def State.formResidual (s : State) (t a : Nat) : State :=
  let x := s.arr t a
  let b := x.rew.bank
  let k := x.bank b
  let ref0 : Int := x.rew.ref0.sum
  let qbar : FVal := .num (ref0 < 0) ref0.natAbs (-9)
  let ws := ofFP32 (s.wsOf t a b)
  let qcal : Int := s.bankQcal t a b
  let res := (List.range 512).map (fun j =>
    let c := s.physCol t a b j
    let ts := (List.range 512).map (fun i => (s.logicalTarget b t a i j).1)
    let rs := (List.range 512).map (fun i => lookup (fun _ => 0) k.r16 (531 * i + c))
    let es := columnResidual ws qbar qcal (lsbOf (s.gainCode t a b c)) (x.rew.reads.map (fun r => r.getD j (0, false))) ts rs
    if s.awaiting t a b j then es.map (fun _ => 0) else es)
  let s := s.putArr t a { x.setBank b { k with factors := false, overlimit := false } with
                          rew := { x.rew with measured := true, reads := [], ref0 := [] } }
  let s := s.setFld (F.ARR_RESSTAT_MBANK t a) b
  match s.region 7 t with
  | some r => s.putMem r.addr (res.flatMap (fun r => r.flatMap (leBytes 2)))
  | none => s

/-! ### Factors (R209) -/

/-- A narrow-run dot product under SATURATE (R209). -/
def dotNarrow (a b : List FVal) : Cnt FVal := do
  let r ← narrowRun .saturate (products a b)
  pure r.val

/-- The FP32 sum of products in ascending index, each a R99 operation. -/
def dotFP32 (acc : FVal) : List FVal → List FVal → Cnt FVal
  | a :: as, b :: bs => do
    let p ← fmul .saturate a b
    dotFP32 (← fadd .saturate acc p) as bs
  | _, _ => pure acc

/-- A column less its projections on the columns before it (modified Gram-Schmidt, R209). -/
def projectOff (v : List FVal) : List (List FVal) → Cnt (List FVal)
  | [] => pure v
  | q :: qs => do
    let d ← dotFP32 FVal.zero q v
    let w ← (List.zip v q).mapM (fun p => do fsub .saturate p.1 (← fmul .saturate d p.2))
    projectOff w qs

/-- mgs over columns in ascending order: a column whose norm is zero is left zero. -/
def mgs (done : List (List FVal)) : List (List FVal) → Cnt (List (List FVal))
  | [] => pure done
  | v :: vs => do
    let w ← projectOff v done
    let n ← fsqrt .saturate (← dotFP32 FVal.zero w w)
    let u ← if n.isZero then pure (w.map (fun _ => FVal.zero)) else w.mapM (fun x => fdiv .saturate x n)
    mgs (done ++ [u]) vs

/-- bf16 of a column. -/
def bfColumn (v : List FVal) : Cnt (List FVal) :=
  v.mapM (fun x => do
    let (c, _) ← convFloat fmtBF16 .saturate x
    pure (decodeFloat fmtBF16 c))

/-- The rows of Ẽ, a BF16 wide operand of the products, as SATURATE reads them (R105, R209). -/
def residRows (e : Sparse W16) : Cnt (List (List FVal)) :=
  (List.range 512).mapM (fun j => readFactor .saturate ((List.range 512).map (fun i => bfAt e (512 * j + i))))

/-- The columns of a 512 × 512 matrix given by rows. -/
def flipRows (e : List (List FVal)) : List (List FVal) := (List.range 512).map (fun i => e.map (fun r => r.getD i FVal.zero))

/-- A matrix given by rows · Q, column by column. -/
def timesCols (e : List (List FVal)) (q : List (List FVal)) : Cnt (List (List FVal)) :=
  q.mapM (fun c => e.mapM (fun r => dotNarrow r c))

/-- bf16(mgs(·)) of a matrix given by columns. -/
def orthoBF (cols : List (List FVal)) : Cnt (List (List FVal)) := do (← mgs [] cols).mapM bfColumn

/-- build_factors of R209: U and V by columns. -/
def buildFactors (e : Sparse W16) (r q : Nat) : Cnt (List (List FVal) × List (List FVal)) := do
  let rows ← residRows e
  let cols := flipRows rows
  let omega := (List.range r).map (fun c => (List.range 512).map (fun i => FVal.ofInt (patternAt (c + 1) i)))
  let q0 ← orthoBF (← timesCols rows omega)
  let qn ← (List.range q).foldlM (fun acc _ => do
    let z ← orthoBF (← timesCols cols acc)
    orthoBF (← timesCols rows z)) q0
  let v ← (← timesCols cols qn).mapM bfColumn
  pure (qn, v)

/-- Factor columns as sparse BF16, keyed 32 × index + column. -/
def packFactor (cols : List (List FVal)) : Sparse W16 :=
  (cols.mapIdx (fun c v => v.mapIdx (fun i x => (32 * i + c, BitVec.ofNat 16 (encodeFloat fmtBF16 x))))).flatten.foldl
    (fun m p => store (fun _ => 0) m p.1 p.2) []

/-- The FP32 mean square root of a list over n entries, in ascending order (R224). -/
def rmsOf (n : Nat) (xs : List FVal) : Cnt FVal := do
  let s ← dotFP32 FVal.zero xs xs
  fsqrt .saturate (← fdiv .saturate s (FVal.ofInt n))

/-- The statistics of R224 in FP32, in ascending order: TOT, UNC, CAPT and the RMS of every logical column. -/
def statistics (e : Sparse W16) (u v : List (List FVal)) (ws : FVal) : Cnt (FVal × FVal × FVal × List FVal) := do
  let rows ← residRows e
  let all := rows.flatten
  let scaled ← all.mapM (fun x => fdiv .saturate x ws)
  let tot ← rmsOf 262144 scaled
  let rest ← rows.mapIdxM (fun j r => r.mapIdxM (fun i x => do
    let c ← dotFP32 FVal.zero (u.map (fun q => q.getD j FVal.zero)) (v.map (fun q => q.getD i FVal.zero))
    fdiv .saturate (← fsub .saturate x c) ws))
  let unc ← rmsOf 262144 rest.flatten
  let cols ← rest.mapM (fun r => rmsOf 512 r)
  let num ← v.foldlM (fun acc q => do fadd .saturate acc (← dotFP32 FVal.zero q q)) FVal.zero
  let den ← dotFP32 FVal.zero all all
  let capt ← fdiv .saturate num den
  pure (tot, unc, capt, cols)

/-- r of a RANK code (R227). -/
def rankOf (c : Nat) : Nat := ([0, 4, 8, 16, 32]).getD c 0

/-! ### Calibration (R547 to R558) -/

/-- The trim record of an array (R558). -/
def State.trimBytes (s : State) (t : Nat) (gain ofs : Sparse Nat) : List Byte :=
  leBytes 2 (s.fld (F.TIL_CALPT_TEMP t)) ++ zeros 6 ++ (List.range 529).flatMap (fun c =>
    leBytes 1 (lookup (fun _ => 0) ofs c % 64) ++ leBytes 1 (lookup (fun _ => 0) gain c % 64))

/-- Accepted trims take effect in every column at once (R548, R555). active is the bank that is active from now
on. -/
def State.applyTrims (s : State) (t a active : Nat) : State :=
  let x := s.arr t a
  let q0 := x.cal.qcal0
  let q1 := x.cal.qcal1
  let s := s.putArr t a { x with gain := x.shadowGain, ofs := x.shadowOfs, calStep := some s.step }
  let s := s.setFld (F.ARR_QCAL_QCAL t a) (if active = 0 then q0 else q1)
  let s := s.setFld (F.ARR_QCALI_QCAL t a) (if active = 0 then q1 else q0)
  let s := s.setFld (F.ARR_QAVG_QAVG t a) (if active = 0 then q0 else q1)
  let s := (s.event (F.ARR_CALEVT_DONE t a)).bump (F.ARR_CNT_CAL_COUNT t a) 1
  s.setFld (F.ARR_CALSTAT_STATE t a) 0

/-- One column's shadow values (R550): o₁, and g₁ where q − z is above 0. -/
def calColumn (z q : ℚ) (o0 g0 : Int) : Int × Option Int :=
  let o1 := o0 + rneRat (8 * z)
  if q - z ≤ 0 then (o1, none)
  else
    let d := q - z
    let f1 := ((roundTo fmtFP32 .saturate false ((1024 + g0).natAbs * 96 * d.den) (1024 * d.num.natAbs) 0).run 0).1
    let g := ((fsub .saturate f1 (FVal.ofInt 1)).run 0).1
    (o1, some (g.scale 10).rne)

/-- The charge of a calibration window on a column (R549): 0 zero, 1 the calibration charge, 2 and 3 the reference rows of the
idle and of the active bank. -/
def Arr.calCharge (x : Arr) (t a active kind col : Nat) : ℚ :=
  if kind = 0 then 0
  else if kind = 1 then 1536
  else
    let b := if kind = 3 then active else 1 - active
    (x.bank b).charge t a b [] col

/-- The sum of the 64 codes of a kind of window for a column (R549): at ×8, through the trims in effect, with γ = 1 (R137), in
the draws from n on. -/
def Arr.calSum (x : Arr) (t a active n kind col : Nat) : Int :=
  let p := x.calCharge t a active kind col
  ((List.range 64).map (fun w => (convCode (x.sample 1 (n + 64 * kind + w) p 16 col)).1)).sum

/-- The draws of a calibration's 256 windows. -/
def State.drawWindows (s : State) : Nat × State := (s.free, { s with free := s.free + 256 })

/-- What one column check of R553 asks of a column's o₁, g₁, o₀ and g₀, by CAUSE. -/
def calBad (dofs dgain : Int) (waive : Bool) (cause : Nat) (c : Int × Option Int × Int × Int) : Bool :=
  let out (v : Int) : Bool := v < -32 || 31 < v
  if cause = 1 then out c.1
  else if cause = 2 then (match c.2.1 with
    | none => true
    | some g => out g)
  else if cause = 3 then !waive && decide (dofs < |c.1 - c.2.2.1|)
  else !waive && decide (dgain < |c.2.1.getD 0 - c.2.2.2|)

/-- The first failing check of R553: its CAUSE and the lowest failing column (0 for CAUSE 0x5). -/
def calCheck (dofs dgain : Int) (waive : Bool) (cols : List (Int × Option Int × Int × Int)) (q0 q1 : Nat)
    (r0 r1 : ℚ) : Option (Nat × Nat) :=
  let qok (q : Nat) (r1 : ℚ) : Bool :=
    425984 ≤ q && q ≤ 507904 && decide (|r1 - (q : ℚ) / 4096 * 960 / 1860| ≤ 2)
  match [1, 2, 3, 4].findSome? (fun k => (cols.findIdx? (calBad dofs dgain waive k)).map (fun c => (k, c))) with
  | some f => some f
  | none => if qok q0 r0 && qok q1 r1 then none else some (5, 0)

/-- Every column that fails a check of R553. -/
def calFailing (dofs dgain : Int) (waive : Bool) (cols : List (Int × Option Int × Int × Int)) : List Nat :=
  (List.range cols.length).filter (fun i => [1, 2, 3, 4].any (fun k => calBad dofs dgain waive k (cols.getD i (0, none, 0, 0))))

/-- The logical column that a physical one serves, in the active bank or else in the other, to name it in a COLUMN test
(R554, R567). DESIGN CHOICE: a column that serves none, the checksum column among them, is tested by no COLUMN test (log 86). -/
def State.logicalOf (s : State) (t a c : Nat) : Option Nat :=
  let b := s.active t a
  (s.servedBy t a b c).orElse (fun _ => s.servedBy t a (1 - b) c)

/-- The end of a calibration's windows (R550, R553, R554, R558). An array does not enter service before a calibration has
been accepted (R149, R159). -/
def State.endCalibration (s : State) (t a : Nat) : State :=
  let x := s.arr t a
  let active := s.active t a
  let sum (kind c : Nat) : Int := x.calSum t a active x.cal.draw kind c
  let cols := (List.range 529).map (fun c =>
    let (o0, g0) := x.trim c
    let (o1, g1) := calColumn ((sum 0 c : ℚ) / 64) ((sum 1 c : ℚ) / 64) o0 g0
    (o1, g1, o0, g0))
  let bankKind (b : Nat) : Nat := if b = active then 3 else 2
  let q (b : Nat) : Nat := (sum (bankKind b) 529 * 64).toNat
  let r1 (b : Nat) : ℚ := (sum (bankKind b) 530 : ℚ) / 64
  let (hit, s) := s.inject 0x05 t a 0 0
  let dofs := s.fld (F.ARR_CALLIM_DOFS t a)
  let dgain := s.fld (F.ARR_CALLIM_DGAIN t a)
  let fail : Option (Nat × Nat) := if hit then some (5, 0) else
    calCheck dofs dgain x.cal.waive cols (q 0) (q 1) (r1 0) (r1 1)
  let failed := if hit then [] else calFailing dofs dgain x.cal.waive cols
  let ofs := writeMany (fun _ => 0) [] 0 (cols.map (fun c => unsigned 6 c.1))
  let gain := writeMany (fun _ => 0) [] 0 (cols.map (fun c => unsigned 6 (c.2.1.getD 0)))
  let x : Arr := { x with shadowOfs := ofs, shadowGain := gain, refFault := false }
  match fail with
  | some (cause, col) =>
    let again := failed.filter (fun c => x.cal.failed.contains c)
    let cal := { x.cal with windows := 0, waive := false, last := cause, failed }
    let entering := x.startup || x.reverify
    let s := s.putArr t a { x with cal, rew := { x.rew with calibrated := !entering || s.fld (F.ARR_QCAL_QCAL t a) != 0 } }
    let s := ((s.event (F.ARR_CALEVT_FAIL t a)).bump (F.ARR_CNT_CALFAIL_COUNT t a) 1)
    let s := (s.setFld (F.ARR_CALSTAT_STATE t a) 0).setFld (F.ARR_CALSTAT_CAUSE t a) cause
    if cause = 5 then s.requestTest t 2 0 a 0 0 none
    else forEach (again.filterMap (fun c => s.logicalOf t a c)) (s.setFld (F.ARR_CALSTAT_FCOL t a) col) (fun s j =>
      s.requestTest t 1 0 a j 0 none)
  | none =>
    let moved := (List.range 529).any (fun c =>
      let d (m m' : Sparse Nat) : Bool :=
        decide (2 ≤ |signed 6 (lookup (fun _ => 0) m c) - signed 6 (lookup (fun _ => 0) m' c)|)
      d ofs x.savedOfs || d gain x.savedGain)
    let late : Bool := match x.cal.savedAt with
      | some v => decide (v + 8640000000000 ≤ s.osc)
      | none => true
    let save := moved && late
    let cal := { x.cal with windows := 0, waive := false, last := 0, failed := [], qcal0 := q 0, qcal1 := q 1,
                            savedAt := if save then some s.osc else x.cal.savedAt }
    let x := if save then { x with savedGain := gain, savedOfs := ofs } else x
    let s := s.putArr t a { x with cal, rew := { x.rew with calibrated := true } }
    let s := if save then s.ledgerPut 0 0x21 (8 * t + a) (s.trimBytes t gain ofs) else s
    let s := s.setFld (F.ARR_CALSTAT_STATE t a) 2
    if s.job.running then s else s.applyTrims t a (s.active t a)

/-! ### Readiness -/

/-- The registers that belong to the active bank's measurement (R228). -/
def State.factorRegs (s : State) (t a : Nat) : State :=
  let k := (s.arr t a).bank (s.active t a)
  let code := if k.rank = 0 then 0 else if k.rank = 4 then 1 else if k.rank = 8 then 2 else if k.rank = 16 then 3 else 4
  ((s.setFlag (F.ARR_RESSTAT_VALID t a) k.factors).setFld (F.ARR_RESSTAT_RANK_ACT t a) (if k.factors then code else 0))

/-- The active bank's factors loaded into the tile store, with their registers (R212, R228). -/
def State.activeFactors (s : State) (t a : Nat) : State := (s.loadFactors t a (s.active t a)).factorRegs t a

/-- The columns of an array that the DPA computes from a boundary on (R196, R585, R586). -/
def State.coverCols (s : State) (t a : Nat) : List Nat :=
  if (s.arr t a).out then List.range 512
  else (List.range 512).filter (fun j => s.awaiting t a (s.active t a) j)

/-- A rewrite is over: no rewrite is current, and the spares that it programmed wait for the next boundary (R196). -/
def State.endRewrite (s : State) (t a : Nat) : State :=
  let x := s.arr t a
  let b := x.rew.bank
  let k := x.bank b
  let s := s.putArr t a { x.setBank b { k with spareReady := (k.spareReady ++ x.rew.spares).eraseDups } with rew := {} }
  ((s.setFld (F.ARR_PRGSTAT_STATE t a) 0).setFlag (F.ARR_PRGSTAT_FULL t a) false).setFlag (F.ARR_PRGSTAT_REFRESH t a) false

/-- An array enters service on the bank of its rewrite (R159, R194): its trims take effect, the DPA covers the columns that
await remap, and a reset that waited for the last such array is over. -/
def State.enterService (s : State) (t a : Nat) : State :=
  let x := s.arr t a
  let b := x.rew.bank
  let s := if x.startup then s.setFld (F.ARR_STAT_ACTIVE t a) 0 else s
  let s := if s.fld (F.ARR_CALSTAT_STATE t a) = 2 then s.applyTrims t a b else s
  let s := s.setFld (F.ARR_QAVG_QAVG t a) (s.fld (F.ARR_QCAL_QCAL t a))
  let s := s.endRewrite t a
  let x := s.arr t a
  let s := s.putArr t a { x with startup := false, reverify := false }
  let s := s.setFlag (F.ARR_STAT_INSVC t a) (!x.out)
  let s := ((s.startCover t a (s.coverCols t a)).activeFactors t a).budget t a
  if s.fld F.RST_STAT_STATE = 3 && s.arrs.all (fun e => !e.2.reverify) then s.setFld F.RST_STAT_STATE 0 else s

/-- A rewrite whose measurement, factors and calibration are complete makes its bank ready (R181, R211, R551), brings
the array into service at start-up (R159), or ends a re-verify (R194). -/
def State.settle (s : State) (t a : Nat) : State :=
  let x := s.arr t a
  let needCal := s.flag (F.ARR_PRGSTAT_FULL t a) || s.flag (F.ARR_PRGSTAT_REFRESH t a)
  if x.rew.measured && x.rew.built && (x.rew.calibrated || !needCal) then
    let b := x.rew.bank
    let s := if s.flag (F.ARR_PRGSTAT_REFRESH t a) then s.refreshDone t a b else s
    let s := s.setFlag (F.ARR_STAT_IDLEBUSY t a) false
    if s.prgState t a == 5 || (x.startup && b == 0) then s.enterService t a
    else
      let s := s.setFld (F.ARR_PRGSTAT_STATE t a) 4
      if x.out && !x.condemned then s.requestTest t 2 1 a 0 0 none else s
  else s

/-- The statistics of a bank's measurement and its over-limit columns (R208 step 6, R224, R225). -/
def State.bankStatistics (s : State) (t a : Nat) (u v : List (List FVal)) : State :=
  let x := s.arr t a
  let b := x.rew.bank
  let ((tot, unc, capt, cols), _) := (statistics (s.residAt t) u v (ofFP32 (s.wsOf t a b))).run 0
  let lim : ℚ := (x.rew.limit : ℚ) / 4096
  let (hit, s) := s.inject 0x06 t a (s.fld F.INJ_TARGET_COL) 0
  let icol := s.fld F.INJ_TARGET_COL
  let past := (List.range 512).filter (fun j => decide (lim < (cols.getD j FVal.zero).rat) || (hit && j == icol))
  let s := s.putArr t a (x.setBank b { x.bank b with overlimit := !past.isEmpty })
  -- DESIGN CHOICE: CAPT is 0 where Ẽ is all zero, TOT and UNC wrap, FIRST is 0 with no column over limit (log 84).
  let s := s.setFld (F.ARR_RESSTAT_CAPT t a) (min 0xFFFF (inUnits (capt.rat * 65536)))
  let s := (s.setFld (F.ARR_RESRMS_TOT t a) (inUnits (tot.rat * 4096))).setFld (F.ARR_RESRMS_UNC t a) (inUnits (unc.rat * 4096))
  let s := (s.setFld (F.ARR_RESCOLN_COUNT t a) past.length).setFld (F.ARR_RESCOLN_FIRST t a) (past.headD 0)
  let s := if past.isEmpty then s else s.event (F.ARR_BEVT_RESCOL t a)
  forEach past s (fun s j => s.requestTest t 1 0 a j 0 none)

/-! ### Commands -/

/-- Another array of the tile has its Ẽ in the scratch region, which holds one at a time (R208). -/
def State.scratchTaken (s : State) (t a : Nat) : Bool :=
  (List.range 8).any (fun o => o != a && (s.arr t o).rew.measured && !(s.arr t o).rew.built)

/-- A measurement takes up the settings of its limit, rank and iterations when it starts (R210, R225). -/
def State.latchSettings (s : State) (t a : Nat) : State :=
  let x := s.arr t a
  let limit := s.fld (F.ARR_RESLIM_LIM t a)
  let rank := rankOf (s.fld (F.ARR_RESCFG_RANK t a))
  let iter := s.fld (F.ARR_RESCFG_ITER t a)
  s.putArr t a { x with rew := { x.rew with limit, rank, iter } }

/-- RESIDUAL_MEASUREMENT (R206 to R208) of the bank whose rows are done: the measurement MVM of its next pattern. With rank 0
no factors are built, and the statistics follow the last pattern (R210). -/
def execResidualMeasurement (t a : Nat) (s : State) : Outcome :=
  act s fun s =>
    let st := s.prgState t a
    let r := (s.arr t a).rew
    if (st == 3 || (st == 5 && r.row == 512)) && s.arrayTime && !s.arrayHeld && !s.dfwd && !s.calibrating t a
        && !s.flag (F.ARR_PRGSTAT_SUSP t a) && !r.measured
        && !(decide (511 ≤ r.pattern) && s.scratchTaken t a) then
      let s := s.convertersOn t a true
      let s := if r.pattern = 0 then s.latchSettings t a else s
      let s := s.nextPattern t a
      if (s.arr t a).rew.pattern = 512 then
        let s := s.formResidual t a
        if (s.arr t a).rew.rank = 0 then
          let s := s.bankStatistics t a [] []
          (s.putArr t a { s.arr t a with rew := { (s.arr t a).rew with built := true } }).settle t a
        else s.settle t a
      else s
    else s

/-- FACTOR_BUILD (R209, R211, R224, R225): the OPE builds the factors, which are written to the scratch region; its row
register is loaded anew (R237). -/
def execFactorBuild (t a : Nat) (s : State) : Outcome :=
  act s fun s =>
    let x := s.arr t a
    if x.rew.measured && !x.rew.built && s.arrayTime then
      let b := x.rew.bank
      let r := x.rew.rank
      let q := x.rew.iter
      let (u, v) := ((buildFactors (s.residAt t) r q).run 0).1
      let s := s.putTileRec t { s.tile t with keep := [] }
      let s := s.bumpPair (F.OPE_CNT_BUSY_LO_COUNT t) (F.OPE_CNT_BUSY_HI_COUNT t) ((2 * q + 2) * 128 * r)
      let s := s.putArr t a { x.setBank b { x.bank b with factors := true, rank := r } with rew := { x.rew with built := true } }
      let s := s.bankStatistics t a u v
      let s := match s.factorAddr t a with
        | some g => (s.putMem g (factorBytes r u)).putMem (g + 1024 * r) (factorBytes r v)
        | none => s
      s.settle t a
    else s

/-- A calibration of an array is called for (R551): one goes on, its rewrite still needs one, or a reference fault awaits one, at
most once a step. The calibration of a test belongs to the test (R567, R568). -/
def State.calDue (s : State) (t a : Nat) : Bool :=
  let x := s.arr t a
  let st := s.prgState t a
  let rewrite := (st == 3 || st == 5) && (s.flag (F.ARR_PRGSTAT_FULL t a) || s.flag (F.ARR_PRGSTAT_REFRESH t a)) && !x.rew.calibrated
  let fault := x.refFault && x.refStep != some s.step
  decide (x.cal.windows ≠ 0) || rewrite || fault

/-- CALIBRATION (R549 to R555): the next windows of an array's calibration, which ends with its 256th. DESIGN CHOICE: one that
starts while accepted values await their boundary replaces them in the shadow set (log 86). -/
def execCalibration (t a windows : Nat) (s : State) : Outcome :=
  act s fun s =>
    let st := s.prgState t a
    if s.arrayTime && !s.arrayHeld && !s.dfwd && st != 1 && st != 2 && !(st == 5 && (s.arr t a).rew.row < 512) && s.calDue t a then
      let s := s.convertersOn t a false
      let x := s.arr t a
      let (n, s) : Nat × State := if x.cal.windows = 0 then s.drawWindows else (x.cal.draw, s)
      let w := min 256 (x.cal.windows + windows)
      let s := s.putArr t a { x with cal := { x.cal with windows := w, draw := n },
                                     refStep := if x.refFault then some s.step else x.refStep }
      let s := s.setFld (F.ARR_CALSTAT_STATE t a) 1
      if w = 256 then (s.endCalibration t a).settle t a else s
    else s

/-- CALIBRATION_SUSPEND (R552): at the end of its window; the windows taken are kept. -/
def execCalibrationSuspend (t a : Nat) (s : State) : Outcome :=
  act s fun s => if s.fld (F.ARR_CALSTAT_STATE t a) = 1 then s.setFld (F.ARR_CALSTAT_STATE t a) 3 else s

end Sys2Proof.Machine
end

