-- ==== Sys2Proof/Machine/Rse.lean ====
section
/-! DEFINITION. The Row Statistics Engine (08_row_statistics_engine.md): LNF, RMSF, SMF, LNB, RMSB, SMB, XENT, and the
events GROUP_SPILL and GROUP_RELOAD.
-/

namespace Sys2Proof.Machine

/-! ### The engine's functions (R267) -/

/-- An FP32 constant. -/
def f32 (w : Nat) : FVal := ofFP32 (BitVec.ofNat 32 w)

/-- exp_f of R267; −∞ gives +0, and NaN passes through. DESIGN CHOICE: where x × log₂e overflows to an infinity under
PROPAGATE, k is 0 (log 65). -/
def expF (p : Policy) (x : FVal) : Cnt FVal :=
  match x with
  | .inf true => pure FVal.zero
  | .num _ _ _ => do
    let k := (← fmul p x (f32 0x3FB8AA3B)).rne
    let nk := FVal.ofInt (-k)
    let r ← ffma p nk (f32 0x3F317200) x
    let r ← ffma p nk (f32 0x35BFBE8E) r
    let q := f32 0x3AB60B61
    let q ← ffma p q r (f32 0x3C088889)
    let q ← ffma p q r (f32 0x3D2AAAAB)
    let q ← ffma p q r (f32 0x3E2AAAAB)
    let q ← ffma p q r (f32 0x3F000000)
    let q ← ffma p q r (f32 0x3F800000)
    let q ← ffma p q r (f32 0x3F800000)
    fldexp p q (max (-1000) (min 1000 k))
  | v => pure v

/-- log_f of R267, for x ≥ 1; NaN and ∞ pass through. -/
def logF (p : Policy) (x : FVal) : Cnt FVal :=
  match x with
  | .num _ n x2 => do
    let e := if n = 0 then 0 else floorLog2 n 1 + x2
    let m := x.scale (-e)
    let (m, e) := if FVal.lt (f32 0x3FB504F3) m then (m.scale (-1), e + 1) else (m, e)
    let f ← fsub p m (FVal.ofInt 1)
    let s ← fdiv p f (← fadd p f (FVal.ofInt 2))
    let z ← fmul p s s
    let w ← ffma p (f32 0x3E638E39) z (f32 0x3E924925)
    let w ← ffma p w z (f32 0x3ECCCCCD)
    let w ← ffma p w z (f32 0x3F2AAAAB)
    let zw ← fmul p z w
    let ss ← fadd p s s
    let t ← ffma p s zw ss
    let ev := FVal.ofInt e
    let t ← ffma p ev (f32 0x35BFBE8E) t
    ffma p ev (f32 0x3F317200) t
  | v => pure v

/-- rsqrt_f of R267. -/
def rsqrtF (p : Policy) (v : FVal) : Cnt FVal := do fdiv p (FVal.ofInt 1) (← fsqrt p v)

/-! ### Operands (R262, R279) -/

/-- A row as the engine holds it: FP32 values, and whether a NaN was absorbed from it. -/
structure RseRow where
  v : List FVal
  absorbed : Bool
  deriving DecidableEq, Repr

/-- Elements of a row decoded for the engine: under SATURATE a NaN becomes +0 and an infinity the largest finite. -/
def State.rseRow (s : State) (t : Nat) (p : Policy) (x : Tensor) (r n : Nat) : Cnt RseRow := do
  let raw := (List.range n).map (fun i => s.elem t x r i)
  let vs ← raw.mapM (fun v => do toFP32 p (← readOperand p x.desc v))
  let bad := p = .saturate && raw.any (· = .nan)
  pure ⟨if p = .saturate then vs.map (fun v => if v = .nan then FVal.zero else v) else vs, bad⟩

/-- One output element with what was counted while it was formed. -/
def rseElem (shared absorbed : Bool) (f : Cnt FVal) : Cnt Elem := do
  let n ← get
  let v ← f
  let n' ← get
  pure { val := v, absorbed, counted := shared || n != n' }

/-- A command's parameters: policy, PAIR, ε or τ, the mask, R271's offset. -/
structure RseArgs where
  p : Policy
  pair : Bool
  eps : FVal
  causal : Bool
  ofs : Nat
  w : FVal
  deriving DecidableEq, Repr

/-- The arguments of a command. -/
def rseArgs (c : TileCmd) : RseArgs :=
  { p := c.policy, pair := c.pair, eps := f32 c.p1, causal := c.mask, ofs := c.ofs, w := f32 c.p2 }

/-- The valid length of row r (R271). -/
def RseArgs.valid (a : RseArgs) (n r : Nat) : Nat := if a.causal then min n (a.ofs + r + 1) else n

/-! ### Forward formulas (R268 to R272) -/

/-- Mean, centred values and 1/σ of a row (R268). -/
def lnStats (a : RseArgs) (x : List FVal) : Cnt (FVal × List FVal × FVal) := do
  let n := FVal.ofInt x.length
  let mu ← fdiv a.p (← rowSum a.p a.pair x) n
  let d ← x.mapM (fun v => fsub a.p v mu)
  let v ← fdiv a.p (← rowSum a.p a.pair (← d.mapM (fun q => fmul a.p q q))) n
  pure (mu, d, ← rsqrtF a.p (← fadd a.p v a.eps))

/-- LNF of one row (R268): outputs and record. -/
def lnfRow (a : RseArgs) (x : RseRow) (gamma beta : List FVal) (bad : List Bool) : Cnt (List Elem × W32 × W32) := do
  let n0 ← get
  let (mu, d, rho) ← lnStats a x.v
  let sh := n0 != (← get)
  let ys ← d.mapIdxM (fun i q => rseElem sh (x.absorbed || bad.getD i false) (do
    ffma a.p (← fmul a.p q rho) (gamma.getD i FVal.zero) (beta.getD i FVal.zero)))
  pure (ys, fp32Bits mu, fp32Bits rho)

/-- RMSF of one row (R269). -/
def rmsfRow (a : RseArgs) (x : RseRow) (gamma : List FVal) (bad : List Bool) : Cnt (List Elem × W32 × W32) := do
  let n0 ← get
  let v ← fdiv a.p (← rowSum a.p a.pair (← x.v.mapM (fun q => fmul a.p q q))) (FVal.ofInt x.v.length)
  let rho ← rsqrtF a.p (← fadd a.p v a.eps)
  let sh := n0 != (← get)
  let ys ← x.v.mapIdxM (fun i q => rseElem sh (x.absorbed || bad.getD i false) (do
    fmul a.p (← fmul a.p q rho) (gamma.getD i FVal.zero)))
  pure (ys, 0, fp32Bits rho)

/-- The larger of two zeros: +0 wins over −0 (R266). -/
def maxZero (a b : FVal) : FVal :=
  match a with
  | .num true _ _ => b
  | _ => a

/-- The largest value of a row (R266); none of an empty row. A NaN makes it NaN; +0 wins over −0. -/
def rowMax : List FVal → Option FVal
  | [] => none
  | x :: xs =>
    match rowMax xs with
    | none => some x
    | some m =>
      if x = .nan || m = .nan then some .nan
      else if FVal.lt m x then some x
      else if x.isZero && m.isZero then some (maxZero x m)
      else some m

/-- s, M, e and S of a row's valid elements (R272). -/
def softStats (a : RseArgs) (z : List FVal) (n : Nat) : Cnt (List FVal × FVal × List FVal × FVal) := do
  let s ← z.mapM (fun v => fmul a.p v a.eps)
  match rowMax s with
  | none => pure ([], .inf true, [], FVal.zero)
  | some m =>
    let e ← s.mapM (fun v => do expF a.p (← fsub a.p v m))
    let sum ← rowSum a.p a.pair (padTo n FVal.zero e)
    pure (s, m, e, sum)

/-- The element of a masked position. -/
def maskedElem : Elem := { val := FVal.zero }

/-- SMF of row r (R272). -/
def smfRow (a : RseArgs) (x : RseRow) (n : Nat) : Cnt (List Elem × W32 × W32) := do
  let n0 ← get
  let (_, m, e, sum) ← softStats a x.v n
  if x.v.isEmpty then pure (List.replicate n maskedElem, fp32Bits m, 0)
  else
    let q ← fdiv a.p (FVal.ofInt 1) sum
    let sh := n0 != (← get)
    let ps ← e.mapM (fun v => rseElem sh x.absorbed (fmul a.p v q))
    pure (padTo n maskedElem ps, fp32Bits m, fp32Bits sum)

/-! ### Backward formulas (R273 to R275) -/

/-- LNB and RMSB of one row (R274): dx, and g and ŷ for the gradients of R275. ln selects LNB. -/
def normBackRow (a : RseArgs) (ln : Bool) (g x : RseRow) (gamma : List FVal) (badGamma : Bool) (mu rho : FVal) :
    Cnt (List Elem × List FVal) := do
  let n0 ← get
  let n := FVal.ofInt x.v.length
  let yh ← x.v.mapM (fun v => do
    let d ← if ln then fsub a.p v mu else pure v
    fmul a.p d rho)
  let h ← (List.zip g.v gamma).mapM (fun q => fmul a.p q.1 q.2)
  let av ← if ln then do fdiv a.p (← rowSum a.p a.pair h) n else pure FVal.zero
  let hy ← (List.zip h yh).mapM (fun q => fmul a.p q.1 q.2)
  let b ← fdiv a.p (← rowSum a.p a.pair hy) n
  let sh := n0 != (← get)
  let ab := g.absorbed || x.absorbed || badGamma
  let dx ← (List.zip yh h).mapM (fun q => rseElem sh ab (do
    let base ← if ln then fsub a.p q.2 av else pure q.2
    fmul a.p rho (← ffma a.p q.1.neg b base)))
  pure (dx, yh)

/-- SMB of one row (R274). -/
def smbRow (a : RseArgs) (g z : RseRow) (m sum : FVal) (n : Nat) : Cnt (List Elem) := do
  if z.v.isEmpty then pure (List.replicate n maskedElem)
  else
    let n0 ← get
    let q ← fdiv a.p (FVal.ofInt 1) sum
    let ps ← z.v.mapM (fun v => do
      fmul a.p (← expF a.p (← fsub a.p (← fmul a.p v a.eps) m)) q)
    let gp ← (List.zip g.v ps).mapM (fun w => fmul a.p w.1 w.2)
    let c ← rowSum a.p a.pair (padTo n FVal.zero gp)
    let sh := n0 != (← get)
    let ds ← (List.zip g.v ps).mapM (fun w => rseElem sh (g.absorbed || z.absorbed) (do
      fmul a.p (← fmul a.p w.2 (← fsub a.p w.1 c)) a.eps))
    pure (padTo n maskedElem ds)

/-! ### The loss (R276, R277) -/

/-- XENT of one row: dz and the row's loss; a row without a valid label gives neither. -/
def xentRow (a : RseArgs) (z : RseRow) (n : Nat) (label : Option Nat) : Cnt (List Elem × Pair) :=
  match label with
  | none => pure (List.replicate n maskedElem, Pair.zero)
  | some l => do
    let n0 ← get
    let (s, m, e, sum) ← softStats a z.v n
    let q ← fdiv a.p (FVal.ofInt 1) sum
    let wt ← fmul a.p a.w a.eps
    let sh := n0 != (← get)
    let lg ← logF a.p sum
    let lr ← pairAdd a.p (← twoSum a.p lg m) ((s.getD l FVal.zero).neg, FVal.zero)
    let dz ← e.mapIdxM (fun i v => rseElem sh z.absorbed (do
      let pi ← fmul a.p v q
      fmul a.p (← fsub a.p pi (if i = l then FVal.ofInt 1 else FVal.zero)) wt))
    pure (padTo n maskedElem dz, lr)

/-! ### Statistics groups (R280 to R286) -/

/-- Records that the tile's spill region holds (R285). -/
def State.spillRoom (s : State) (t : Nat) : Nat := ((s.region 0x08 t).map (fun r => r.length / 8)).getD 0

/-- A record's 8 bytes (R280): its first statistic, then its second. -/
def recBytes (r : W32 × W32) : List Byte := leBytes 4 r.1.toNat ++ leBytes 4 r.2.toNat

/-- The lowest n free record slots of a tile's spill region (DESIGN CHOICE: the spec gives the region and no layout,
log 74). -/
def State.freeSlots (s : State) (t n : Nat) : List Nat :=
  let used := ((s.tile t).groups.filter (·.spilled)).flatMap (·.slots)
  ((List.range (s.spillRoom t)).filter (fun k => !used.contains k)).take n

/-- A group's records written to slots of the tile's spill region; only the memory's copy is left (R282). -/
def State.spillGroup (s : State) (t : Nat) (g : StatGroup) : State :=
  let slots := s.freeSlots t g.count
  let s := match s.region 0x08 t with
    | some r => forEach (List.zip slots g.recs) s (fun s q => s.putMem (r.addr + 8 * q.1) (recBytes q.2))
    | none => s
  s.putGroups t ((s.tile t).groups.map (fun h => if h.acc == g.acc then { h with spilled := true, recs := [], slots } else h))

/-- A spilled group's records as the spill region holds them. -/
def State.spilledRecs (s : State) (t : Nat) (g : StatGroup) : List (W32 × W32) :=
  match s.region 0x08 t with
  | some r => g.slots.map (fun k =>
      let b := s.memBytes (r.addr + 8 * k) 8
      (BitVec.ofNat 32 (leAt b 0 4), BitVec.ofNat 32 (leAt b 4 4)))
  | none => []

/-- The oldest resident group, but for one, spilled where the region has room (R282). -/
def State.spillOldest (s : State) (t : Nat) (keep : Option Nat) : Option State :=
  let x := s.tile t
  match x.groups.find? (fun g => !g.spilled && some g.acc != keep) with
  | some g =>
    if x.records true + g.count ≤ s.spillRoom t then
      some ((s.spillGroup t g).bump (F.TIL_RSE_CNT_SPILL_COUNT t) 1)
    else none
  | none => none

/-- Groups spilled, oldest first, until n more records fit (R282), with fuel; none where they do not fit. -/
def State.makeRoom (fuel : Nat) (s : State) (t n : Nat) (keep : Option Nat) : Option State :=
  if (s.tile t).records false + n ≤ 28672 then some s
  else match fuel with
    | 0 => none
    | f + 1 => (s.spillOldest t keep).bind (fun s => State.makeRoom f s t n keep)

/-- Room for n records. -/
def State.roomFor (s : State) (t n : Nat) (keep : Option Nat) : Option State :=
  s.makeRoom ((s.tile t).groups.length + 1) t n keep

/-- The group that a backward command names. -/
def State.group (s : State) (c : TileCmd) : Option StatGroup :=
  (s.tile c.tile).groups.find? (fun g => g.acc == c.group)

/-- A spilled group read back from the spill region into the record area (R283), where room for it can be made. -/
def State.reload (s : State) (t acc : Nat) : State :=
  match (s.tile t).groups.find? (fun g => g.acc == acc && g.spilled) with
  | some g =>
    match s.roomFor t g.count (some acc) with
    | some s =>
      let recs := s.spilledRecs t g
      (s.putGroups t ((s.tile t).groups.map (fun h =>
        if h.acc == acc then { h with spilled := false, recs, slots := [] } else h))).bump (F.TIL_RSE_CNT_RELOAD_COUNT t) 1
    | none => s
  | none => s

/-- A forward command's records become its group (R280). -/
def State.putGroup (s : State) (c : TileCmd) (recs : List (W32 × W32)) : State :=
  let gs := (s.tile c.tile).groups.filter (fun g => g.acc != c.acc)
  s.putGroups c.tile (gs ++ [{ acc := c.acc, first := c.r0, count := recs.length, recs }])

/-! ### Refusals -/

/-- A positive finite FP32 value. -/
def posFinite (w : Nat) : Bool :=
  match f32 w with
  | .num neg m _ => !neg && m != 0
  | _ => false

/-- An operand has the rows R and at least n elements in each. -/
def coversRows (x : Option Tensor) (r0 nr n : Nat) : Bool :=
  match x with
  | some x => decide (r0 + nr ≤ x.rows) && decide (n ≤ x.rowlen)
  | none => false

/-- γ or β is a PARAM tensor of the device's stage (R275). -/
def State.paramHere (s : State) (x : Option Tensor) : Bool :=
  match x with
  | some x => x.param && x.stage == s.stage
  | none => false

/-- The first row and the number of rows that a statistics op works on (R469, R702). -/
def State.rseSpan (s : State) (c : TileCmd) : Nat × Nat :=
  if 3 ≤ c.sel && c.sel ≤ 5 then
    match s.group c with
    | some g => (g.first, g.count)
    | none => (0, 0)
  else (c.r0, c.nr)

/-- The refusals of a statistics op (R270, R271, R275, R285, R286, R702). -/
def State.rseRefusal (s : State) (c : TileCmd) : Nat :=
  let op := c.sel
  let xa := s.layout c.acc c.ta
  let xb := s.layout c.acc c.tb
  let xc := s.layout c.acc c.tc
  let xd := s.layout c.acc c.td
  let n := (xc.getD {}).rowlen
  let (r0, nr) := s.rseSpan c
  let norm := op == 0 || op == 1 || op == 3 || op == 4
  let back := op == 3 || op == 4 || op == 5
  let useB := norm || op == 6
  let useD := op == 0 || back || op == 6
  let own := firstRefusal [
    (useD && xd.isNone, 0x14),
    (useD && descBad xd c.dd, 0x20),
    (op == 6 && descCode (xd.getD {}).desc != 14, 0x20),
    (!posFinite c.p1, 0x25),
    (back && (s.group c).isNone, 0x27),
    (!coversRows xa r0 nr n || !coversRows xc r0 nr n, 0x14),
    (norm && !coversRows xb 0 1 n, 0x14),
    (op == 0 && !coversRows xd 0 1 n, 0x14),
    (back && !coversRows xd r0 nr n, 0x14),
    (op == 6 && !coversRows xb r0 nr 1, 0x14),
    ((op == 3 || op == 4) && !s.paramHere xb, 0x14),
    (op == 3 && (!s.paramHere (s.layout c.acc c.p2) || !coversRows (s.layout c.acc c.p2) 0 1 n), 0x14),
    ((op == 3 || op == 4) && decide (((s.region 0x22 c.tile).map (·.length)).getD 0 < (if op == 3 then 8 else 4) * n), 0x26),
    (op ≤ 2 && (s.roomFor c.tile nr none).isNone, 0x26)]
  s.commonRefusal 0x43 c true useB true own

/-- The events of the refusals of R285 and R286. -/
def State.rseRefusalEvents (s : State) (t r : Nat) (fwd : Bool) : State :=
  if r = 0x27 then s.event (F.TIL_RSE_EVT_MISSING t)
  else if r = 0x26 && fwd then s.event (F.TIL_RSE_EVT_CAP t)
  else s

/-! ### Bodies -/

/-- The rows R0 … of a span. -/
def spanRows (r0 nr : Nat) : List Nat := (List.range nr).map (r0 + ·)

/-- A forward statistics op (LNF, RMSF, SMF). The group of its first run, where it runs twice (R312), gives way to the second's. -/
def forwardBody (c : TileCmd) (xa xb xd : Tensor) (n : Nat) : Body := fun s =>
  let a := rseArgs c
  let t := c.tile
  let s := s.putGroups t ((s.tile t).groups.filter (fun g => g.acc != c.acc))
  let s := (s.roomFor t c.nr none).getD s
  let (g, k1) := if c.sel = 2 then (⟨[], false⟩, 0) else (s.rseRow t a.p xb 0 n).run 0
  let (b, k2) := if c.sel = 0 then (s.rseRow t a.p xd 0 n).run 0 else (⟨[], false⟩, 0)
  let nanAt (x : Tensor) (i : Nat) : Bool := a.p = .saturate && s.elem t x 0 i = .nan
  let bad := (List.range n).map (fun i => (c.sel != 2 && nanAt xb i) || (c.sel = 0 && nanAt xd i))
  let (out, k3) := ((tileRows c).mapM (fun r => do
    if c.sel = 0 then lnfRow a (← s.rseRow t a.p xa r n) g.v b.v bad
    else if c.sel = 1 then rmsfRow a (← s.rseRow t a.p xa r n) g.v bad
    else smfRow a (← s.rseRow t a.p xa r (a.valid n r)) n)).run 0
  let s := s.putGroup c (out.map (fun o => (o.2.1, o.2.2)))
  ((List.zip (tileRows c) (out.map (·.1))), k1 + k2 + k3, s.traffic t xa false c.nr)

/-- dγ and dβ of a row added in ascending row order (R275). -/
def addGrads (p : Policy) (acc : List FVal × List FVal) (gy : List FVal × List FVal) : Cnt (List FVal × List FVal) := do
  let dg ← (acc.1.zip (gy.1.zip gy.2)).mapM (fun w => do fadd p w.1 (← fmul p w.2.1 w.2.2))
  let db ← (acc.2.zip gy.1).mapM (fun w => fadd p w.1 w.2)
  pure (dg, db)

/-- A statistic read back from its record (R105): an infinity is replaced and a NaN absorbed under SATURATE. -/
def statOperand (p : Policy) (w : W32) : Cnt (FVal × Bool) := do
  let v ← readOperand p 0 (ofFP32 w)
  if p = .saturate && v = .nan then pure (FVal.zero, true) else pure (v, false)

/-- A backward normalisation (LNB, RMSB): dx, with dγ and dβ formed in the statistics gradient region and added into
the gradient buffer at the command's end (R275). -/
def normBackBody (c : TileCmd) (xa xb xd : Tensor) (n : Nat) : Body := fun s =>
  let a := rseArgs c
  let t := c.tile
  let ln := c.sel == 3
  let gr := (s.group c).getD { acc := 0, first := 0, count := 0, recs := [] }
  let (gm, k1) := (s.rseRow t a.p xb 0 n).run 0
  let rows := spanRows gr.first gr.recs.length
  let badGamma := gm.absorbed
  let ((dx, dg, db), k2) := ((List.zip rows gr.recs).foldlM (fun (acc : List (Nat × List Elem) × List FVal × List FVal)
      (rr : Nat × (W32 × W32)) => do
    let g ← s.rseRow t a.p xa rr.1 n
    let x ← s.rseRow t a.p xd rr.1 n
    let mu ← statOperand a.p rr.2.1
    let rho ← statOperand a.p rr.2.2
    let (es, yh) ← normBackRow a ln g x gm.v (badGamma || mu.2 || rho.2) mu.1 rho.1
    let (dg, db) ← addGrads a.p (acc.2.1, acc.2.2) (g.v, yh)
    pure (acc.1 ++ [(rr.1, es)], dg, db))
    ([], List.replicate n FVal.zero, List.replicate n FVal.zero)).run 0
  let words (vs : List FVal) : List Byte := vs.flatMap (fun v => leBytes 4 (fp32Bits v).toNat)
  let s := match s.region 0x22 t with
    | some r => s.putTile t r.base (words dg ++ (if ln then words db else []))
    | none => s
  (dx, k1 + k2, (s.traffic t xa false rows.length).traffic t xd false rows.length)

/-- The vectors of R275 added into the gradient buffer at command end, with what the additions count and flag taken into the
command's status (R105 to R107): an element of dγ stands at row 0 and an element of dβ at row 1, behind the output tensor's
(DESIGN CHOICE, log 75). -/
def State.addNormGrads (c : TileCmd) (n : Nat) (q : NumStat × State) : NumStat × State :=
  match q.2.region 0x22 c.tile with
  | none => q
  | some r =>
    let word (i : Nat) : FVal := ofFP32 (BitVec.ofNat 32 (leNat (q.2.placeBytes 15 c.tile (r.base + 4 * i) 4)))
    let add (q : NumStat × State) (x : Option Tensor) (row : Nat) : NumStat × State :=
      match x with
      | some x => forEach (List.range n) q (fun (q : NumStat × State) i =>
          let (lost, sp, k, s) := q.2.gradAddParam c.policy (x.pbase + i) (word (n * row + i))
          ((q.1.addElem row i lost sp).addSat k, s))
      | none => q
    let q := add q (q.2.layout c.acc c.tb) 0
    if c.sel = 3 then add q (q.2.layout c.acc c.p2) 1 else q

/-- SMB's body (R274). -/
def smbBody (c : TileCmd) (xa xd : Tensor) (n : Nat) : Body := fun s =>
  let a := rseArgs c
  let t := c.tile
  let gr := (s.group c).getD { acc := 0, first := 0, count := 0, recs := [] }
  let rows := spanRows gr.first gr.recs.length
  let (out, k) := ((List.zip rows gr.recs).mapM (fun (rr : Nat × (W32 × W32)) => do
    let l := a.valid n rr.1
    let g ← s.rseRow t a.p xa rr.1 l
    let z ← s.rseRow t a.p xd rr.1 l
    if l = 0 then pure (rr.1, List.replicate n maskedElem)
    else
      let m ← statOperand a.p rr.2.1
      let sum ← statOperand a.p rr.2.2
      let es ← smbRow a { g with absorbed := g.absorbed || m.2 || sum.2 } z m.1 sum.1 n
      pure (rr.1, es))).run 0
  (out, k, (s.traffic t xa false rows.length).traffic t xd false rows.length)

/-- The label of a row: the first four bytes of its row of TB (log 15). -/
def State.labelOf (s : State) (t : Nat) (x : Tensor) (r : Nat) : Nat :=
  leNat (s.placeBytes x.place t (x.base + r * x.pitch) 4)

/-- XENT's body (R276, R277): dz, the loss record in row 0 of TD, and the label counters. DESIGN CHOICE: R106 speaks of the output
tensor, so an infinite or NaN loss pair flags nothing in the command's status; only dz's elements do (log 84). -/
def xentBody (c : TileCmd) (xa xb xd : Tensor) (n : Nat) : Body := fun s =>
  let a := rseArgs c
  let t := c.tile
  let ((out, loss), k) := ((tileRows c).foldlM (fun (acc : List (Nat × List Elem) × Pair) r => do
    let l := a.valid n r
    let lab := s.labelOf t xb r
    let z ← s.rseRow t a.p xa r l
    let (es, lr) ← xentRow a z n (if lab < l then some lab else none)
    pure (acc.1 ++ [(r, es)], ← pairAdd a.p acc.2 lr)) ([], Pair.zero)).run 0
  let (loss, k) := (pairMul a.p loss a.w).run k
  let labels := (tileRows c).map (fun r => (s.labelOf t xb r, a.valid n r))
  let ignored := (labels.filter (fun l => l.1 == 0xFFFFFFFF)).length
  let bad := (labels.filter (fun l => l.1 != 0xFFFFFFFF && l.2 ≤ l.1)).length
  let s := s.putPlace xd.place t xd.base (leBytes 4 (fp32Bits loss.1).toNat ++ leBytes 4 (fp32Bits loss.2).toNat)
  let s := (s.wr (R.TIL_RSE_LOSS_HI t) (fp32Bits loss.1)).wr (R.TIL_RSE_LOSS_LO t) (fp32Bits loss.2)
  let s := (s.bump (F.TIL_RSE_CNT_IGNORE_COUNT t) ignored).bump (F.TIL_RSE_CNT_BADLBL_COUNT t) bad
  let s := if bad = 0 then s else s.event (F.TIL_RSE_EVT_BADLBL t)
  (out, k, (s.tally t 0x31 (ignored + bad)).traffic t xa false c.nr)

/-- The loss pair of an XENT command of the job taken into its tile's loss of the running item (R276, R278). DESIGN CHOICE:
these additions follow SATURATE (log 64). -/
def State.noteLoss (s : State) (t : Nat) : State :=
  let d : Nat → W32 × W32 := fun _ => (0, 0)
  let old := lookup d s.job.lossTile t
  let new := pairAdd .saturate (ofFP32 old.1, ofFP32 old.2)
    (f32 (s.fld (F.TIL_RSE_LOSS_HI_HI t)), f32 (s.fld (F.TIL_RSE_LOSS_LO_LO t)))
  let v := (new.run 0).1
  { s with job := { s.job with lossTile := store d s.job.lossTile t (fp32Bits v.1, fp32Bits v.2) } }

/-- A command that waits for its group's reload, counted once (R283). -/
def State.noteReload (s : State) (t acc : Nat) : State :=
  let x := s.tile t
  if x.reloading.contains acc then s
  else (s.putTileRec t { x with reloading := x.reloading ++ [acc] }).bump (F.TIL_RSE_CNT_RWAIT_COUNT t) 1

/-- What a statistics op writes beside its rows (R275, R276): XENT's loss record, the gradients of γ and of β. -/
def State.rseBeside (s : State) (c : TileCmd) (xd : Option Tensor) (n : Nat) : List Range :=
  let grads (x : Option Tensor) : List Range := match x, s.gradRegion with
    | some x, some g => (List.range n).map (fun i => (g.stack, g.base + 4 * s.gradPlace (x.pbase + i), 4))
    | _, _ => []
  if c.sel = 6 then (xd.map (fun x => (x.place, x.base, 8))).toList
  else if c.sel = 4 then grads (s.layout c.acc c.tb)
  else if c.sel = 3 then grads (s.layout c.acc c.tb) ++ grads (s.layout c.acc c.p2)
  else []

/-- A statistics op run on its tile; its op is UNITSEL bits [2:0] (R470). -/
def State.rse (s : State) (c : TileCmd) : State :=
  if !s.mayStart c.acc || !s.issuedCmd 0x43 c then s else
  let op := c.sel
  let xa := (s.layout c.acc c.ta).map (s.fed c)
  let xb := (s.layout c.acc c.tb).map (s.fed c)
  let xc := s.target c
  let xd := (s.layout c.acc c.td).map (s.fed c)
  let n := (xc.getD {}).rowlen
  let r := s.rseRefusal c
  let back := op == 3 || op == 4 || op == 5
  let useB := op == 0 || op == 1 || op == 3 || op == 4 || op == 6
  let s := s.rseRefusalEvents c.tile r (decide (op ≤ 2))
  let spilled (s : State) : Bool := back && ((s.group c).map (·.spilled)).getD false
  let waits := r == 0 && s.phaseOpen c && !s.behind 0x43 c && spilled s
  let waited := (s.tile c.tile).reloading.contains c.acc
  let s := if waits then (s.noteReload c.tile c.acc).reload c.tile c.group else s
  if waits && spilled s then s.waitCmd 0x43 c else
  let s := s.putTileRec c.tile { s.tile c.tile with reloading := (s.tile c.tile).reloading.filter (· != c.acc) }
  let (r0, nr) := s.rseSpan c
  let body : Body :=
    if op ≤ 2 then forwardBody c (xa.getD {}) (xb.getD {}) (xd.getD {}) n
    else if op = 5 then smbBody c (xa.getD {}) (xd.getD {}) n
    else if op = 6 then xentBody c (xa.getD {}) (xb.getD {}) (xd.getD {}) n
    else normBackBody c (xa.getD {}) (xb.getD {}) (xd.getD {}) n
  let after (q : NumStat × State) : NumStat × State :=
    let q := if waits || waited then (q.1, q.2.tally c.tile 0x30 1) else q
    let q := if op = 3 || op = 4 then State.addNormGrads c n q else q
    if op = 6 && c.job then (q.1, q.2.noteLoss c.tile) else q
  s.runTile 0x43 5 c r xa (if useB then xb else none) xc (spanRows r0 nr) true body after (beside := s.rseBeside c xd n)

/-! ### Commands -/

/-- The command with its statistics op in UNITSEL bits [2:0] (R470). -/
def withOp (c : TileCmd) (op : Nat) : TileCmd := { c with unitsel := c.unitsel / 8 * 8 + op }

/-- LNF (R268). -/
def execLnf (c : TileCmd) (s : State) : Outcome := act s fun s => s.rse (withOp c 0)
/-- RMSF (R269). -/
def execRmsf (c : TileCmd) (s : State) : Outcome := act s fun s => s.rse (withOp c 1)
/-- SMF (R272). -/
def execSmf (c : TileCmd) (s : State) : Outcome := act s fun s => s.rse (withOp c 2)
/-- LNB (R274, R275). -/
def execLnb (c : TileCmd) (s : State) : Outcome := act s fun s => s.rse (withOp c 3)
/-- RMSB (R274, R275). -/
def execRmsb (c : TileCmd) (s : State) : Outcome := act s fun s => s.rse (withOp c 4)
/-- SMB (R274). -/
def execSmb (c : TileCmd) (s : State) : Outcome := act s fun s => s.rse (withOp c 5)
/-- XENT (R276). -/
def execXent (c : TileCmd) (s : State) : Outcome := act s fun s => s.rse (withOp c 6)

/-- GROUP_SPILL (R282): the spill write of the tile's oldest resident group is complete and its space is freed. -/
def execGroupSpill (t : Nat) (s : State) : Outcome := act s fun s => (s.spillOldest t none).getD s

end Sys2Proof.Machine
end

