-- ==== Sys2Proof/Machine/RunOp.lean ====
section
/-! DEFINITION. Tile commands by opcode, and the commands that wait on a tile tried again (R470, R471).
-/

namespace Sys2Proof.Machine

/-- A tile command run by its opcode (R470). -/
def State.runOp (s : State) (op : Nat) (c : TileCmd) : State :=
  if op = 0x40 then s.mvm c
  else if op = 0x41 then s.opeProduct c
  else if op = 0x42 then s.dpaProduct c
  else if op = 0x43 then s.rse c
  else if op = 0x44 then s.convert c
  else if op = 0x45 then s.amaxCmd c
  else if op = 0x48 then s.stash c
  else if op = 0x49 then s.unstash c
  else if op = 0x4A then s.sendCmd c
  else if op = 0x4B then s.gradAdd c
  else s

/-- The commands that wait on a tile tried again in their order (R471). -/
def State.rerun (s : State) (t : Nat) : State :=
  let q := (s.tile t).seqWait
  let s := s.putTileRec t { s.tile t with seqWait := [] }
  forEach q s (fun s o => s.runOp o.1 o.2)

/-- Every tile's waiting commands tried again. -/
def State.rerunAll (s : State) : State :=
  forEach ((s.tiles.filter (fun e => !e.2.seqWait.isEmpty)).map (·.1)) s (fun s t => s.rerun t)

/-- What waits for a bucket tried again (R303): where none waits any longer, the bubble of cause "buffer" ends (R304). -/
def State.endBufferWait (s : State) : State :=
  let s := s.rerunAll
  let busy := s.tiles.any (fun e => e.2.seqWait.any (fun q => s.bufferBusy q.1 q.2))
  match s.job.bubble with
  | some (3, _) => if busy then s else s.endBubble
  | _ => s

end Sys2Proof.Machine
end

