-- ==== Sys2Proof/Machine/Exchange.lean ====
section
/-! DEFINITION. Gradient exchange and parameter return (11_gradient_exchange.md) with the step's outcome
(10_update_engine.md): the reduction tree, the scalar tree, the step root, and the commands BUCKET_SEND,
REDUCTION_SEGMENT, REDUCTION_CREDIT_GRANT, SEGMENT_DELIVERY, CONTRIB, CLIP_MESSAGE, TRUST_PASS_ONE_COMPLETE, TRUST,
UPDATE_APPLY_COMPLETE, REPORT, VREQ, OUTCOME, ACK, PARAMETER_MESSAGE and FRE_CNT_CLR.
-/

namespace Sys2Proof.Machine

/-! ### The reduction tree (R364, R365) -/

/-- The engine record n. -/
def State.engine (s : State) (n : Nat) : Engine := lookup (fun _ => {}) s.engines n
/-- An engine record replaced. -/
def State.putEngine (s : State) (n : Nat) (e : Engine) : State :=
  { s with engines := store (fun _ => {}) s.engines n e }

/-- left + right of a node, elementwise (R364, R370): the sums, SVF and the number of additions counted. -/
def addSegments (p : Policy) (l r : List W32) : List W32 × Bool × Nat :=
  let rs := (List.zip l r).map (fun w => (engAdd p w.1 w.2).run 0)
  (rs.map (fun q => fp32Bits q.1), rs.any (fun q => !q.1.isFinite), (rs.filter (fun q => q.2 != 0)).length)

/-- A subtree's value held by this rank moves up the tree (R364, R365, R369), with fuel for the levels: it is added
where the node is hosted here and the other child has arrived, kept where it has not, sent where another rank hosts
the node, and left for delivery at the root. -/
def State.ascend (fuel : Nat) (s : State) (x : Slot) : State :=
  match fuel with
  | 0 => s
  | f + 1 =>
    let d := s.chart.replicas
    let h := x.level
    let o := s.ownerRank (s.chart.shards.getD x.shard {})
    let keep : State := { s with fre := { s.fre with slots := s.fre.slots ++ [{ x with own := true }] } }
    if clog2 d ≤ h then keep.freSlots
    else
      let idx := s.rank / 2 ^ h
      let sib := if idx % 2 = 0 then idx + 1 else idx - 1
      if d ≤ sib * 2 ^ h then State.ascend f s { x with level := h + 1 }
      else
        let host := hostRank o d (h + 1) (idx / 2)
        if host = s.rank then
          match s.fre.slots.find? (fun y => !y.own && y.level == h && y.step == x.step && y.shard == x.shard
              && y.offset == x.offset) with
          | some y =>
            let p := policyOf s.chart.rnp
            let (vs, bad, n) := if idx % 2 = 0 then addSegments p x.vals y.vals else addSegments p y.vals x.vals
            let svf := x.svf || y.svf || bad
            let sat := x.sat || y.sat || n != 0
            let s : State := { s with fre := { s.fre with slots := s.fre.slots.filter (· != y) } }
            let s := (s.bumpPair F.FRE_CNT_SEG_LO_COUNT F.FRE_CNT_SEG_HI_COUNT 1).bump F.FRE_CNT_SAT_COUNT n
            let s := if svf then s.bump F.FRE_CNT_SVF_COUNT 1 else s
            State.ascend f s.freSlots { x with level := h + 1, vals := vs, svf, sat }
          | none => keep.freSlots
        else
          let data := x.vals.flatMap (fun w => leBytes 4 w.toNat)
          let s := s.freFlags x.svf x.sat
          (s.sendSegment (s.rankDevice host)
            (segmentBytes x.step x.shard x.offset x.vals.length h (b2n x.svf + 2 * b2n x.sat) x.bucket data)).freSlots

/-- A full bucket's segments enter their trees in order (R362). -/
def State.sendBucket (s : State) (g : Region) (step b : Nat) : State :=
  let svf := s.fre.bsvf.contains (step, b)
  let sat := s.fre.bsat.contains (step, b)
  forEach (s.bucketSegments b) s (fun s q =>
    let (shard, off, n, place) := q
    let vals := (List.range n).map (fun i => BitVec.ofNat 32 (leNat (s.memBytes (g.addr + 4 * (place + i)) 4)))
    s.ascend (clog2 s.chart.replicas + 2)
      { step, bucket := b, shard, offset := off, level := 0, vals, svf, sat, own := true })

/-- BUCKET_SEND (R362): the oldest full bucket is sent; an addition that waited for it goes on (R303). -/
def execBucketSend (s : State) : Outcome :=
  act s fun s =>
    match s.fre.full.head?, (s.fre.full.head?).bind (fun q => s.region (2 + b2n s.chart.gbuf * (q.1 % 2)) 0xFFFF) with
    | some (step, b), some g =>
      (({ s with fre := { s.fre with full := s.fre.full.tail } } : State).sendBucket g step b).endBufferWait
    | _, _ => s

/-- The segments of a step that this rank's FRE is to receive, in ascending key, with the devices that send them (R365,
R372): one for each node with two children that is hosted here. -/
def State.segmentsIn (s : State) (step : Nat) : List (SegKey × Nat) :=
  let d := s.chart.replicas
  s.allBuckets.flatMap (fun b => (s.bucketSegments b).flatMap (fun q =>
    let o := s.ownerRank (s.chart.shards.getD q.1 {})
    (List.range (clog2 d)).filterMap (fun h =>
      let i := s.rank / 2 ^ (h + 1)
      if hostRank o d (h + 1) i = s.rank && decide ((2 * i + 1) * 2 ^ h < d) then
        let l := hostRank o d h (2 * i)
        let c := if l = s.rank then hostRank o d h (2 * i + 1) else l
        some ({ step, bucket := b, shard := q.1, offset := q.2.1, level := h }, s.rankDevice c)
      else none)))

/-- The segments that have not come, of the step without an outcome and of the next (R372). -/
def State.segmentsDue (s : State) : List (SegKey × Nat) :=
  (s.segmentsIn s.job.handled ++ s.segmentsIn (s.job.handled + 1)).filter (fun k => !s.fre.came.contains k.1)

/-- The device that sends this rank a segment (R365); none of a segment that this rank does not host. -/
def State.senderOf (s : State) (k : SegKey) : Option Nat := ((s.segmentsIn k.step).find? (fun q => q.1 == k)).map (·.2)

/-- Slots reserved for a device's segments (R371). -/
def State.reservedFor (s : State) (dev : Nat) : Nat := lookup (fun _ => 0) s.fre.reserved dev
/-- Slots reserved. -/
def State.reservedAll (s : State) : Nat := (s.fre.reserved.map (·.2)).sum
/-- A device's reservation count replaced. -/
def State.putReserved (s : State) (dev n : Nat) : State :=
  { s with fre := { s.fre with reserved := store (fun _ => 0) s.fre.reserved dev n } }

/-- REDUCTION_SEGMENT (R368, R369, R371): a message of the reduction class arrives in a slot reserved for its sender; one without
a reservation cannot arrive. One of a step whose outcome was handled, a veto, is discarded (R378). -/
def execReductionSegment (payload : List Byte) (s : State) : Outcome :=
  act s fun s =>
    let data := payload.drop 32
    if s.job.rolling.isSome then s else
    let (hit, s) := s.inject 0x0B 0 0 0 0
    if hit || leAt payload 28 4 != (crc32c (payload.take 28 ++ data)).toNat then
      ((s.event F.FRE_EVT_CRC).bump F.FRE_CNT_CRC_COUNT 1).raiseFault 0x13 0x7 0 0 false
    else
      let n := leAt payload 16 2 + 1
      let fl := leAt payload 19 1
      let k := segKey payload
      let x : Slot := { step := k.step, bucket := k.bucket, shard := k.shard, offset := k.offset, level := k.level,
                        svf := fl.testBit 0, sat := fl.testBit 1,
                        vals := (List.range n).map (fun i => BitVec.ofNat 32 (leAt data (4 * i) 4)), own := false }
      let dev := (s.senderOf k).getD 0
      if (s.senderOf k).isNone || s.reservedFor dev = 0 || s.fre.came.contains k then s else
      let s := (s.freFlags x.svf x.sat).putReserved dev (s.reservedFor dev - 1)
      if x.step < s.job.handled then s
      else
        let s : State := { s with fre := { s.fre with slots := s.fre.slots ++ [x], came := s.fre.came ++ [k] } }
        let s := s.freSlots
        match s.fre.slots.find? (fun y => y.own && y.level == x.level && y.step == x.step && y.shard == x.shard
            && y.offset == x.offset) with
        | some y =>
          let s : State := { s with fre := { s.fre with slots := s.fre.slots.filter (· != y) } }
          s.ascend (clog2 s.chart.replicas + 2) y
        | none => s

/-- The segments that are due and have no slot reserved, in ascending key (R372): a device's reservations belong to the lowest keys
that it has still to send. -/
def State.segmentsOpen (s : State) : List (SegKey × Nat) :=
  s.segmentsDue.filter (fun k =>
    decide (s.reservedFor k.2 ≤ ((s.segmentsDue.takeWhile (fun q => q.1 != k.1)).filter (fun q => q.2 == k.2)).length))

/-- A slot reserved for a segment that the device dev sends (R371, R372): for the lowest key that the FRE waits to receive,
out of the 64 slots kept for it, or for the lowest key without a slot, out of the others. -/
def State.grantSlot (s : State) (lowest : Bool) (dev : Nat) : State :=
  match (if lowest then s.segmentsOpen.head?.filter (fun k => s.segmentsDue.head? == some k) else s.segmentsOpen.head?) with
  | some (_, d) =>
    if d = dev && decide (s.slotsUsed + s.reservedAll + (if lowest then 0 else 64) < 2048) then s.putReserved dev (s.reservedFor dev + 1)
    else s
  | none => s

/-- REDUCTION_CREDIT_GRANT (R371, R372). granted: this device's FRE reserves a slot for a segment of the device dev, out of
the 64 slots kept for the lowest key (lowest) or out of the others; otherwise credit from dev has arrived here and a waiting
segment leaves. -/
def execReductionCreditGrant (granted lowest : Bool) (dev : Nat) (s : State) : Outcome :=
  act s fun s =>
    if granted then s.grantSlot lowest dev
    else
      let c := lookup (fun _ => 0) s.fre.credit dev + 1
      State.flushSegments s.fre.out.length { s with fre := { s.fre with credit := store (fun _ => 0) s.fre.credit dev c } }

/-! ### The scalar tree (R341, R374) -/

/-- The device that owns a shard. -/
def State.shardDevice (s : State) (f : Nat) : Nat := (s.chart.shards.getD f {}).device

/-- left + right of a node's pairs (R341, R105). -/
def pairSumOf (p : Policy) (a b : Pair) : Cnt Pair := do pairAdd p (← pairOperand p a) (← pairOperand p b)

/-- Two lists of layer sums merged in ascending layer, equal layers added with pair_add. -/
def mergeLayers (p : Policy) : Nat → List LayerSums → List LayerSums → List LayerSums
  | 0, xs, ys => xs ++ ys
  | _, [], ys => ys
  | _, xs, [] => xs
  | f + 1, x :: xs, y :: ys =>
    if x.layer < y.layer then x :: mergeLayers p f xs (y :: ys)
    else if y.layer < x.layer then y :: mergeLayers p f (x :: xs) ys
    else
      let add (a b : W32 × W32) : W32 × W32 := pairBits ((pairSumOf p (ofPairBits a) (ofPairBits b)).run 0).1
      { layer := x.layer, a := add x.a y.a, b := add x.b y.b } :: mergeLayers p f xs ys

/-- left + right of a node of the scalar tree (R341, R375). -/
def addNodes (p : Policy) (l r : Node) : Node :=
  let (v, n) := (pairSumOf p (ofFP32 l.hi, ofFP32 l.lo) (ofFP32 r.hi, ofFP32 r.lo)).run 0
  { status := l.status ||| r.status, hi := fp32Bits v.1, lo := fp32Bits v.2, sat := l.sat || r.sat || n != 0,
    layers := mergeLayers p (l.layers.length + r.layers.length) l.layers r.layers }

/-- This device's part of a step's tree (R374). -/
def treeOf (ts : Sparse STree) (step : Nat) : STree := lookup (fun _ => {}) ts step
/-- A step's tree replaced. -/
def putTree (ts : Sparse STree) (step : Nat) (t : STree) : Sparse STree := store (fun _ => {}) ts step t
/-- The trees of the steps after one whose outcome is handled: messages of that step are discarded (R347 step 6b). -/
def treesAfter (ts : Sparse STree) (step : Nat) : Sparse STree := ts.filter (fun e => decide (step < e.1))

/-- A value of the tree by first shard. -/
def STree.find (t : STree) (f : Nat) : Option Node := (t.vals.find? (fun v => v.1 == f)).map (·.2)

/-- The node of height h whose span starts at shard f, as far as this device can form it (R341). -/
def State.node (s : State) (t : STree) : Nat → Nat → Option Node
  | 0, f => t.find f
  | h + 1, f =>
    let r := f + 2 ^ h
    if s.chart.shards.length ≤ r then s.node t h f
    else
      let right := if s.shardDevice r = s.devNum then s.node t h r else t.find r
      match s.node t h f, right with
      | some a, some b => some (addNodes (policyOf s.chart.rnp) a b)
      | _, _ => none

/-- Trailing zero bits of a positive number, with fuel. -/
def ctz : Nat → Nat → Nat
  | 0, _ => 0
  | f + 1, n => if n % 2 = 1 then 0 else ctz f (n / 2) + 1

/-- A value put into a tree. -/
def STree.put (t : STree) (f : Nat) (v : Node) : STree := { t with vals := t.vals.filter (fun w => w.1 != f) ++ [(f, v)] }

/-- This device's nodes that are complete, unsent, and have a parent on another device: first shard, parent's device,
value. -/
def State.nodesUp (s : State) (t : STree) : List (Nat × Nat × Node) :=
  (List.range s.chart.shards.length).filterMap (fun f =>
    if f = 0 || s.shardDevice f != s.devNum || t.sent.contains f then none
    else
      let h := ctz 32 f
      let dev := s.shardDevice (f - 2 ^ h)
      if dev = s.devNum then none
      else (s.node t h f).map (fun v => (f, dev, v)))

/-- The root of a tree at the step root (R374). -/
def State.treeRoot (s : State) (t : STree) : Option Node :=
  if s.shardDevice 0 = s.devNum then s.node t (clog2 s.chart.shards.length) 0 else none

/-- The layer list of a REPORT or TRUST message (R375). -/
def layerBytes (ls : List LayerSums) : List Byte :=
  leBytes 4 ls.length ++ ls.flatMap (fun l => leBytes 2 l.layer ++ zeros 2 ++ leBytes 4 l.a.1.toNat ++ leBytes 4 l.a.2.toNat
    ++ leBytes 4 l.b.1.toNat ++ leBytes 4 l.b.2.toNat)

/-- A list of layers in parts of at most 3,072, each with its PART byte (R375). -/
def layerParts (ls : List LayerSums) : List (Nat × List LayerSums) :=
  let ps := if ls.isEmpty then [[]] else chunks 3072 ls
  ps.mapIdx (fun i p => (i + (if i + 1 = ps.length then 128 else 0), p))

/-- A part received: the whole list once the last part is here. -/
def STree.part (t : STree) (f part : Nat) (ls : List LayerSums) : Option (List LayerSums) × STree :=
  let all := ((t.parts.find? (fun p => p.1 == f)).map (·.2)).getD [] ++ ls
  let rest := t.parts.filter (fun p => p.1 != f)
  if part.testBit 7 then (some all, { t with parts := rest }) else (none, { t with parts := rest ++ [(f, all)] })

/-! ### The step root's outcome (R346, R353, R377, R379, R381) -/

/-- ρ of a layer (R353). -/
def ratioOf (p : Policy) (l : LayerSums) : W32 :=
  let d := ofFP32 l.a.1
  let w := ofFP32 l.b.1
  if d.isZero && w.isZero then 0
  else if w.isZero then fp32Bits (.inf false)
  else fp32Bits ((do fdiv p (← fsqrt p d) (← fsqrt p w) : Cnt FVal).run 0).1

/-- Every device of the job has acknowledged the last issued outcome (R381). -/
def State.allAcked (s : State) : Bool :=
  match s.root.issued with
  | none => true
  | some _ => s.chart.devices.all (fun d => s.root.acks.contains d.device)

/-- The last issued outcome's step. -/
def State.issuedStep (s : State) : Option Nat := s.root.issued.map (·.1)

/-- Bytes of an OUTCOME message after STEP (R375). -/
def outcomeBytes (out cause : Nat) (ratios : List (Nat × W32)) : List Byte :=
  leBytes 1 out ++ leBytes 1 cause ++ zeros 2 ++ leBytes 4 ratios.length ++ ratios.flatMap (fun r => leBytes 4 r.2.toNat)

/-! ### Parameter return (R382, R383) -/

/-- The bytes of a digital copy hold one weight of an array: its address (R160, R400; log 9). -/
def State.weightAddr (s : State) (b : Nat) (p : Placement) (param : Nat) : Option Nat :=
  let k := param - p.pbase
  (s.copyAddr b p.tile p.array).map (fun base => base + 2 * (512 * (k / p.rows) + k % p.rows))

/-- The bank whose copy takes the values of a step's outcome (R180, R184, R187, R383): the one that the swap after next
under LAG1, or the next swap under WAIT, makes active. Until boundary t/t + 1 has passed, that is the active bank under
LAG1. -/
def State.targetBank (s : State) (t a step : Nat) : Nat :=
  if s.chart.lag1 && step == s.step then s.active t a else 1 - s.active t a

/-- A bank's copy holds every target (R166, R383): its version, and its rewrite may start. -/
def State.copyMark (s : State) (t a b version : Nat) : State :=
  let x := s.arr t a
  let k : Bank := { x.bank b with copied := true, version, fresh := true, awaited := false, imaged := false }
  (s.putArr t a (x.setBank b k)).wr (if b = 0 then R.ARR_VER0 t a else R.ARR_VER1 t a) (BitVec.ofNat 32 version)

/-- An array's copy has all its values (R166, R383). -/
def State.copyComplete (s : State) (p : Placement) (step : Nat) : State :=
  let t := p.tile
  let a := p.array
  let s : State := { s with job := { s.job with arrived := store (fun _ => 0) s.job.arrived (8 * t + a) 0 } }
  if (s.arr t a).startup then
    let s := (s.copyMark t a 0 (step % 2 ^ 32)).copyMark t a 1 (step % 2 ^ 32)
    if s.dfwd then (s.putArr t a { s.arr t a with startup := false }).setFld (F.ARR_STAT_ACTIVE t a) 0 else s
  else s.copyMark t a (s.targetBank t a step) (step % 2 ^ 32)

/-- The value of a parameter that no array holds written into its PARAM tensor (R395, R383). -/
def State.putParam (s : State) (param : Nat) (v : W16) : State :=
  match s.chart.tensors.find? (fun x => x.param && x.stage == s.stage && decide (x.pbase ≤ param)
      && decide (param < x.pbase + x.rows * x.rowlen)) with
  | some x =>
    let k := param - x.pbase
    s.putPlace x.place 0 (x.base + k / x.rowlen * x.pitch + 2 * (k % x.rowlen)) (leBytes 2 v.toNat)
  | none => s

/-- A copy lacks the values of a returned step (R160, R383). -/
def State.copyLacks (s : State) (p : Placement) (b step : Nat) : Bool :=
  let k := (s.arr p.tile p.array).bank b
  k.version != step % 2 ^ 32 || !k.copied

/-- A copy takes values of a returned step (R383, R593): at start-up, while that return is awaited, and from its first value
where the values come before this device's own OUTCOME. -/
def State.copyTakes (s : State) (p : Placement) (b step : Nat) : Bool :=
  let x := s.arr p.tile p.array
  x.startup || (x.bank b).awaited || (decide (s.job.handled ≤ step) && s.copyLacks p b step)

/-- One returned value placed (R383): in the copy that takes the step's values (both copies at start-up), or kept for
the swap; a value that the job starts with takes effect at once. -/
def State.returnValue (s : State) (step param : Nat) (v : W16) : State :=
  match s.chart.arrays.find? (fun p => p.stage == s.stage && decide (p.pbase ≤ param)
      && decide (param < p.pbase + p.rows * p.cols)) with
  | some p =>
    let x := s.arr p.tile p.array
    let put (s : State) (b : Nat) : State :=
      match s.weightAddr b p param with
      | some a => s.putMem a (leBytes 2 v.toNat)
      | none => s
    let b := s.targetBank p.tile p.array step
    if !s.copyTakes p b step then s
    else
      let s := s.putArr p.tile p.array (if x.startup then x else x.setBank b { x.bank b with awaited := true })
      let s := if x.startup then put (put s 0) 1 else put s b
      let k := 8 * p.tile + p.array
      let n := lookup (fun _ => 0) s.job.arrived k + 1
      let s : State := { s with job := { s.job with arrived := store (fun _ => 0) s.job.arrived k n } }
      if p.rows * p.cols ≤ n then s.copyComplete p step else s
  | none =>
    if (step + 1) % 2 ^ 64 ≤ (if s.job.running then s.job.first else s.step) then s.putParam param v
    else { s with job := { s.job with memNew := store (fun _ => none) s.job.memNew (2 ^ 48 * (step % 2) + param) (some v) } }

/-- A parameter-class message delivered (R383). -/
def State.deliverParams (s : State) (payload : List Byte) : State :=
  let step := leAt payload 0 8
  let first := (s.chart.shards.getD (leAt payload 8 4) {}).first + leAt payload 12 4
  let n := leAt payload 16 2 + 1
  forEach (List.range n) s (fun s i =>
    s.returnValue step (first + i) (BitVec.ofNat 16 (leAt payload (32 + 2 * i) 2)))

/-- An engine returns its shards' master values after a commit, or of its current slot at job start (R382, R407): STEP is
that of the last committed update that the slot holds (R160). -/
def State.returnParams (s : State) (n : Nat) : State :=
  forEach (s.shardsAt n) s (fun s x =>
    let slot := s.curSlot x
    let step := s.shardStep x
    let o := s.ownerRank x.shard
    let d := s.chart.replicas
    forEach (List.range (ceilDiv x.shard.length 32768)) s (fun s i =>
      let k := min 32768 (x.shard.length - 32768 * i)
      let msg := segmentBytes step x.num (32768 * i) k 0 0 0 (s.memBytes (x.area (2 + slot) + 65536 * i) (2 * k))
      forEach ((List.range d).map (fun j => (o + 1 + j) % d)) s (fun s r =>
        if r = o then s.deliverParams msg else s.sendOn (s.rankDevice r) 2 (x.num % 2 ^ 16) msg)))

/-! ### Outcomes at a device (R347, R348, R378, R380) -/

/-- Engines that hold shards. -/
def State.ownEngines (s : State) : List Nat := (List.range 8).filter (fun n => !(s.engineShards n).isEmpty)

/-- HAL_CKSTAT.HOLD follows the engines that a checkpoint holds (R485). -/
def State.ckHoldFlag (s : State) : State := s.setFlag F.HAL_CKSTAT_HOLD (s.engines.any (fun e => e.2.held))

/-- An engine's step ends: STATE returns to idle and its progress is cleared. -/
def State.endEngine (s : State) (n step : Nat) : State :=
  let s := (s.putEngine n { handled := step + 1 }).setFld (F.UPD_STAT_STATE n) 0
  (s.setFlag (F.UPD_STAT_PEND n) false).ckHoldFlag

/-- A checkpoint's stream begins (R484, R486), or waits for the one in progress: its engine records are those of the slots that
are current now. -/
def State.ckBegin (s : State) (c : Ckpt) : State :=
  let c : Ckpt := { c with slots := s.ownEngines.flatMap (fun n => (s.shardsAt n).map (fun x => (x.num, s.curSlot x))) }
  { s with hal := if s.hal.ckStream.isSome then { s.hal with ckQueue := s.hal.ckQueue ++ [c] } else { s.hal with ckStream := some c } }

/-- The stream in progress is over, and the next one's turn comes (R486). -/
def State.nextStream (s : State) : State :=
  { s with hal := { s.hal with ckStream := s.hal.ckQueue.head?, ckQueue := s.hal.ckQueue.tail } }

/-- A commit at an engine (R347 step 6a, R354): pending slots become current, ratios are written, values return. -/
def State.commitEngine (s : State) (n step : Nat) (ratios : List (Nat × W32)) : State :=
  let xs := s.shardsAt n
  let s := forEach xs s (fun s x =>
    let slot := 1 - s.curSlot x
    s.putMem (x.area slot) (stateRecord (s.shardCount x + 1) step))
  let s := (s.bump (F.UPD_CNT_APPLIED_COUNT n) 1).reloadEngine n
  let mine := ratios.filter (fun r => xs.any (fun x => (List.range x.shard.length).any (fun i =>
    s.chart.layerOf (x.shard.first + i) == r.1)))
  let s := match s.region 0x0F 0xFFFF with
    | some g => forEach mine s (fun s r => s.putMem (g.addr + 4 * r.1) (leBytes 4 r.2.toNat))
    | none => s
  let top := mine.foldl (fun (m : Nat × W32) r => if FVal.lt (ofFP32 m.2) (ofFP32 r.2) then r else m) (mine.headD (0, 0))
  let s := if mine.isEmpty then s
    else (s.setFld (F.UPD_RATIOMAX_RATIO n) top.2.toNat).setFld (F.UPD_RATIOLAYER_LAYER n) top.1
  if s.job.rolling.isSome then s.endEngine n step else (s.endEngine n step).returnParams n

/-- A veto at an engine (R347 step 6b, R348). -/
def State.vetoEngine (s : State) (n step cause : Nat) : State :=
  let s := ((s.event (F.UPD_EVT_VETO n)).bump (F.UPD_CNT_VETO_COUNT n) 1).setFld (F.UPD_VETOCAUSE_CAUSE n) cause
  s.endEngine n step

/-- A commit's return is awaited by every placed array whose copy has not taken it already (R383). -/
def State.awaitReturn (s : State) (step : Nat) : State :=
  forEach (s.chart.arrays.filter (fun p => p.stage == s.stage)) s (fun s p =>
    let x := s.arr p.tile p.array
    let b := s.targetBank p.tile p.array step
    if s.copyLacks p b step then s.putArr p.tile p.array (x.setBank b { x.bank b with awaited := true }) else s)

/-- The active bank's digital copy of every array copied into the idle bank's, with its version tag (R186, R378). -/
def State.copyCopies (s : State) : State :=
  forEach (s.chart.arrays.filter (fun p => p.stage == s.stage)) s (fun s p =>
    let t := p.tile
    let a := p.array
    let b := 1 - s.active t a
    match s.copyAddr (1 - b) t a, s.copyAddr b t a with
    | some from', some to' =>
      let s := s.putMem to' (s.memBytes from' 524288)
      s.copyMark t a b ((s.arr t a).bank (1 - b)).version
    | _, _ => s)

/-- A veto's copies (R378). Under LAG1, where the vetoed step still runs here, the swap that closes it comes first: its
backward work reads the copy that is overwritten (R185, R187). DEDUCED, log 77. -/
def State.vetoCopies (s : State) (step : Nat) : State :=
  if s.chart.lag1 && step == s.step then { s with job := { s.job with copyDue := true } } else s.copyCopies

/-- What a veto leaves of a step in the FRE (R348, R378): its slots, pending sends and full buckets are discarded;
the slots reserved serve the segments of later steps. -/
def Fre.drop (f : Fre) (step : Nat) : Fre :=
  { f with slots := f.slots.filter (fun x => x.step != step), out := f.out.filter (fun o => leAt o.payload 0 8 != step),
           full := f.full.filter (fun q => q.1 != step), bsvf := f.bsvf.filter (fun q => q.1 != step),
           bsat := f.bsat.filter (fun q => q.1 != step) }

/-- Keys of the steps that still await their outcome. -/
def Fre.after (f : Fre) (step : Nat) : Fre :=
  { f with came := f.came.filter (fun k => decide (step < k.step)), gone := f.gone.filter (fun k => decide (step < k.step)) }

/-- A veto at this device (R347 step 6b, R348, R378, R311). -/
def State.vetoHere (s : State) (step cause : Nat) : State :=
  let s := forEach s.ownEngines s (fun s n => s.vetoEngine n step cause)
  let s : State := { s with fre := s.fre.drop step, job := { s.job with vetoed := s.job.vetoed ++ [step] } }
  (s.vetoCopies step).endBufferWait

/-- Feed descriptors released once a step's outcome is handled (R481). -/
def State.releaseFeeds (s : State) (step : Nat) : State :=
  forEach (s.chart.feeds.filter (fun f => f.device == s.devNum)) s (fun s f =>
    s.setFld (F.HAL_FDREL_COUNT f.ring) ((step + 1) * s.chart.micro))

/-- The state record as it stands (R46). -/
def State.record (s : State) : StateRec :=
  { step := s.step, handled := s.job.handled, outKind := s.job.outKind, charter := s.charter.map (·.id),
    contexts := (List.range 16).map (fun c => s.fld (F.CTX_STAT_STATE c)),
    pointers := (List.range 17).map (fun h => [(s.halyard h).pos, s.fld (F.HAL_SQPROD_COUNT h), s.fld (F.HAL_CQTAIL_COUNT h),
      s.fld (F.HAL_CQHEAD_COUNT h)]),
    issued := s.root.issued, recov := s.root.recov, swap := s.ens.swapDue }

/-- A record includes the outcomes handled, the step, the charter and the ordered swap that stand now (R47). -/
def State.includes (s : State) (r : StateRec) : Bool :=
  r.step == s.step && r.handled == s.job.handled && r.outKind == s.job.outKind && r.charter == s.charter.map (·.id)
    && r.swap == s.ens.swapDue

/-- The standby has confirmed a record that includes the last outcome, boundary and ordered swap (R47), or one half alone runs and there is no
standby (R610). With both Stewards down nobody holds the token (R43). -/
def State.recordHeld (s : State) : Bool :=
  if s.ens.up = 3 then (s.ens.standby.map s.includes).getD false else s.ens.up != 0

/-- An OUTCOME handled at this device (R347, R378, R380, R381). Its ACK waits for the standby (R47). -/
def State.handleOutcome (s : State) (step out cause : Nat) (ratios : List (Nat × W32)) : State :=
  if step < s.job.handled then s.bump F.FRE_CNT_DUP_COUNT 1
  else
    let s := s.wr R.FRE_OUTCOME (pack [(31, 1), (30, out), (0, cause)])
    let s := s.setPair F.FRE_OUTSTEP_LO_STEP F.FRE_OUTSTEP_HI_STEP step
    let s : State := { s with job := { s.job with handled := step + 1, outKind := out } }
    let s := s.bump (if out = 0 then F.FRE_CNT_COMMIT_COUNT else F.FRE_CNT_VETO_COUNT) 1
    let s := if out = 0 then forEach s.ownEngines (s.awaitReturn step) (fun s n => s.commitEngine n step ratios)
      else s.vetoHere step cause
    let s : State := { s with treeC := treesAfter s.treeC step, treeR := treesAfter s.treeR step, treeT := treesAfter s.treeT step,
                              fre := s.fre.after step,
                              job := { s.job with kept := s.job.kept.filter (fun k => decide (step < k.1)) } }
    let s := State.flushSegments s.fre.out.length (s.releaseFeeds step)
    let s : State := match s.hal.ckStaged with
      | some c =>
        if c.step = step then
          if out = 0 then ({ s with hal := { s.hal with ckStaged := none } } : State).ckBegin c
          else { s with hal := { s.hal with ckStaged := none, ckWant := s.hal.ckWant ++ c.accs,
                                            ckNext := s.hal.ckNext || c.accs.isEmpty } }
        else s
      | none => s
    let done : Bool := match s.job.rolling with
      | some next => decide (next ≤ step + 1)
      | none => false
    let s : State := { s with ens := { s.ens with ackDue := s.ens.ackDue ++ [(step, out)] },
                              job := { s.job with localDone := s.job.localDone || done } }
    s.rbackCheck

/-- The step root issues an outcome (R346, R377, R379, R381): to every other device, and to itself. One that has to wait for
the acknowledgements of the step before keeps its first cause; during a recovery none is issued, the step is replayed
(R589). -/
def State.issueOutcome (s : State) (w : Waiting) (ratios : List (Nat × W32)) : State :=
  let out := b2n (w.cause != 0)
  if s.issuedStep == some w.step || s.root.recovery || s.root.wait.isSome then s
  else if !s.allAcked then { s with root := { s.root with wait := some w } }
  else
    let s : State := { s with root := { s.root with issued := some (w.step, out, w.cause), ratios, acks := [] } }
    let s := if w.cause = 1 then (s.setFld F.FRE_VETOSRC_DEV w.dev).setFld F.FRE_VETOSHARD_SHARD w.shard else s
    (s.toAll 0x06 w.step (outcomeBytes out w.cause ratios)).handleOutcome w.step out w.cause ratios

/-- A cause of veto other than a VREQ reaches the step root (R377). -/
def State.vetoCause (s : State) (step cause : Nat) : State := s.issueOutcome { step, cause } []

/-! ### Contributions, the norm and the clip factor (R341 to R344) -/

/-- An engine waits for its records of a checkpoint two steps older (R485): they stand in a stream, or one that waits. -/
def State.ckHolds (s : State) (n : Nat) : Bool :=
  (s.hal.ckStream.toList ++ s.hal.ckQueue).any (fun c => decide (c.step + 2 ≤ (s.engine n).handled)
    && (!c.begun || c.todo.any (fun r => leAt r 0 2 == 2 && leAt r 2 2 == n)))

/-- An engine whose update may start enters STATE 0x3, or waits for the checkpoint with HAL_CKSTAT.HOLD set (R485). -/
def State.enterApply (s : State) (n : Nat) : State :=
  if s.ckHolds n then (s.putEngine n { s.engine n with held := true }).ckHoldFlag
  else s.setFld (F.UPD_STAT_STATE n) 3

/-- The engines go on whose records no checkpoint awaits any more (R485). -/
def State.releaseEngines (s : State) : State :=
  (forEach ((List.range 8).filter (fun n => (s.engine n).held && !s.ckHolds n)) s
    (fun s n => (s.putEngine n { s.engine n with held := false }).setFld (F.UPD_STAT_STATE n) 3)).ckHoldFlag

/-- An engine takes the norm and the clip factor and starts to apply (R347 steps 3 and 4, R485). -/
def State.clipEngine (s : State) (gnorm kappa : W32) (n : Nat) : State :=
  let s := (s.setFld (F.UPD_GNORM_NORM n) gnorm.toNat).setFld (F.UPD_KAPPA_KAPPA n) kappa.toNat
  let s := if FVal.lt (ofFP32 kappa) (FVal.ofInt 1) then (s.event (F.UPD_EVT_CLIP n)).bump (F.UPD_CNT_CLIP_COUNT n) 1 else s
  s.enterApply n

/-- CLIP at this device. The step root sends a step's CLIP before its OUTCOME, and their flow keeps that order (R437): none
comes after the step's veto. -/
def State.clip (s : State) (gnorm kappa : W32) : State :=
  forEach (s.ownEngines.filter (fun n => s.fld (F.UPD_STAT_STATE n) == 2 && !(s.engine n).held)) s
    (fun s n => s.clipEngine gnorm kappa n)

/-- The norm at the step root once the root pair is formed (R343). -/
def State.formNorm (s : State) (step : Nat) (v : Node) : State :=
  let p := policyOf s.chart.rnp
  let n2 := ofFP32 v.hi
  if !n2.isFinite || v.sat then s.vetoCause step 2
  else
    let g := ((fsqrt p n2).run 0).1
    let c := ofFP32 s.chart.clip
    let k := if FVal.lt c g then ((fdiv p c g).run 0).1 else FVal.ofInt 1
    let s := s.toAll 0x04 step (leBytes 4 (fp32Bits g).toNat ++ leBytes 4 (fp32Bits k).toNat)
    s.clip (fp32Bits g) (fp32Bits k)

/-- Contributions that are complete here go up the tree; at the root the norm is formed (R341, R343). -/
def State.advanceNorm (s : State) (step : Nat) : State :=
  let t := treeOf s.treeC step
  let up := s.nodesUp t
  let t : STree := { t with sent := t.sent ++ up.map (·.1) }
  let s : State := { s with treeC := putTree s.treeC step t }
  let s := forEach up s (fun s q => s.sendCtrl q.2.1 0x01 step
    (leBytes 4 q.1 ++ leBytes 4 q.2.2.hi.toNat ++ leBytes 4 q.2.2.lo.toNat ++ leBytes 1 (b2n q.2.2.sat) ++ zeros 3))
  if t.sent.contains 0 then s
  else match s.treeRoot t with
    | some v => { s with treeC := putTree s.treeC step { t with sent := 0 :: t.sent } }.formNorm step v
    | none => s

/-- Saturations counted by an engine (R107). -/
def State.updSats (s : State) (n k : Nat) : State :=
  if k = 0 then s else (s.bump (F.UPD_CNT_SAT_COUNT n) k).event (F.UPD_EVT_SAT n)

/-- An engine's complete shards that some work of the step has still to reach. -/
def State.shardsLeft (s : State) (n : Nat) (done : List Nat) : List ShardAt :=
  (s.shardsAt n).filter (fun y => lookup (fun _ => 0) (s.engine n).got y.num == y.shard.length && !done.contains y.num)

/-- Every shard of an engine is in a list. -/
def State.allShards (s : State) (n : Nat) (done : List Nat) : Bool := (s.shardsAt n).all (fun y => done.contains y.num)

/-- A complete shard's contribution (R342), or with C = 0 the start of its own update (R344). -/
def State.shardComplete (s : State) (n step : Nat) (x : ShardAt) : State :=
  if (ofFP32 s.chart.clip).isZero then
    if s.fld (F.UPD_STAT_STATE n) = 3 then s else s.enterApply n
  else
    let s := if (s.shardsLeft n []).length = (s.shardsAt n).length then s.setFld (F.UPD_STAT_STATE n) 2 else s
    let (v, k) := s.shardNorm x
    let s := s.updSats n k
    let node : Node := { hi := fp32Bits v.1, lo := fp32Bits v.2, sat := k != 0 }
    { s with treeC := putTree s.treeC step ((treeOf s.treeC step).put x.num node) }.advanceNorm step

/-- SEGMENT_DELIVERY (R373, R376, R342): the root segment of a shard at an offset goes into the owner's G; one of a step
whose outcome the engine has handled is discarded (R347 step 6b), and one of a later step is held. -/
def execSegmentDelivery (shard offset : Nat) (s : State) : Outcome :=
  act s fun s =>
    let l := clog2 s.chart.replicas
    match s.fre.slots.find? (fun x => x.own && x.level == l && x.shard == shard && x.offset == offset) with
    | none => s
    | some q =>
      let n := (s.chart.shards.getD shard {}).engine
      match (s.shardsAt n).find? (fun x => x.num == shard) with
      | none => s
      | some x =>
        if (s.engine n).handled < q.step then s
        else if q.step < (s.engine n).handled then { s with fre := { s.fre with slots := s.fre.slots.filter (· != q) } }
        else
          let s : State := { s with fre := { s.fre with slots := s.fre.slots.filter (· != q) } }
          let s := s.freFlags q.svf q.sat
          let s := s.bumpPair F.FRE_CNT_SEG_LO_COUNT F.FRE_CNT_SEG_HI_COUNT 1
          let s := if q.svf then s.bump F.FRE_CNT_SVF_COUNT 1 else s
          let s := s.putMem (x.area 10 + 4 * offset) (q.vals.flatMap (fun w => leBytes 4 w.toNat))
          let s := if s.fld (F.UPD_STAT_STATE n) = 0 then s.setFld (F.UPD_STAT_STATE n) 1 else s
          let s := if q.sat then (s.bump (F.UPD_CNT_SAT_COUNT n) 1).event (F.UPD_EVT_SAT n) else s
          let e := s.engine n
          let s := if q.svf && !e.vreq then
              ((s.putEngine n { e with vreq := true }).event F.FRE_EVT_VREQ).toRoot 0x05 q.step
                (leBytes 1 1 ++ zeros 3 ++ leBytes 4 shard ++ leBytes 2 s.devNum ++ zeros 2)
            else s
          let e := s.engine n
          let got := lookup (fun _ => 0) e.got shard + q.vals.length
          let s := s.putEngine n { e with got := store (fun _ => 0) e.got shard got }
          if got = x.shard.length then s.shardComplete n q.step x else s

/-- CONTRIB (R341, R343): a contribution of the node whose span starts at a shard reaches its parent; one of a step whose
outcome was handled is discarded. -/
def execContrib (step span : Nat) (hi lo : W32) (sat : Bool) (s : State) : Outcome :=
  act s fun s =>
    if step < s.job.handled then s
    else { s with treeC := putTree s.treeC step ((treeOf s.treeC step).put span { hi, lo, sat }) }.advanceNorm step

/-- CLIP_MESSAGE (R343, R347): the global norm and the clip factor arrive. -/
def execClipMessage (gnorm kappa : W32) (s : State) : Outcome := act s fun s => s.clip gnorm kappa

/-! ### Applying (R337 to R340, R345) -/

/-- The job uses trust-ratio (R339). -/
def Charter.usesTrust (c : Charter) : Bool := c.groups.any (fun g => g.opt == 2)

/-- The group of a layer (R392). -/
def Charter.layerGroup (c : Charter) (l : Nat) : Group :=
  c.groups.getD (((c.layers.find? (fun y => y.id == l)).map (·.group)).getD 0) {}

/-- φ of a layer from its summed pairs, and whether it reached φmax (R339). -/
def Charter.layerPhi (c : Charter) (q : LayerSums) : Cnt (FVal × Bool) :=
  let g := c.layerGroup q.layer
  trustPhi (policyOf (g.flags.testBit 1)) (ofFP32 g.phimax) (ofFP32 q.a.1) (ofFP32 q.b.1)

/-- What a shard's update needs on an engine: κ, 1.0 where no barrier runs (R344), the step of R334, the constants, φ by layer. -/
def State.updCtx (s : State) (n : Nat) (x : ShardAt) : UpdCtx :=
  let e := s.engine n
  let (consts, constSats) := s.shardConsts x
  let kappa := if (ofFP32 s.chart.clip).isZero then FVal.ofInt 1
    else ofFP32 (BitVec.ofNat 32 (s.fld (F.UPD_KAPPA_KAPPA n)))
  { kappa, step := e.handled, consts, constSats,
    phi := fun l =>
      match e.trust.find? (fun q => q.layer == l) with
      | some q =>
        ((s.chart.layerPhi q).run 0).1.1
      | none => FVal.ofInt 1 }

/-- Trust sums that are complete here go up the tree; from the root they go down again (R339). -/
def State.trustDown (s : State) (step : Nat) (ls : List LayerSums) : State :=
  forEach (s.ownEngines.filter (fun n => s.fld (F.UPD_STAT_STATE n) == 4 && (s.engine n).handled == step)) s (fun s n =>
    let mine := ls.filter (fun q => (s.chart.layerGroup q.layer).opt == 2
      && (s.shardsAt n).any (fun x => (List.range x.shard.length).any (fun i =>
          s.chart.layerOf (x.shard.first + i) == q.layer)))
    let (phis, sats) := (mine.mapM s.chart.layerPhi).run 0
    let s := s.putEngine n { s.engine n with trusted := true, trust := ls }
    (s.setFld (F.UPD_STAT_STATE n) 3).bump (F.UPD_CNT_TRUSTCLAMP_COUNT n) (phis.filter (·.2)).length |>.updSats n sats)

/-- Devices of the nodes directly below this device's nodes in the scalar tree. -/
def State.treeChildren (s : State) : List Nat :=
  ((List.range s.chart.shards.length).filterMap (fun f =>
    if f = 0 then none
    else
      let dev := s.shardDevice f
      if dev != s.devNum && s.shardDevice (f - 2 ^ ctz 32 f) == s.devNum then some dev else none)).eraseDups

/-- The sums of the whole job taken here and passed to the nodes below (R339). -/
def State.trustPassDown (s : State) (step : Nat) (ls : List LayerSums) : State :=
  let s := forEach s.treeChildren s (fun s d => forEach (layerParts ls) s (fun s p =>
    s.sendCtrl d 0x03 step (leBytes 1 p.1 ++ zeros 3 ++ layerBytes p.2)))
  s.trustDown step ls

/-- Trust sums that are complete here go up; the root turns them round (R339). -/
def State.advanceTrust (s : State) (step : Nat) : State :=
  let t := treeOf s.treeT step
  let up := s.nodesUp t
  let t : STree := { t with sent := t.sent ++ up.map (·.1) }
  let s : State := { s with treeT := putTree s.treeT step t }
  let s := forEach up s (fun s q => forEach (layerParts q.2.2.layers) s (fun s p =>
    s.sendCtrl q.2.1 0x03 step (leBytes 1 p.1 ++ zeros 3 ++ layerBytes p.2)))
  if t.sent.contains 0 then s
  else match s.treeRoot t with
    | some v => { s with treeT := putTree s.treeT step { t with sent := 0 :: t.sent } }.trustPassDown step v.layers
    | none => s

/-- TRUST_PASS_ONE_COMPLETE (R339): an engine ends pass 1 over its complete shards, and over the last waits at the trust
barrier. -/
def execTrustPassOneComplete (n : Nat) (s : State) : Outcome :=
  act s fun s =>
    let e := s.engine n
    let step := e.handled
    if s.fld (F.UPD_STAT_STATE n) = 3 && s.chart.usesTrust && !e.trusted then
      let xs := s.shardsLeft n e.passed
      let passed := e.passed ++ xs.map (·.num)
      let s := forEach xs s (fun s x =>
        let (s, ls, sats) := s.trustPass x (s.updCtx n x)
        let s := s.updSats n sats
        { s with treeT := putTree s.treeT step ((treeOf s.treeT step).put x.num { layers := ls }) })
      let s := s.putEngine n { s.engine n with passed }
      (s.setFld (F.UPD_STAT_STATE n) (if s.allShards n passed then 4 else 1)).advanceTrust step
    else s

/-- TRUST (R339, R375): a part of a trust-barrier list, going up from the node that starts at a shard, or down. -/
def execTrust (step : Nat) (down : Bool) (span part : Nat) (layers : List LayerSums) (s : State) : Outcome :=
  act s fun s =>
    if step < s.job.handled then s
    else
      let key := if down then 2 ^ 32 else span
      let (whole, t) := (treeOf s.treeT step).part key part layers
      let s : State := { s with treeT := putTree s.treeT step t }
      match whole with
      | none => s
      | some ls =>
        if down then s.trustPassDown step ls
        else { s with treeT := putTree s.treeT step (t.put span { layers := ls }) }.advanceTrust step

/-- The layers of the charter in ascending identifier (R353). -/
def Charter.layerIds (c : Charter) : List Nat := (c.layers.map (·.id)).mergeSort (· ≤ ·)

/-- Every layer's ratio, in ascending identifier (R353, R375): +0 for a layer without parameters, whose sums are zero. -/
def Charter.ratios (c : Charter) (ls : List LayerSums) : List (Nat × W32) :=
  c.layerIds.map (fun l => (l, ((ls.find? (fun q => q.layer == l)).map (ratioOf (policyOf c.rnp))).getD 0))

/-- Reports that are complete here go up; the root judges them (R346, R375, R379). -/
def State.advanceReports (s : State) (step : Nat) : State :=
  let t := treeOf s.treeR step
  let up := s.nodesUp t
  let t : STree := { t with sent := t.sent ++ up.map (·.1) }
  let s : State := { s with treeR := putTree s.treeR step t }
  let s := forEach up s (fun s q => forEach (layerParts q.2.2.layers) s (fun s p =>
    s.sendCtrl q.2.1 0x02 step (leBytes 1 q.2.2.status ++ leBytes 1 p.1 ++ zeros 2 ++ layerBytes p.2)))
  if t.sent.contains 0 then s
  else match s.treeRoot t with
    | some v =>
      let s : State := { s with treeR := putTree s.treeR step { t with sent := 0 :: t.sent } }
      if v.status != 0 then s.vetoCause step 3
      else s.issueOutcome { step, cause := 0 } (s.chart.ratios v.layers)
    | none => s

/-- UPDATE_APPLY_COMPLETE (R344, R345, R347 steps 4 and 5): an engine has written the pending slots of its complete
shards and sends their reports. -/
def execUpdateApplyComplete (n : Nat) (s : State) : Outcome :=
  act s fun s =>
    let e := s.engine n
    let step := e.handled
    if s.fld (F.UPD_STAT_STATE n) = 3 && (!s.chart.usesTrust || e.trusted) then
      let xs := s.shardsLeft n e.applied
      let applied := e.applied ++ xs.map (·.num)
      let s := forEach xs s (fun s x =>
        let (s, st, ls, sats) := s.writePending x (s.updCtx n x)
        let s := s.updSats n sats
        let s := if st = 0 then s else s.event (F.UPD_EVT_NONFIN n)
        let beats := (if s.chart.shardTrust x.shard then 2 else 1) * ceilDiv x.shard.length 128
        let s := s.bumpPair (F.UPD_CNT_BUSY_LO_COUNT n) (F.UPD_CNT_BUSY_HI_COUNT n) beats
        if e.vreq then s
        else { s with treeR := putTree s.treeR step ((treeOf s.treeR step).put x.num { status := st, layers := ls }) })
      let s := s.putEngine n { s.engine n with applied }
      let s := (s.setFld (F.UPD_STAT_STATE n) (if s.allShards n applied then 5 else 1)).setFlag (F.UPD_STAT_PEND n) true
      if e.vreq then s else s.advanceReports step
    else s

/-- REPORT (R346, R375): a part of a report of the node that starts at a shard reaches its parent. -/
def execReport (step span status part : Nat) (layers : List LayerSums) (s : State) : Outcome :=
  act s fun s =>
    if step < s.job.handled then s
    else
      let (whole, t) := (treeOf s.treeR step).part span part layers
      let s : State := { s with treeR := putTree s.treeR step t }
      match whole with
      | none => s
      | some ls => { s with treeR := putTree s.treeR step (t.put span { status, layers := ls }) }.advanceReports step

/-- VREQ (R377): a veto request reaches the step root. -/
def execVreq (step cause shard source : Nat) (s : State) : Outcome :=
  act s fun s =>
    let late : Bool := match s.issuedStep with
      | some t => decide (step ≤ t)
      | none => false
    if late then (s.bump F.FRE_CNT_LATE_COUNT 1).event F.FRE_EVT_LATE
    else s.issueOutcome { step, cause, dev := source, shard } []

/-- OUTCOME (R347, R378, R380): a commit or a veto reaches this device; a commit carries every layer's ratio in
ascending identifier. -/
def execOutcome (step : Nat) (veto : Bool) (cause : Nat) (ratios : List W32) (s : State) : Outcome :=
  act s fun s =>
    s.handleOutcome step (b2n veto) cause (List.zip s.chart.layerIds ratios)

/-- ACK (R381): a device's acknowledgement reaches the step root; the outcome that waited is issued. -/
def execAck (step source : Nat) (s : State) : Outcome :=
  act s fun s =>
    if s.issuedStep == some step then
      let s : State := { s with root := { s.root with acks := (source :: s.root.acks).eraseDups } }
      if s.allAcked then
        match s.root.wait with
        | some w =>
          let s : State := { s with root := { s.root with wait := none } }
          let t := treeOf s.treeR w.step
          if w.cause = 0 then
            { s with treeR := putTree s.treeR w.step { t with sent := t.sent.filter (· != 0) } }.advanceReports w.step
          else s.issueOutcome w []
        | none => s
      else s
    else s

/-- PARAMETER_MESSAGE (R383): a parameter-class message is delivered. A CRC failure was found by its hop (R433). -/
def execParameterMessage (payload : List Byte) (s : State) : Outcome :=
  act s fun s => if s.job.rolling.isSome then s else s.deliverParams payload

/-- FRE_CNT_CLR (R385): a write of 1 to FRE_CTRL.CNT_CLR. -/
def execFreCntClr (s : State) : Outcome :=
  hostReg R.FRE_CTRL s fun s => s.clearRegs (fun o => [R.FRE_CNT_SEG_LO, R.FRE_CNT_SEG_HI, R.FRE_CNT_SVF, R.FRE_CNT_SAT,
    R.FRE_CNT_SLOTWAIT, R.FRE_CNT_CRC, R.FRE_CNT_COMMIT, R.FRE_CNT_VETO, R.FRE_CNT_LATE, R.FRE_CNT_DUP].contains o)

end Sys2Proof.Machine
end

