-- ==== Sys2Proof/Machine/Sequence.lean ====
section
/-! DEFINITION. The step sequence (09_step_sequence.md): items, phases, boundaries and swaps; feeds; the READY exchange
and job start; the events ITEM_SELECT, PHASE_CHANGE, HALF_DRAINED, STEP_BOUNDARY, FEED_DESCRIPTOR_COPY, PN4_IMAGE_BUILD
and READY.
-/

namespace Sys2Proof.Machine

/-- GROUP_RELOAD (R283): a spilled group is back in the record area; a command that waited for it goes on. -/
def execGroupReload (t acc : Nat) (s : State) : Outcome := act s fun s => (s.reload t acc).rerun t

/-! ### Readiness (R291, R299, R479) -/

/-- Placements of this stage. -/
def State.myPlacements (s : State) : List Placement := s.chart.arrays.filter (fun p => p.stage == s.stage)

/-- The bytes of a micro-batch's inbound messages. -/
def State.inboundBytes (s : State) (back : Bool) (n : Nat) : Nat :=
  (((s.inbound back).filter (fun m => m.mb == n)).map (fun m => m.bytes.length)).sum

/-- The inputs of an item's first command are present (R291, R479): the feeds that fill its tensors have filled their slots,
and the inbound queue holds what it reads. -/
def State.inputsHere (s : State) (back : Bool) (n : Nat) : Bool :=
  match (s.templates (if back then 2 else 1)).head? with
  | some (op, c) => s.feedsFilled op c n && decide (s.inputNeed op c back ≤ s.inboundBytes back n)
  | none => true

/-- An array of the stage has not finished its start-up rewrite of bank 0 (R407). -/
def State.startupWait (s : State) : Bool := s.myPlacements.any (fun p => (s.arr p.tile p.array).startup)

/-- The next F item is ready (R291). -/
def State.readyF (s : State) : Bool :=
  let n := s.job.nextF
  decide (n < s.chart.micro) && s.inputsHere false n && s.stashFits 0 && s.stashFits 1 && !s.startupWait

/-- The next B item is ready (R290, R291). -/
def State.readyB (s : State) : Bool := decide (s.job.nextB < s.job.nextF) && s.inputsHere true s.job.nextB

/-- The place of the n-th item of a kind in a stage's schedule order. -/
def orderPos (kind : Nat) : Nat → Nat → List Nat → Nat
  | i, _, [] => i
  | i, n, k :: ks =>
    if k = kind then (if n = 0 then i else orderPos kind (i + 1) (n - 1) ks) else orderPos kind (i + 1) n ks

/-- The charter's schedule order runs the next F item before the next B item (R292). -/
def State.forwardFirst (s : State) : Bool :=
  let q := (s.chart.order.filter (fun o => o.1 == s.stage)).map (·.2)
  decide (orderPos 1 0 s.job.nextF q < orderPos 2 0 s.job.nextB q)

/-- The cause of the bubble where neither item is ready (R304). -/
def State.idleCause (s : State) : Nat :=
  let n := s.job.nextF
  if decide (n < s.chart.micro) && s.inputsHere false n then
    if !(s.stashFits 0 && s.stashFits 1) then 2 else if s.startupWait then 4 else 1
  else 1

/-! ### Watchers (R315 to R317) -/

/-- A watcher's state. -/
def State.watchOf (s : State) (i : Nat) : WatchState := lookup (fun _ => {}) s.job.watch i
/-- A watcher's state replaced. -/
def State.putWatch (s : State) (i : Nat) (w : WatchState) : State :=
  { s with job := { s.job with watch := store (fun _ => {}) s.job.watch i w } }

/-- A sum of squares in FP32, in the order given (R315). -/
def squares (acc : FVal) (vs : List FVal) : FVal :=
  vs.foldl (fun a v => ((do fadd .saturate a (← fmul .saturate v v) : Cnt FVal).run 0).1) acc

/-- The true values of a layer's forward output of the item that ran, by tile, in row-major order (R315). -/
def State.layerOutput (s : State) (layer : Nat) : List (Nat × List FVal) :=
  let rows := outputRows (s.templates 1) layer
  let ts := ((rows.map (·.1)).eraseDups).mergeSort (· ≤ ·)
  ts.map (fun t => (t, (rows.filter (fun o => o.1 == t)).flatMap (fun o =>
    ((s.job.layerOut.find? (fun v => v.1 == o)).map (·.2)).getD [])))

/-- A list of sums added in their order (R301). -/
def addAll (vs : List FVal) : FVal := vs.foldl (fun a v => ((fadd .saturate a v).run 0).1) FVal.zero

/-- The output watchers after an F item: the micro-batch's sum joins the step's (R315). -/
def State.watchOutputs (s : State) : State :=
  forEach (s.chart.watchers.zipIdx.filter (fun w => w.1.kind == 0)) s (fun s (w : Watcher × Nat) =>
    let vs := s.layerOutput w.1.layer
    let x := addAll (vs.map (fun v => squares FVal.zero v.2))
    let st := s.watchOf w.2
    let sum := ((fadd .saturate (ofFP32 st.sum) x).run 0).1
    s.putWatch w.2 { st with sum := fp32Bits sum, n := st.n + (vs.map (fun v => v.2.length)).sum })

/-- A gradient buffer element of a parameter. -/
def State.gradOf (s : State) (param : Nat) : FVal :=
  match s.gradRegion with
  | some g => ofFP32 (BitVec.ofNat 32 (leNat (s.memBytes (g.addr + 4 * s.gradPlace param) 4)))
  | none => FVal.zero

/-- Tiles that hold a layer's arrays. -/
def State.layerTiles (s : State) (layer : Nat) : List Nat :=
  (((s.myPlacements.filter (fun p => p.layer == layer)).map (·.tile)).eraseDups).mergeSort (· ≤ ·)

/-- The parameters of a layer that a tile's arrays hold, in row-major order: by output of the layer, then by input (R315,
R400). -/
def State.tileParams (s : State) (layer t : Nat) : List Nat :=
  let all := (s.myPlacements.filter (fun p => p.layer == layer && p.tile == t)).flatMap (fun p =>
    (List.range p.cols).flatMap (fun j => (List.range p.rows).map (fun i =>
      (2 ^ 32 * (p.coloff + j) + (p.rowoff + i), p.pbase + p.rows * j + i))))
  (all.mergeSort (fun a b => a.1 ≤ b.1)).map (·.2)

/-- The gradient watchers after B(m − 1): the norm of the layer's slice (R315), by tile, then the parameters that no
array holds. -/
def State.watchGradients (s : State) : State :=
  forEach (s.chart.watchers.zipIdx.filter (fun w => w.1.kind == 1)) s (fun s (w : Watcher × Nat) =>
    let tiles := (s.layerTiles w.1.layer).map (fun t => squares FVal.zero ((s.tileParams w.1.layer t).map s.gradOf))
    let mems := (s.chart.tensors.filter (fun x => x.param && x.stage == s.stage && x.layer == w.1.layer)).map (fun x =>
      squares FVal.zero ((List.range (x.rows * x.rowlen)).map (fun i => s.gradOf (x.pbase + i))))
    let st := s.watchOf w.2
    s.putWatch w.2 { st with sum := fp32Bits (addAll (tiles ++ mems)), n := 1 })

/-- A watcher's event (R317): cause 1 jump, 2 non-finite. -/
def State.watchEvent (s : State) (i cause : Nat) (w : Watcher) (x mu : W32) : State :=
  let s := (s.bump F.HUB_CNT_WATCH_COUNT 1).event F.HUB_STEPEVT_WATCH
  let s := if s.job.watched then s
    else { s with job := { s.job with watched := true } }.wr R.HUB_WCHFIRST (pack [(10, cause), (0, i)])
  let s := s.stewardRecord (256 * s.ens.half) 0x11 w.layer
    (leBytes 2 i ++ leBytes 1 cause ++ zeros 1 ++ leBytes 4 x.toNat ++ leBytes 4 mu.toNat)
  if w.action = 1 then
    forEach (s.layerTiles w.layer) s (fun s t => s.wantRed t w.steps)
  else if w.action = 2 then forEach (s.layerTiles w.layer) s (fun s t => s.requestTest t 5 0 0 0 0 none)
  else s

/-- A watcher at a step boundary (R316). -/
def State.watchStep (s : State) (i : Nat) (w : Watcher) : State :=
  let st := s.watchOf i
  let p := Policy.saturate
  let sum := ofFP32 st.sum
  let x := if w.kind = 1 then ((fsqrt p sum).run 0).1
    else if st.n = 0 then FVal.zero
    else ((do fsqrt p (← fdiv p sum (← toFP32 p (FVal.ofInt st.n))) : Cnt FVal).run 0).1
  let mu := ofFP32 st.mu
  let f := ofFP32 w.factor
  if !x.isFinite then
    (s.watchEvent i 2 w (fp32Bits x) st.mu).putWatch i { st with sum := 0, n := 0 }
  else
    let jump := decide (w.warmup ≤ st.count)
      && (FVal.lt ((fmul p f mu).run 0).1 x || FVal.lt ((fmul p x f).run 0).1 mu)
    let s := if jump then s.watchEvent i 1 w (fp32Bits x) st.mu else s
    let mu' := ((do
      let d ← fsub p x mu
      fadd p mu (← fldexp p d (-(w.shift : Int))) : Cnt FVal).run 0).1
    s.putWatch i { mu := fp32Bits mu', count := min 255 (st.count + 1), sum := 0, n := 0 }

/-! ### Items (R290 to R294) -/

/-- The kind of an item as HUB_STEPSTAT and the templates code it. -/
def Phase.kind : Phase → Nat
  | .forward => 1
  | .backward => 2

/-- The loss of the item's micro-batch (R278): the tiles' losses added in ascending tile. -/
def State.itemLoss (s : State) : State :=
  if s.job.lossTile.isEmpty then s
  else
    let v := ((pairSum .saturate Pair.zero (s.job.lossTile.map (fun e => ofPairBits e.2))).run 0).1
    { s with job := { s.job with losses := s.job.losses ++ [pairBits v], lossTile := [] } }

/-- The running item completes once its last command has (R290). -/
def State.completeItem (s : State) : State :=
  if !s.job.left.isEmpty then s
  else match s.job.item with
    | some (.forward, n, t0) =>
      let s := (s.setFld F.HUB_FTIME_TIME (s.osc - t0)).itemLoss.watchOutputs
      let s := (s.stashShrink 0 n).stashShrink 1 n
      { s with job := { s.job with item := none, nextF := n + 1 } }
    | some (.backward, n, t0) =>
      let s := s.setFld F.HUB_BTIME_TIME (s.osc - t0)
      let s := (s.stashRelease 0 n).stashRelease 1 n
      let s := if n + 1 = s.chart.micro then
          let rest := s.allBuckets.filter (fun b => !s.fre.full.any (fun q => q.1 == s.step && q.2 == b))
          let rest := rest.filter (fun b => !(s.templates 2).any (fun q => (s.addsInto q.1 q.2).contains b))
          let rest := if s.step < s.job.handled then [] else rest
          ({ s with fre := { s.fre with full := s.fre.full ++ rest.map (fun b => (s.step, b)) } } : State).watchGradients
        else s
      { s with job := { s.job with item := none, nextB := n + 1 } }
    | none => s

/-- A template's group (R273): the accession number of the item's forward command whose template carries, in its ACCESSION
field, the number in the template's bytes 44 to 51. DESIGN CHOICE: the spec states no way for a template to name a command
that has its number only at run time (log 76). -/
def State.groupOf (s : State) (n : Nat) (g : Nat) : Option Nat :=
  match s.job.bases.find? (fun b => b.1 == n), (s.templates 1).findIdx? (fun q => q.2.acc == g) with
  | some b, some i => some ((0x1000 + s.job.ctx) * 2 ^ 48 + (b.2 + i) % 2 ^ 48)
  | _, _ => none

/-- A template as the item of micro-batch n issues it, with its accession number. -/
def State.issue (s : State) (n : Nat) (acc : Nat) (q : Nat × TileCmd) : Nat × TileCmd :=
  let c := { q.2 with acc }
  if q.1 = 0x43 && (c.sel == 3 || c.sel == 4 || c.sel == 5) then
    match s.groupOf n q.2.group with
    | some g => (q.1, { c with r0 := g % 2 ^ 32, nr := g / 2 ^ 32 })
    | none => (q.1, c)
  else (q.1, c)

/-- An item starts (R290, R292, R298): its commands are issued with their accession numbers (R466). -/
def State.startItem (s : State) (ph : Phase) (n : Nat) : State :=
  let back := ph == .backward
  let s : State := { s with job := { s.job with inLoaded := 0, outSent := 0, layerOut := [] } }
  let s := (s.endBubble.loadIn back n).setFlag F.HUB_STEPSTAT_ITEM back
  let s := s.setFld F.HUB_STEPSTAT_MB n
  let s := if back then s else (s.stashReserve 0 n).stashReserve 1 n
  let q := s.templates ph.kind
  let acc (i : Nat) : Nat := (0x1000 + s.job.ctx) * 2 ^ 48 + (s.job.issued + i) % 2 ^ 48
  let left := q.mapIdx (fun i o => s.issue n (acc i) o)
  let bases := if back then s.job.bases else s.job.bases ++ [(n, s.job.issued)]
  { s with job := { s.job with item := some (ph, n, s.osc), want := none, left, bases, issued := s.job.issued + q.length } }

/-- A Steward holds the token, and nothing keeps the ensign from ordering work (R43, R408, R503, R521, R589, R591). -/
def State.mayOrder (s : State) : Bool :=
  s.ens.up != 0 && s.job.running && s.job.starting.isNone && !s.job.stopItems && !s.job.halted && s.job.rolling.isNone
    && !s.flag F.GOV_STAT_TRIP && s.power.short.isNone

/-- Items may be issued: no boundary is held after a recovery (R593). -/
def State.mayIssue (s : State) : Bool := s.mayOrder && !s.job.oweSwap && !s.job.resumed

/-- The next item selected (R292): it starts, or a phase change is ordered first, or the device idles in a bubble. -/
def State.selectItem (s : State) : State :=
  if !s.mayIssue || s.job.item.isSome || s.job.want.isSome then s
  else
    let pick : Option (Phase × Nat) :=
      if s.readyF && s.readyB then some (if s.forwardFirst then (.forward, s.job.nextF) else (.backward, s.job.nextB))
      else if s.readyF then some (.forward, s.job.nextF)
      else if s.readyB then some (.backward, s.job.nextB)
      else none
    match pick with
    | some (ph, n) =>
      if s.fld F.HUB_STEPSTAT_PHASE = ph.kind then s.startItem ph n
      else { s with job := { s.job with want := some (ph, n) } }
    | none => if s.job.nextB < s.chart.micro then s.startBubble s.idleCause else s

/-- PHASE_CHANGE (R293 step 1): the ensign orders both Stewards to close the phase. -/
def execPhaseChange (s : State) : Outcome :=
  act s fun s =>
    if s.mayIssue && s.job.want.isSome && s.job.item.isNone && s.fld F.HUB_STEPSTAT_PHASE != 3 then
      { s with job := { s.job with drained := 0 } }.setFld F.HUB_STEPSTAT_PHASE 3
    else s

/-- The new phase opens in both halves together (R293 steps 3 and 5). -/
def State.openPhase (s : State) (ph : Phase) (n : Nat) : State :=
  let s : State := { s with job := { s.job with phase := ph, drained := 0 } }
  let s := (s.setFld F.HUB_STEPSTAT_PHASE ph.kind).bump F.HUB_CNT_PHASE_COUNT 1
  let s := if ph == .backward then s.resumePrg
    else forEach s.myPlacements s (fun s p => s.suspendPrg p.tile p.array)
  (s.startItem ph n).rerunAll

/-- The ensign orders the new phase once both halves are drained and it may order work (R43, R293). -/
def State.reopen (s : State) : State :=
  match s.job.want with
  | some (ph, n) =>
    if s.fld F.HUB_STEPSTAT_PHASE = 3 && s.job.drained == 3 && s.mayOrder then s.openPhase ph n else s
  | none => s

/-- ITEM_SELECT (R292): an item completes or one becomes ready. -/
def execItemSelect (s : State) : Outcome := act s fun s => s.completeItem.selectItem.reopen

/-- HALF_DRAINED (R293): a Steward reports its half drained. -/
def execHalfDrained (half : Nat) (s : State) : Outcome :=
  act s fun s =>
    if s.job.want.isSome && s.fld F.HUB_STEPSTAT_PHASE == 3 then
      ({ s with job := { s.job with drained := s.job.drained ||| 2 ^ (half % 2) } } : State).reopen
    else s

/-! ### The boundary's holds (R181, R182, R570) -/

/-- A bank's rewrite is done and its image formed (R181, R314): nothing more is awaited of the idle bank. -/
def State.bankReady (s : State) (p : Placement) : Bool :=
  let t := p.tile
  let a := p.array
  let x := s.arr t a
  let k := x.bank (1 - s.active t a)
  let image := ((s.chart.layers.find? (fun l => l.id == p.layer)).map (·.dgmode)).getD 0 != 1 || k.imaged
  if s.dfwd || x.condemned then !k.awaited && image
  else s.prgState t a == 4 && !k.fresh && !k.awaited && image

/-- Outcome of a step handled at this device. -/
def State.outcomeOf (s : State) (u : Nat) : Bool :=
  decide (u < s.job.handled)

/-- A STOP command is due at the boundary that closes a step (R472). -/
def State.stopDue (s : State) (u : Nat) : Bool :=
  match s.job.stop with
  | some (_, none) => true
  | some (_, some v) => decide (v ≤ u)
  | none => false

/-- What the boundary that closes step u waits for is here (R180 to R182, R472). -/
def State.boundaryReady (s : State) (u : Nat) : Bool :=
  let out := if s.chart.lag1 then u == s.job.first || s.outcomeOf (u - 1) else s.outcomeOf u
  out && (!s.stopDue u || s.outcomeOf u) && s.myPlacements.all s.bankReady

/-- The hold of R181 or R182 ends: under LAG1 its length is added (R182). -/
def State.endHold (s : State) : State :=
  let s := s.endBubble.setFlag F.HUB_PRGSTAT_HOLD false
  match s.job.hold with
  | some t =>
    let s : State := { s with job := { s.job with hold := none } }
    if s.chart.lag1 then s.bumpPair F.HUB_HOLDTIME_LO_TIME F.HUB_HOLDTIME_HI_TIME (s.osc - t) else s
  | none => s

/-- The boundary is held (R181, R182, R304), banks says that a bank is ready or not: a bubble of cause boundary, and
HUB_PRGSTAT.HOLD. Under LAG1 a bank that is not ready makes it an overrun; a boundary whose banks are ready and that waits for a
STOP's outcome is none. -/
def State.holdBoundary (s : State) (banks : Bool) : State :=
  if s.chart.lag1 && banks then s.endHold
  else
    let s := (s.startBubble 4).setFlag F.HUB_PRGSTAT_HOLD true
    if s.job.hold.isSome then s
    else
      let s : State := { s with job := { s.job with hold := some s.osc } }
      if s.chart.lag1 then s.bump F.HUB_CNT_HOLD_COUNT 1 else s

/-- An array's active bank is ready after a recovery (R593): no re-verify of it is owed, and no rewrite of it runs. -/
def State.activeReady (s : State) (p : Placement) : Bool :=
  let x := s.arr p.tile p.array
  let st := s.prgState p.tile p.array
  !x.reverify && (st == 0 || st == 4 || x.rew.bank != s.active p.tile p.array)

/-- A recovery's boundary is held until the active banks are ready (R593, under R181 or R182); an owed swap waits in its own
way. -/
def State.holdResumed (s : State) : State :=
  if s.job.oweSwap || s.myPlacements.all s.activeReady then s
  else ({ s with job := { s.job with resumed := true } } : State).holdBoundary false

/-- The boundary is held for tests in STOP mode (R570); those that waited for it run. -/
def State.holdTests (s : State) (ts : List Nat) : State :=
  let s := forEach ts s (fun s t => if s.fld (F.TIL_TESTSTAT_STATE t) = 1 then s.setFld (F.TIL_TESTSTAT_STATE t) 2 else s)
  if s.job.testHold.isSome then s
  else { s with job := { s.job with testHold := some s.osc } }.bump F.HUB_CNT_TESTHOLD_COUNT 1

/-! ### What a boundary does -/

/-- The tensors that a veto cuts at the boundary that closes step u (R311): those flagged in the vetoed step, which is u
under WAIT and u − 1 under LAG1. -/
def State.vetoCuts (s : State) (u : Nat) : List Nat :=
  let svf := (s.job.uses.filter (fun e => e.2.svf)).map (·.1)
  if s.chart.lag1 then (if s.job.vetoed.any (fun v => v + 1 == u) then s.job.svfPrev else [])
  else if s.job.vetoed.contains u then svf else []

/-- Scale records of the tensors that the closing step wrote, and of those that a veto cuts (R309 to R311). -/
def State.scaleBoundary (s : State) (u : Nat) : State :=
  let svf := (s.job.uses.filter (fun e => e.2.svf)).map (·.1)
  let cuts := s.vetoCuts u
  let s := forEach ((s.job.uses.filter (fun e => e.2.written)).map (·.1) ++ cuts).eraseDups s (fun s id =>
    match s.tensor id, s.scaleAddr id with
    | some x, some a =>
      let r := s.scaleRec id
      let w := s.use id
      if scaleOk r then
        let (r', fell) := if w.written then scaleUpdate r w.amax (w.cut || cuts.contains id) x.desc u else scaleCut r u
        let s := s.putMem a r'
        if fell then (s.bump F.HUB_CNT_SCALECUT_COUNT 1).event F.HUB_STEPEVT_CUT else s
      else s
    | _, _ => s)
  { s with job := { s.job with uses := [], svfPrev := svf, vetoed := s.job.vetoed.filter (fun v => decide (u ≤ v)) } }

/-- The gain entries of columns that clipped under a float input, in both banks (R310). -/
def State.gainBoundary (s : State) (t a : Nat) : State :=
  let cols := (s.arr t a).clipped
  let s := forEach cols s (fun s j =>
    let lower (s : State) (b : Nat) : State :=
      let c := s.physCol t a b j
      let r := if b = 0 then R.ARR_GAIN0 t a (c / 16) else R.ARR_GAIN1 t a (c / 16)
      let g := s.gainCode t a b c
      if g = 0 then s else s.wr r (putBits (s.rd r) (2 * (c % 16) + 1) (2 * (c % 16)) (g - 1))
    let any := (List.range 2).any (fun b => s.gainCode t a b (s.physCol t a b j) != 0)
    let s := lower (lower s 0) 1
    if any then s.bump (F.ARR_CNT_GAINCUT_COUNT t a) 1 else s)
  s.putArr t a { s.arr t a with clipped := [] }

/-- The spares that a rewrite has programmed go LIVE at the boundary, DEAD ones apart (R196), and the changed entries are
recorded (R558). -/
def State.sparesLive (s : State) (t a b : Nat) : State :=
  let x := s.arr t a
  let k := x.bank b
  let live := k.spareReady.filter (fun n => !bit (s.remapEntry t a b n) 29)
  let s := s.putArr t a (x.setBank b { k with spareReady := [] })
  let s := forEach live s (fun s n => s.putRemap t a b n (putBits (s.remapEntry t a b n) 30 30 1))
  if live.isEmpty then s else s.saveRemap t a b

/-- An array's swap (R184, R147, R196, R551): the former idle bank becomes active. In digital forward mode only the digital
copy that is current changes (R188). -/
def State.swapArray (s : State) (t a : Nat) : State :=
  let b := 1 - s.active t a
  let s := s.setFld (F.ARR_STAT_ACTIVE t a) b
  if s.dfwd then s
  else
    let s := if s.fld (F.ARR_CALSTAT_STATE t a) = 2 then s.applyTrims t a b
      else
        let q := s.fld (F.ARR_QCALI_QCAL t a)
        (s.setFld (F.ARR_QCALI_QCAL t a) (s.fld (F.ARR_QCAL_QCAL t a))).setFld (F.ARR_QCAL_QCAL t a) q
    let s := s.setFld (F.ARR_QAVG_QAVG t a) (s.fld (F.ARR_QCAL_QCAL t a))
    let s := ((s.endRewrite t a).sparesLive t a 0).sparesLive t a 1
    let x := s.arr t a
    let back := x.out && x.passed && !x.condemned && (x.bank b).unspared.isEmpty && (s.placement t a).isSome
    let s := s.putArr t a { x with out := x.out && !back, passed := x.passed && !back, cover := [] }
    let s := if back then s.setFlag (F.ARR_STAT_INSVC t a) true else s
    s.activeFactors t a

/-- The columns that the DPA covers in every array from here on, and the budgets of the banks that are active (R196, R226). -/
def State.coverAll (s : State) : State :=
  forEach allArrays s (fun s k => (s.startCover k.1 k.2 (s.coverCols k.1 k.2)).budget k.1 k.2)

/-- The bank swap at a boundary in every array of the device (R184, R40), with the copies that a veto left for it (R378). -/
def State.swapAll (s : State) : State :=
  let s := forEach allArrays { s with ens := { s.ens with swapDue := none } } (fun s k => s.swapArray k.1 k.2)
  let s := if s.job.copyDue then ({ s with job := { s.job with copyDue := false } } : State).copyCopies else s
  s.coverAll

/-- Accepted trims that no swap has brought into effect take effect at the boundary (R555). -/
def State.otherTrims (s : State) : State :=
  forEach ((s.arrs.map (·.1)).filter (fun k => s.fld (F.ARR_CALSTAT_STATE (k / 8) (k % 8)) == 2)) s (fun s k =>
    s.applyTrims (k / 8) (k % 8) (s.active (k / 8) (k % 8)))

/-- Values of parameters held in memory take effect under the swap policy (R180, R383). -/
def State.applyMem (s : State) (u : Nat) : State :=
  let v := if s.chart.lag1 then u + 1 else u
  let now := s.job.memNew.filter (fun e => e.1 / 2 ^ 48 == v % 2)
  let s : State := { s with job := { s.job with memNew := s.job.memNew.filter (fun e => e.1 / 2 ^ 48 != v % 2) } }
  forEach now s (fun s e => match e.2 with
    | some w => s.putParam (e.1 % 2 ^ 48) w
    | none => s)

/-- Full redundancy at a boundary (R565). -/
def State.redBoundary (s : State) (t : Nat) : State :=
  let x := s.tile t
  let left := max (s.fld (F.TIL_REDSTAT_LEFT t) - 1) x.redWant
  let s := s.putTileRec t { x with redWant := 0 }
  if left = 0 then s.wr (R.TIL_REDSTAT t) 0
  else s.wr (R.TIL_REDSTAT t) (pack [(31, 1), (16, t ^^^ 1), (0, left)])

/-- A tile's calibration point (R557): set where every array's calibration after a refresh request is complete. -/
def State.calPoint (s : State) (t : Nat) : State :=
  let x := s.tile t
  let done := (List.range 8).all (fun a => !(s.arr t a).refresh && s.fld (F.ARR_CALSTAT_STATE t a) != 1
    && s.fld (F.ARR_CALSTAT_STATE t a) != 3)
  if x.calWant && done then
    let s := s.putTileRec t { x with calWant := false }
    match s.junction t with
    | some v => s.setFld (F.TIL_CALPT_TEMP t) (inUnits ((v : ℚ) / 16 - 1024))
    | none => s
  else s

/-- Watcher states as bytes: μ and count of each, 8 bytes (DESIGN CHOICE, log 20). -/
def State.watchBytes (s : State) : List Byte :=
  (List.range s.chart.watchers.length).flatMap (fun i => leBytes 4 (s.watchOf i).mu.toNat ++ leBytes 4 (s.watchOf i).count)

/-- The scale records as bytes, in the order of their region. -/
def State.scaleBytes (s : State) : List Byte := s.chart.scaledIds.flatMap s.scaleRec

/-- A checkpoint of a step is due by the charter's interval (R482). -/
def Charter.ckAt (c : Charter) (u : Nat) : Bool := c.ckInterval != 0 && decide (c.ckFirst ≤ u) && (u - c.ckFirst) % c.ckInterval == 0

/-- A checkpoint of the closing step is due (R482, R483). -/
def State.ckDue (s : State) (u : Nat) : Bool :=
  s.chart.ckAt u || !s.hal.ckWant.isEmpty || s.hal.ckNext

/-- The copy of a checkpoint at the boundary that closes a step (R483): it streams at once where the step is committed
already, waits for the outcome, or moves on after a veto. -/
def State.ckBoundary (s : State) (u : Nat) : State :=
  if s.ckDue u then
    let c : Ckpt := { step := u, accs := s.hal.ckWant, scales := s.scaleBytes, watch := s.watchBytes }
    let s := if s.outcomeOf u && s.job.outKind == 1 then s
      else s.setPair F.HAL_CKSTEP_LO_STEP F.HAL_CKSTEP_HI_STEP u
    if s.outcomeOf u then
      if s.job.outKind = 0 then
        let s := match s.region 18 0xFFFF with
          | some g => s.putMem g.addr (c.scales ++ c.watch)
          | none => s
        ({ s with hal := { s.hal with ckWant := [], ckNext := false } } : State).ckBegin c
      else { s with hal := { s.hal with ckNext := s.hal.ckNext || s.hal.ckWant.isEmpty } }
    else
      let s := match s.region 18 0xFFFF with
        | some g => s.putMem g.addr (c.scales ++ c.watch)
        | none => s
      { s with hal := { s.hal with ckWant := [], ckNext := false, ckStaged := some c } }
  else s

/-- What recovery restores, as it stands when HUB_STEP takes a value (R588). -/
def State.keep (s : State) (v : Nat) : State :=
  { s with job := { s.job with kept := s.job.kept ++ [(v, s.scaleBytes, s.job.watch, s.job.svfPrev)] } }

/-- A STOP that is due halts the job at its boundary (R472). -/
def State.stopJob (s : State) : State :=
  match s.job.stop with
  | some (acc, _) =>
    let c := s.job.ctx
    let s : State := { s with job := { s.job with running := false, stop := none, phase := .backward, want := none } }
    let s := (s.setFld F.HUB_STEPSTAT_PHASE 0).setFld (F.CTX_STAT_STATE c) (b2n (s.flag (F.HAL_CTRL_EN c)))
    s.dropCredits.complete acc 0
  | none => s

/-- A step that is complete is the replay of a job context that was a suspect (R606); one that was terminated meanwhile stays so
(R604). -/
def State.replayed (s : State) : State :=
  if s.job.suspect && s.job.fault.isNone then
    let s : State := { s with job := { s.job with suspect := false, hungAt := none } }
    if s.fld (F.CTX_STAT_STATE s.job.ctx) = 4 then s.cleared s.job.ctx 4 else s.cleared s.job.ctx 2
  else s

/-- The boundary that closes step u, with the bank swap, unless it is still owed (R593), and the boundary updates (R40,
R184, R309, R316, R565). -/
def State.boundary (s : State) (u : Nat) (swap : Bool) : State :=
  let s := s.endHold.replayed
  let stop := s.stopDue u
  let s := s.scaleBoundary u
  let s := forEach s.myPlacements s (fun s p => s.gainBoundary p.tile p.array)
  let s : State := { s with job := { s.job with watched := false }, ens := { s.ens with swapDue := none } }
  let s := forEach s.chart.watchers.zipIdx s (fun s (w : Watcher × Nat) => s.watchStep w.2 w.1)
  let s := ((if swap then s.swapAll else s).otherTrims.applyMem u).ckBoundary u
  let ts := (s.tiles.filter (fun e => e.2.redWant != 0 || s.fld (F.TIL_REDSTAT_LEFT e.1) != 0)).map (·.1)
  let s := forEach ts s (fun s t => s.redBoundary t)
  let s := forEach ((s.tiles.filter (fun e => e.2.calWant)).map (·.1)) s (fun s t => s.calPoint t)
  let loss := ((pairSum .saturate Pair.zero (s.job.losses.map ofPairBits)).run 0).1
  let s : State := { s with job := { s.job with stepLoss := pairBits loss, losses := [], nextF := 0, nextB := 0, touched := [], bases := [] } }
  let s := (s.keep (u + 1)).setPair F.HUB_STEP_LO_STEP F.HUB_STEP_HI_STEP (u + 1)
  let s := s.setFld F.HUB_STEPSTAT_GBUF (b2n s.chart.gbuf * ((u + 1) % 2))
  let s := match s.gov.lastStep with
    | some t => s.setFld F.GOV_STEPPER_TIME (min (2 ^ 32 - 1) (s.osc - t))
    | none => s
  let s : State := { s with gov := { s.gov with lastStep := some s.osc } }
  if stop then s.stopJob else s

/-- The swap that closes step u ordered: it goes into the state record, and takes place once the standby holds a record that
includes it (R47). -/
def State.orderSwap (s : State) (u : Nat) (go : State → State) : State :=
  let s : State := { s with ens := { s.ens with swapDue := some u } }
  if s.recordHeld then go s else s

/-- The step has ended on this device: both halves have run every item. -/
def State.stepEnded (s : State) : Bool :=
  s.mayIssue && s.job.item.isNone && s.job.want.isNone && s.job.nextF == s.chart.micro && s.job.nextB == s.chart.micro

/-- STEP_BOUNDARY (R181, R182, R40, R47, R570, R593): the ensign orders the boundary, unless something holds it. -/
def execStepBoundary (s : State) : Outcome :=
  act s fun s =>
    let s := s.completeItem
    let ready := s.myPlacements.all s.bankReady
    if s.job.oweSwap then
      if !s.mayOrder then s
      else if ready then
        s.orderSwap s.step (fun s => ({ s with job := { s.job with oweSwap := false } } : State).endHold.swapAll)
      else s.holdBoundary ready
    else if s.job.resumed then
      if s.mayOrder && s.myPlacements.all s.activeReady then ({ s with job := { s.job with resumed := false } } : State).endHold else s
    else if s.stepEnded then
      let ts := s.stopTests
      let s := if ts.isEmpty then s else s.holdTests ts
      if !s.boundaryReady s.step then s.holdBoundary ready
      else if ts.isEmpty then s.orderSwap s.step (fun s => s.boundary s.step true)
      else s.endHold
    else s

/-! ### Feeds (R478 to R481) -/

/-- Micro-batches whose F item has completed, counted as descriptors are (R479). -/
def State.consumedMb (s : State) : Nat := s.step * s.chart.micro + s.job.nextF

/-- A feed ring's next descriptor, number g, copied or found wrong (R479, R480). -/
def State.copyFeed (s : State) (f : Feed) (g : Nat) : State :=
  let size := 2 ^ s.fld (F.HAL_FDSIZE_LOG2 f.ring)
  let cons := s.fld (F.HAL_FDCONS_COUNT f.ring)
  let d := s.hostBytes (s.pair (F.HAL_FDBASE_LO_ADDR f.ring) (F.HAL_FDBASE_HI_ADDR f.ring) + 16 * (cons % size)) 16
  let wait (s : State) : State := { s with hal := { s.hal with feedErr := (f.ring :: s.hal.feedErr).eraseDups } }
  let (hit, s) := s.inject 0x1E f.ring 0 0 0
  if leAt d 8 4 != f.mbbytes then wait (s.event (F.HAL_FDEVT_LENERR f.ring))
  else if hit || leAt d 12 4 != g % 2 ^ 32 then wait (s.event (F.HAL_FDEVT_SEQERR f.ring))
  else
    let s := match s.chart.regions[f.region]? with
      | some r => s.putMem (r.addr + g % f.slots * f.mbbytes) (s.hostBytes (leAt d 0 8) f.mbbytes)
      | none => s
    s.setFld (F.HAL_FDCONS_COUNT f.ring) (cons + 1)

/-- FEED_DESCRIPTOR_COPY (R479): the next descriptor of a feed ring. -/
def execFeedDescriptorCopy (ring : Nat) (s : State) : Outcome :=
  act s fun s =>
    match s.myFeeds.find? (fun f => f.ring == ring) with
    | some f =>
      let cons := s.fld (F.HAL_FDCONS_COUNT ring)
      let done := s.consumedMb
      let d := (cons + 2 ^ 32 - done % 2 ^ 32) % 2 ^ 32
      if s.linkUp && s.fld (F.HAL_FDSIZE_LOG2 ring) != 0 && cons != s.fld (F.HAL_FDPROD_COUNT ring)
          && decide (d < f.slots) && !s.hal.feedErr.contains ring && s.job.rolling.isNone then
        s.copyFeed f (done + d)
      else s
    | none => s

/-! ### PN4 data-gradient images (R313, R314) -/

/-- A value rounded to BF16. -/
def roundBF (v : FVal) : Cnt FVal := do
  let (w, _) ← convFloat fmtBF16 .saturate v
  pure (decodeFloat fmtBF16 w)

/-- PN4_IMAGE_BUILD (R314): Wq of a bank's digital copy is written and its factors formed. -/
def execPn4ImageBuild (t a b : Nat) (s : State) : Outcome :=
  act s fun s =>
    let x := s.arr t a
    let k := x.bank b
    match s.region 6 0xFFFF with
    | some g =>
      if k.copied && !k.imaged && s.arrayTime then
        let base := g.addr + 147456 * (2 * (8 * t + a) + b)
        let d : W16 := 12
        let cols := (List.range 512).map (fun j => (List.range 512).map (fun i => s.copyWeight b t a i j))
        let rows := cols.map (fun w => ((encodeRow d .saturate (w.map (fun v => (v, false)))).run 0).1.1)
        let s := forEach rows.zipIdx s (fun s (r : List Byte × Nat) => s.putMem (base + 288 * r.2) r.1)
        let diff := (List.zip cols rows).mapIdx (fun j q => q.1.mapIdx (fun i w =>
          let e := ((fsub .saturate w (decodeElem d (fun n => q.2.getD n 0) i)).run 0).1
          (512 * j + i, BitVec.ofNat 16 (encodeFloat fmtBF16 ((roundBF e).run 0).1))))
        let e := diff.flatten.foldl (fun (m : Sparse W16) p => store (fun _ => 0) m p.1 p.2) []
        let (u, v) := ((buildFactors e 8 2).run 0).1
        s.putArr t a (x.setBank b { k with uq := packFactor u, vq := packFactor v, imaged := true })
      else s
    | none => s

/-! ### The READY exchange and job start (R407, R408, R330) -/

/-- A READY as the root keeps it: source, charter identity and CRC. -/
def readyKey (id crc source : Nat) : Nat := source + 2 ^ 16 * id + 2 ^ 80 * crc

/-- Credits granted to the senders of activations at job start: one for each whole 64 KiB of the inbound region (R411). -/
def State.grantStart (s : State) (back : Bool) : State :=
  match s.feeder back, s.region (inboundKind back) 0xFFFF with
  | some d, some g => s.grantCredit d back (g.length / 65536)
  | _, _ => s

/-- The job starts on this device once the READY exchange is complete (R407 steps 4 and 5, R408, R472). -/
def State.startJob (s : State) : State :=
  match s.job.starting with
  | some acc =>
    if s.root.started then
      let first := s.step
      let s : State := { s with job := { s.job with starting := none, first } }
      let s := (s.grantStart false).grantStart true
      let s := if s.job.begun then s
        else forEach s.ownEngines { s with job := { s.job with begun := true } } (fun s n => s.returnParams n)
      s.complete acc 0
    else s
  | none => s

/-- The READY exchange has completed here. -/
def State.readyDone (s : State) : State := { s with root := { s.root with started := true } }.startJob

/-- The step root compares what it has received with its own charter (R408). After one that does not match the job does not
start, until a charter is loaded anew. -/
def State.readyCheck (s : State) : State :=
  if s.fld F.HUB_CHSTAT_STATE != 2 || s.devNum != s.chart.stepRoot || s.root.started then s
  else
    let c := s.chart
    let good (k : Nat) : Bool := k == readyKey c.id c.crc.toNat (k % 65536)
    let bad := s.root.ready.filter (fun k => !good k)
    let s := match bad.head? with
      | some k => if s.flag F.HUB_CHSTAT_MISMATCH then s
        else (s.setFlag F.HUB_CHSTAT_MISMATCH true).setFld F.HUB_CHMISDEV_DEV (k % 65536)
      | none => s
    let s : State := { s with root := { s.root with ready := s.root.ready.filter good } }
    if s.flag F.HUB_CHSTAT_MISMATCH then s
    else if c.devices.all (fun d => s.root.ready.contains (readyKey c.id c.crc.toNat d.device)) then
      (s.toAll 0x08 s.step (leBytes 8 c.id ++ leBytes 4 c.crc.toNat ++ leBytes 2 s.devNum ++ zeros 2)).readyDone
    else s

/-- READY (R408): at the step root a device's READY, which waits for the root's own charter; elsewhere the root's. -/
def execReady (id : W64) (crc : W32) (source : Nat) (s : State) : Outcome :=
  act s fun s =>
    if s.fld F.HUB_CHSTAT_STATE = 2 && s.devNum != s.chart.stepRoot then
      if source = s.chart.stepRoot && id.toNat == s.chart.id && crc == s.chart.crc then s.readyDone else s
    else
      let k := readyKey id.toNat crc.toNat source
      { s with root := { s.root with ready := if s.root.ready.contains k then s.root.ready else s.root.ready ++ [k] } }.readyCheck

end Sys2Proof.Machine
end

