-- ==== Sys2Proof/Machine/Rings.lean ====
section
/-! DEFINITION. The host interface's rings and doorbells (R462 to R477) with the checkpoint stream (R482 to R486): the
events COMMAND_DOORBELL, FEED_DOORBELL, CHECKPOINT_DOORBELL, HAL_ENABLE, HAL_STOP, HALYARD_STOPPED, COMMAND_FETCH,
HAL_CQHEAD_WRITE, HAL_IRQ_WRITE, IRQ_AGE_TIMEOUT, CHECKPOINT_STREAM and CHECKPOINT_BUFFER_TIMEOUT.
-/

namespace Sys2Proof.Machine

/-! ### Doorbells (R463, R464) -/

/-- A value lies from a producer count up to a consumer count plus the ring's entries, modulo 2^32 (R464). -/
def doorbellOk (v prod cons size : Nat) : Bool :=
  decide ((v + 2 ^ 32 - prod % 2 ^ 32) % 2 ^ 32 ≤ (cons + size + 2 ^ 32 - prod % 2 ^ 32) % 2 ^ 32)

/-- COMMAND_DOORBELL (R464). -/
def execCommandDoorbell (h : Nat) (v : W32) (s : State) : Outcome :=
  act s fun s =>
    let (hit, s) := s.inject 0x1D h 0 0 0
    let prod := s.fld (F.HAL_SQPROD_COUNT h)
    if !hit && s.flag (F.HAL_CTRL_EN h) && !s.flag (F.HAL_STAT_STOPPING h)
        && doorbellOk v.toNat prod (s.fld (F.HAL_SQCONS_COUNT h)) (s.ringSize h) then
      s.setFld (F.HAL_SQPROD_COUNT h) v.toNat
    else s.event (F.HAL_EVT_DBERR h)

/-- FEED_DOORBELL (R464, R480, R481): HAL_FDREL stands for the consumer count. -/
def execFeedDoorbell (f : Nat) (v : W32) (s : State) : Outcome :=
  act s fun s =>
    let s : State := { s with hal := { s.hal with feedErr := s.hal.feedErr.filter (· != f) } }
    let size := s.fld (F.HAL_FDSIZE_LOG2 f)
    if size != 0 && doorbellOk v.toNat (s.fld (F.HAL_FDPROD_COUNT f)) (s.fld (F.HAL_FDREL_COUNT f)) (2 ^ size) then
      s.setFld (F.HAL_FDPROD_COUNT f) v.toNat
    else s.event (F.HAL_FDEVT_DBERR f)

/-- CHECKPOINT_DOORBELL (R464): a value out of range is ignored; the ring has no DBERR bit. -/
def execCheckpointDoorbell (v : W32) (s : State) : Outcome :=
  act s fun s =>
    let size := s.fld F.HAL_CKSIZE_LOG2
    if size != 0 && doorbellOk v.toNat s.hal.ckProd (s.fld F.HAL_CKCONS_COUNT) (2 ^ size) then
      { s with hal := { s.hal with ckProd := v.toNat } }
    else s

/-- BAR4 decoded (R463): the doorbell that a 32-bit write at an offset rings; the others ignore it. -/
def bar4Write (off : Nat) (v : W32) : Option Instr :=
  if off % 0x1000 != 0 then none
  else if off / 0x1000 ≤ 16 then some (.commandDoorbell (off / 0x1000) v)
  else if 0x20 ≤ off / 0x1000 && off / 0x1000 < 0x60 then some (.feedDoorbell (off / 0x1000 - 0x20) v)
  else if off = 0x70000 then some (.checkpointDoorbell v)
  else none

/-- A read of BAR4 (R15, R463): the doorbells are WO, and the other offsets read 0. -/
def bar4Read (_off : Nat) : W32 := 0

/-! ### Enabling and stopping a halyard (R462, R475, R495) -/

/-- A halyard's counts return to zero, and its rings are empty. -/
def State.zeroCounts (s : State) (h : Nat) : State :=
  ((((s.setFld (F.HAL_SQPROD_COUNT h) 0).setFld (F.HAL_SQCONS_COUNT h) 0).setFld (F.HAL_CQTAIL_COUNT h) 0).setFld
    (F.HAL_CQHEAD_COUNT h) 0).setFlag (F.HAL_STAT_CQFULL h) false

/-- A context register's STATE. -/
def State.setCtx (s : State) (h v : Nat) : State := if h < 16 then s.setFld (F.CTX_STAT_STATE h) v else s

/-- HAL_ENABLE (R462, R464): a write of 1 to HAL_CTRL.EN; ignored while the halyard stops, and no change where EN is 1. -/
def execHalEnable (h : Nat) (s : State) : Outcome :=
  hostReg (R.HAL_CTRL h) s fun s =>
    if s.flag (F.HAL_STAT_STOPPING h) || s.flag (F.HAL_CTRL_EN h) then s
    else
      let s := ((s.zeroCounts h).putHalyard h {}).setFlag (F.HAL_CTRL_EN h) true
      if h < 16 && (s.fld (F.CTX_STAT_STATE h) == 0 || s.fld (F.CTX_STAT_STATE h) == 4) then s.setCtx h 1 else s

/-- HAL_STOP (R475): a write of 0 to HAL_CTRL.EN. -/
def execHalStop (h : Nat) (s : State) : Outcome :=
  hostReg (R.HAL_CTRL h) s fun s =>
    if s.flag (F.HAL_CTRL_EN h) && !s.flag (F.HAL_STAT_STOPPING h) then
      let s := s.setFlag (F.HAL_STAT_STOPPING h) true
      let idle := ((s.halyard h).fetched.filter (fun f => !s.started f)).map (·.acc)
      forEach idle (s.forget idle.contains) (fun s acc => s.complete acc 1)
    else s

/-- HALYARD_STOPPED (R475): nothing of a stopping halyard runs and its completions are written. -/
def execHalyardStopped (h : Nat) (s : State) : Outcome :=
  act s fun s =>
    let x := s.halyard h
    if s.flag (F.HAL_STAT_STOPPING h) && x.fetched.isEmpty && x.held.isEmpty then
      let s := ((s.zeroCounts h).putHalyard h {}).setFlag (F.HAL_CTRL_EN h) false
      let s := s.setFlag (F.HAL_STAT_STOPPING h) false
      if h < 16 && s.fld (F.CTX_STAT_STATE h) == 1 then s.setCtx h 0 else s
    else s

/-! ### Fetching (R465 to R468, R472) -/

/-- Opcodes of R472 and R470 that a halyard may carry. -/
def opcodeOk (h op : Nat) : Bool :=
  if h = 16 then decide (op ≤ 7) || op == 9 || op == 10
  else op == 0 || op == 5 || op == 8 || op == 11 || decide (0x40 ≤ op && op ≤ 0x45)

/-- The status of a command that is refused as it is fetched, or 0 (R468, R472, R476). -/
def fetchRefusal (h : Nat) (b : List Byte) : Nat :=
  let op := leAt b 12 1
  if !opcodeOk h op then 0x10
  else if op < 0x40 && (leAt b 13 1 % 64 != 0 || leAt b 14 2 != 0) then 0x12
  else 0

/-- A halyard fetches now (R465, R474, R475, R490, R495). -/
def State.mayFetch (s : State) (h : Nat) : Bool :=
  s.flag (F.HAL_CTRL_EN h) && !s.flag (F.HAL_STAT_STOPPING h) && s.linkUp && !(s.halyard h).dead
    && s.fld (F.HAL_SQCONS_COUNT h) != s.fld (F.HAL_SQPROD_COUNT h) && !s.flag (F.HAL_STAT_CQFULL h)
    && decide (s.cqDepth h < s.ringSize h)

/-- COMMAND_FETCH (R465, R467): the next command of a halyard's ring. -/
def execCommandFetch (h : Nat) (s : State) : Outcome :=
  act s fun s =>
    if s.mayFetch h then
      let cons := s.fld (F.HAL_SQCONS_COUNT h)
      let b := s.hostBytes (s.pair (F.HAL_SQBASE_LO_ADDR h) (F.HAL_SQBASE_HI_ADDR h) + 64 * (cons % s.ringSize h)) 64
      let x := s.halyard h
      let acc := hostAcc h x.pos
      let s := (s.putHalyard h { x with pos := x.pos + 1, fetched := x.fetched ++ [({ acc, bytes := b } : Fetched)] }).setFld
        (F.HAL_SQCONS_COUNT h) (cons + 1)
      let (hit, s) := s.inject 0x1C h 0 0 acc
      if hit || leAt b 0 8 != acc then (s.event (F.HAL_EVT_ACCMIS h)).complete acc 0x11 (leAt b 0 8)
      else
        let r := fetchRefusal h b
        if r = 0 then s.halStat h else s.complete acc r
    else s

/-! ### Completions and their vector (R474, R477) -/

/-- HAL_CQHEAD_WRITE (R474): the host has consumed completions. -/
def execHalCqheadWrite (h : Nat) (v : W32) (s : State) : Outcome :=
  hostReg (R.HAL_CQHEAD h) s fun s =>
    let s := s.setFld (F.HAL_CQHEAD_COUNT h) v.toNat
    let x := s.halyard h
    let n := s.cqDepth h
    (s.putHalyard h { x with stamps := x.stamps.drop (x.stamps.length - n) }).drainHeld h

/-- HAL_IRQ_WRITE (R477). -/
def execHalIrqWrite (h : Nat) (v : W32) (s : State) : Outcome :=
  hostReg (R.HAL_IRQ h) s fun s =>
    let s := s.wr (R.HAL_IRQ h) (v &&& 0x803FFFFF)
    if bit v 31 && s.fld (F.HAL_CQTAIL_COUNT h) != s.fld (F.HAL_CQHEAD_COUNT h) then s.halIrq h else s

/-- IRQ_AGE_TIMEOUT (R477): the oldest completion beyond HAL_CQHEAD is TIME µs old by HUB_OSC. -/
def execIrqAgeTimeout (h : Nat) (s : State) : Outcome :=
  act s fun s =>
    let time := s.fld (F.HAL_IRQ_TIME h)
    if s.linkUp && s.flag (F.HAL_IRQ_ARM h) && time != 0 && (s.halyard h).stamps.head?.any (fun w => decide (w + 100 * time ≤ s.osc)) then s.halIrq h
    else s

/-! ### Checkpoint streams (R484 to R486) -/

/-- A record of a checkpoint stream (R484). -/
def ckRecord (kind unit off seq : Nat) (data : List Byte) : List Byte :=
  let h := leBytes 2 kind ++ leBytes 2 unit ++ zeros 4 ++ leBytes 8 off ++ leBytes 4 data.length ++ leBytes 4 seq ++ zeros 4
  h ++ leBytes 4 (crc32c (h ++ data)).toNat ++ data

/-- An item's data in records of at most 32,736 bytes: kind, unit, offset and data. DESIGN CHOICE: the spec bounds a record
by its buffer only (log 20). -/
def ckPieces (kind unit : Nat) (data : List Byte) : List (Nat × Nat × Nat × List Byte) :=
  (chunks 32736 data).mapIdx (fun i d => (kind, unit, 32736 * i, d))

/-- The slots of an engine's shards that were current at a commit (R484): state record and power table, then h, r, m and u. -/
def State.engineState (s : State) (n : Nat) (slots : List (Nat × Nat)) : List Byte :=
  (s.shardsAt n).flatMap (fun x =>
    let slot := ((slots.find? (fun q => q.1 == x.num)).map (·.2)).getD (s.curSlot x)
    let l := x.shard.length
    s.memBytes (x.area slot) (32 + 8 * s.chart.groups.length) ++ s.memBytes (x.area (2 + slot)) (2 * l)
      ++ s.memBytes (x.area (4 + slot)) (2 * l) ++ s.memBytes (x.area (6 + slot)) (34 * (l / 32))
      ++ s.memBytes (x.area (8 + slot)) (34 * (l / 32)))

/-- HEAD's data (R484). DESIGN CHOICE: the places of its fields (log 20). -/
def State.ckHead (s : State) (step : Nat) : List Byte :=
  leBytes 8 s.chart.id ++ leBytes 8 step ++ leBytes 2 s.devNum ++ leBytes 2 s.stage ++ leBytes 2 s.rank ++ zeros 2

/-- The records of a checkpoint (R484). -/
def State.ckRecords (s : State) (c : Ckpt) : List (List Byte) :=
  let items := ckPieces 1 0xFFFF (s.ckHead c.step) ++ s.ownEngines.flatMap (fun n => ckPieces 2 n (s.engineState n c.slots))
    ++ ckPieces 3 0xFFFF c.scales ++ ckPieces 4 0xFFFF c.watch
  let items := items ++ [(0xFF, 0xFFFF, 0, leBytes 4 (items.length + 1))]
  items.mapIdx (fun i q => ckRecord q.1 q.2.1 q.2.2.1 i q.2.2.2)

/-- How many records fit a buffer. -/
def fitting : Nat → List (List Byte) → Nat
  | _, [] => 0
  | room, r :: rs => if r.length ≤ room then fitting (room - r.length) rs + 1 else 0

/-- A checkpoint ends with its completions on the management ring (R486). -/
def State.ckEnd (s : State) (c : Ckpt) (status : Nat) : State :=
  let s := s.nextStream.releaseEngines
  if c.accs.isEmpty then s.complete s.devAcc status else forEach c.accs s (fun s a => s.complete a status)

/-- The next buffer of a stream filled (R484); an engine whose records are written goes on (R485). -/
def State.ckFill (s : State) (c : Ckpt) : State :=
  let cons := s.fld F.HAL_CKCONS_COUNT
  let size := 2 ^ s.fld F.HAL_CKSIZE_LOG2
  let at' := s.pair F.HAL_CKBASE_LO_ADDR F.HAL_CKBASE_HI_ADDR + 16 * (cons % size)
  let d := s.hostBytes at' 16
  let n := fitting (leAt d 8 4) c.todo
  let bs := (c.todo.take n).flatten
  let rest := c.todo.drop n
  let s := s.putHost (leAt d 0 8) bs
  let s := s.putHost (at' + 12) (leBytes 4 (bs.length + 2 ^ 31 * b2n rest.isEmpty))
  let s := s.setFld F.HAL_CKCONS_COUNT (cons + 1)
  let c : Ckpt := { c with todo := rest }
  if rest.isEmpty then s.ckEnd c 0 else ({ s with hal := { s.hal with ckStream := some c } } : State).releaseEngines

/-- CHECKPOINT_STREAM (R484): the stream's next free buffer. -/
def execCheckpointStream (s : State) : Outcome :=
  act s fun s =>
    match s.hal.ckStream with
    | some c =>
      if s.linkUp && s.fld F.HAL_CKSIZE_LOG2 != 0 && s.fld F.HAL_CKCONS_COUNT != s.hal.ckProd then
        s.ckFill (if c.begun then c else { c with begun := true, todo := s.ckRecords c })
      else s
    | none => s

/-- CHECKPOINT_BUFFER_TIMEOUT (R486): no buffer for 1 s; the stream is abandoned. -/
def execCheckpointBufferTimeout (s : State) : Outcome :=
  act s fun s =>
    match s.hal.ckStream with
    | some c =>
      if s.linkUp && s.fld F.HAL_CKSIZE_LOG2 != 0 && s.fld F.HAL_CKCONS_COUNT != s.hal.ckProd then s else s.ckEnd c 0x35
    | none => s

end Sys2Proof.Machine
end

