-- ==== Sys2Proof/Machine/Tests.lean ====
section
/-! DEFINITION. In-field test, redundancy and injection (17_calibration_and_test.md): the events TEST_REQUEST, TEST_END,
REDUNDANCY_COMPARE and INJ_CTRL_WRITE.
-/

namespace Sys2Proof.Machine

/-! ### Array tests (R568) -/

/-- Pairs of a bank that are off, by physical column (R568), and the state after the bank's 512 verify reads (R142, R167). -/
def State.fullRead (s : State) (t a b : Nat) : (Nat → Nat) × State :=
  let s := s.convertersOn t a false
  let x := s.arr t a
  let n := s.free
  let off (c : Nat) : Nat := ((List.range 512).filter (fun i =>
    decide (3 < |x.verifyCode t a b i (n + i) c - 4 * lookup (fun _ => 0) (x.bank b).prog (531 * i + c)|))).length
  (off, { s with free := s.free + 512 })

/-- The logical columns that a full read condemns in a bank (R568). -/
def State.condemnedIn (s : State) (t a b : Nat) (off : Nat → Nat) : List Nat :=
  let lim := s.fld (F.ARR_PRGLIM_UNRCOL t a)
  (List.range 512).filter (fun j => !s.awaiting t a b j && decide (lim < off (s.physCol t a b j)))

/-- The checksum comparison of a self-test's slices is suppressed (R155, R174): it is off for the bank or the array, or a
column of the bank awaits remap. DESIGN CHOICE: R155 names the active bank, on which its MVMs run; a self-test's run on the idle
bank, whose columns count here (log 86). -/
def State.testSuppressed (s : State) (t a b : Nat) : Bool :=
  (if b = 0 then s.flag (F.ARR_PRGSTAT_CHKOFF0 t a) else s.flag (F.ARR_PRGSTAT_CHKOFF1 t a))
    || !s.flag (F.ARR_CTRL_CHKEN t a) || (List.range 512).any (fun j => s.awaiting t a b j)

/-- The checksum self-test (R568): mismatches among 64 single-slice MVMs on the idle bank, compared under R154. DESIGN CHOICE:
these MVMs update no QAVG, count in no ARR_CNT_ register and are no clips (log 85). -/
def State.selfTest (s : State) (t a : Nat) : Nat × State :=
  let b := 1 - s.active t a
  let s := s.convertersOn t a true
  let x := s.arr t a
  let k := x.bank b
  let n := s.free
  let cols := (List.range 512).map (fun j => s.physCol t a b j)
  let lsbs := cols.map (fun c => lsbOf (s.gainCode t a b c))
  let lc := lsbOf (s.gainCode t a b 528)
  let bad := (List.range 64).filter (fun p =>
    let d : List Int := (List.range 512).map (fun i => 8 * patternAt p i)
    let rs := List.zipWith (fun c l => x.reading (n + p) (k.charge t a b d c) l c) cols lsbs
    let chk := x.reading (n + p) (k.charge t a b d 528) lc 528
    let esum : Int := (List.zipWith (fun (r : Int × Bool) (l : Nat) => r.1 * (l : Int)) rs lsbs).sum
    let rest : Int := ((List.range 512).map (fun i => d.getD i 0 * lookup (fun _ => 0) k.rem i)).sum
    let msum : ℚ := 32 * chk.1 * lc + (rest : ℚ) / 16
    !(rs.any (·.2)) && !chk.2 && decide ((s.fld (F.ARR_CHKTOL_TOL t a) * lc : ℚ) < |(esum : ℚ) - msum|))
  (if s.testSuppressed t a b then 0 else bad.length, { s with free := s.free + 64 })

/-- A calibration that belongs to a test, run whole (R549, R567, R568). -/
def State.testCalibration (s : State) (t a : Nat) : State :=
  let s := s.convertersOn t a false
  let (n, s) := s.drawWindows
  let x := s.arr t a
  (s.putArr t a { x with cal := { x.cal with draw := n } }).endCalibration t a

/-- The array part of a test (R568): the verdict (1 pass, 2 column condemned, 3 array condemned) and the first condemned
column. only restricts the judgement to one column. -/
def State.arrayTest (s : State) (t a : Nat) (only : Option Nat) (selfTest : Bool) : Nat × Nat × State :=
  let (off0, s) := s.fullRead t a 0
  let (off1, s) := s.fullRead t a 1
  let keep (js : List Nat) : List Nat := match only with
    | some j => js.filter (· == j)
    | none => js
  let c0 := keep (s.condemnedIn t a 0 off0)
  let c1 := keep (s.condemnedIn t a 1 off1)
  let s := s.testCalibration t a
  let failed5 := (s.arr t a).cal.last == 5
  let (bad, s) := if selfTest then s.selfTest t a else (0, s)
  let js := ((c0 ++ c1).eraseDups).mergeSort (· ≤ ·)
  if selfTest && (failed5 || (2 < bad && js.isEmpty)) then (3, 0, s)
  else
    let s := forEach c0 s (fun s j => s.retire t a 0 j 3)
    let s := forEach c1 s (fun s j => s.retire t a 1 j 3)
    (if js.isEmpty then 1 else 2, js.headD 0, s)

/-- A condemned array leaves service for good (R568, R586): the ledger keeps a retired-array record. -/
def State.condemn (s : State) (t a : Nat) : State :=
  let s := if (s.arr t a).out then s else s.arrayOut t a
  (s.putArr t a { s.arr t a with condemned := true }).ledgerPut 0 0x23 (8 * t + a) (leBytes 4 3)

/-- An array's verdict in a test: what it entails, and the step of the last ARRAY test (R566, R586). -/
def State.judge (s : State) (t a : Nat) (only : Option Nat) (selfTest : Bool) : Nat × Nat × State :=
  let (v, c, s) := s.arrayTest t a only selfTest
  let x := s.arr t a
  let s := if selfTest then s.putArr t a { x with testStep := some s.step, passed := x.out && v == 1 } else s
  (v, c, if v = 3 then s.condemn t a else s)

/-- The verdict of an ENGINE test: in SHADOW mode no comparison failed (R569), in STOP mode every output of the fixed command set has
its stored CRC32C (R570), which is a free value (DESIGN CHOICE, log 86). -/
def State.engineVerdict (s : State) (t mode : Nat) : Nat × State :=
  if mode = 2 then
    let (n, s) := s.draw
    (if Config.selfTestFails n t then 4 else 1, s)
  else (if (s.tile t).redFailed then 4 else 1, s)

/-- The verdict of a test whose time has come, with the column to show, and what it changes (R567 to R570). -/
def State.verdict (s : State) (t : Nat) (r : TestReq) : Nat × Nat × State :=
  if s.fld (F.TIL_TESTSTAT_VERDICT t) = 5 then (5, r.col, s)
  else if r.kind = 1 then s.judge t r.array (some r.col) false
  else if r.kind = 2 then s.judge t r.array none true
  else if r.kind = 3 then
    let (v, s) := s.engineVerdict t r.mode
    (v, 0, s)
  else if r.kind = 4 then
    let s := s.testCalibration t r.array
    let cause := (s.arr t r.array).cal.last
    if cause = 0 then (1, 0, s) else if cause = 5 then (3, 0, s.condemn t r.array) else (5, 0, s)
  else
    let (v, s) := forEach (List.range 8) (1, s) (fun (q : Nat × State) a =>
      let (v, _, s) := q.2.judge t a none true
      (max q.1 v, s))
    let (w, s) := s.engineVerdict t r.mode
    (max v w, 0, s)

/-- A test ends with a verdict (R572): its record, its registers, the TEST commands that wait for it. -/
def State.concludeTest (s : State) (t verdict col : Nat) : State :=
  match (s.tile t).test with
  | none => s
  | some r =>
    let s := s.bump (F.TIL_CNT_TEST_COUNT t) 1
    let s := s.wr (R.TIL_TESTSTAT t) (pack [(28, 3), (24, r.kind), (20, r.mode), (16, verdict), (10, r.array), (0, col)])
    let layer := ((s.placement t r.array).map (·.layer)).getD 0xFFFF
    let s := s.stewardRecord t 0x12 (if r.kind = 3 || r.kind = 5 then 0xFFFF else layer)
      (leBytes 1 r.kind ++ leBytes 1 r.mode ++ leBytes 1 verdict ++ leBytes 1 r.array ++ leBytes 2 col ++ zeros 2)
    forEach r.hosts (s.putTileRec t { s.tile t with test := none, redFailed := false }) (fun s acc => s.complete acc 0)

/-- The first waiting test of an idle tile starts (R571); a stop-mode hold ends where no test needs it. -/
def State.nextTest (s : State) (t : Nat) : State :=
  match (s.tile t).test, (s.tile t).waiting with
  | none, q :: qs => ((s.putTileRec t { s.tile t with waiting := qs }).startTest t q).endTestHold
  | _, _ => s.endTestHold

/-- A test ends, and the next one starts (R571, R572). -/
def State.endTest (s : State) (t verdict col : Nat) : State := (s.concludeTest t verdict col).nextTest t

/-- No programming, measurement or calibration of an array has work left (R569). -/
def State.arrayIdle (s : State) (t a : Nat) : Bool :=
  let st := s.prgState t a
  let c := s.fld (F.ARR_CALSTAT_STATE t a)
  (st == 0 || st == 4) && c != 1 && c != 3

/-- A running test may end now: a shadow test of arrays needs the array time that their own work leaves, a shadow ENGINE test
its steps of redundancy (R569). -/
def State.testRipe (s : State) (t : Nat) (r : TestReq) : Bool :=
  let eng := r.kind == 3 || r.kind == 5
  s.fld (F.TIL_TESTSTAT_STATE t) == 2
    && (r.mode != 1 || ((!eng || (s.fld (F.TIL_REDSTAT_LEFT t) == 0 && (s.tile t).redWant == 0))
      && (r.kind == 3 || (s.arrayTime && (List.range 8).all (fun a => s.arrayIdle t a || (r.kind != 5 && r.array != a))))))

/-- TEST_REQUEST (R566, R571): an event inside the device requests a test. -/
def execTestRequest (t kind mode array col steps : Nat) (s : State) : Outcome :=
  act s fun s => s.requestTest t kind mode array col steps none

/-- TEST_END (R568 to R572). -/
def execTestEnd (t : Nat) (s : State) : Outcome :=
  act s fun s =>
    match (s.tile t).test with
    | some r =>
      if s.testRipe t r then
        let (v, col, s) := s.verdict t r
        s.endTest t v col
      else s
    | none => s

/-! ### Redundancy (R563, R564) -/

/-- A tile that a comparison found wrong (R564): it counts, and its Steward raises a tile fault. -/
def State.redFault (s : State) (t acc : Nat) : State :=
  (s.bump (F.TIL_CNT_REDMIS_COUNT t) 1).tileFault t acc

/-- REDUNDANCY_COMPARE (R563, R564): the partner's CRC is here for a suspect tile's oldest suspended command; third is
the CRC of a third run, which is made only where the two differ. -/
def execRedundancyCompare (t : Nat) (partner third : W32) (s : State) : Outcome :=
  act s fun s =>
    match (s.tile t).redPend with
    | [] => s
    | p :: ps =>
      let s := (s.putTileRec t { s.tile t with redPend := ps }).takeUp t p.cmd.acc p.start
      let (hit, s) := s.inject 0x09 t 0 0 p.cmd.acc
      let partner := if hit then ~~~partner else partner
      let s := s.tally t 0x51 1
      if partner = p.crc then s.releasePend p
      else
        let s := s.putTileRec t { s.tile t with redFailed := true }
        let s := if third != partner then s.redFault (t ^^^ 1) p.cmd.acc else s
        if third != p.crc then (s.redFault t p.cmd.acc).discardPend t p else s.releasePend p

/-! ### Injection (R573, R574) -/

/-- The modes that an injection point lists (R573): SIGNAL and DATA. -/
def injModes (point : Nat) : Bool × Bool :=
  if point == 7 || point == 8 then (true, true)
  else if [3, 4, 10, 12, 14, 17, 18, 19, 20].contains point then (false, true)
  else (decide (1 ≤ point) && decide (point ≤ 36), false)

/-- INJ_CTRL_WRITE (R574). -/
def execInjCtrlWrite (v : W32) (s : State) : Outcome :=
  hostReg R.INJ_CTRL s fun s =>
    if s.flag F.INJ_STAT_LOCKED then s
    else
      let data := bit v 30
      let m := injModes (bits v 7 0)
      let listed := if data then m.2 else m.1
      if bit v 31 && (!listed || (data && s.job.running)) then s.event F.INJ_STAT_REFUSED
      else
        let s := s.wr R.INJ_CTRL (v &&& 0xC0FF00FF)
        if bit v 31 then
          let s : State := { s with injSeen := 0 }
          if bits v 7 0 = 0x24 then s.ledgerPut 1 0x25 0 [] else s
        else s

end Sys2Proof.Machine
end

