-- ==== Sys2Proof/Machine/HostCmd.lean ====
section
/-! DEFINITION. The host commands (R472): NOP, LOAD, START, STOP, UNLOAD, ABORT, CHECKPOINT, RESTORE, COPY, RETIRE, TEST and
TENSOR; the host link and the memory window: HOST_LINK_DOWN, HOST_LINK_RETRAIN, HOST_MEMORY_FAULT, BAR2_WRITE and
BAR2_OUT_OF_RANGE.
-/

namespace Sys2Proof.Machine

/-- A host command that may start has its effect (R465, R472). -/
def State.hostCmd (s : State) (acc op : Nat) (body : List (Nat × Nat × Nat)) (f : State → State) : State :=
  if s.hostMay acc op body then f s else s

/-- NOP (R472). -/
def execNop (acc : Nat) (s : State) : Outcome := act s fun s => s.hostCmd acc 0 [] fun s => s.complete acc 0

/-! ### The job's commands -/

/-- LOAD (R404 to R407): the charter at a device address. It waits while no Steward holds the token (R43). -/
def execLoad (acc addr len : Nat) (s : State) : Outcome :=
  act s fun s => s.hostCmd acc 1 [(16, 8, addr), (24, 8, len)] fun s =>
    if s.ens.up = 0 then s
    else if s.job.running then s.complete acc 0x32
    else
      let (ok, s) := s.loadCharter (s.memBytes addr len)
      if ok then s.readyCheck.complete acc 0 else s.complete acc 0x30

/-- START's refusal, or 0 (R472). -/
def State.startRefusal (s : State) (ctx : Nat) : Nat :=
  firstRefusal [(decide (15 < ctx), 0x12), (s.fld F.HUB_CHSTAT_STATE != 2, 0x31), (s.job.running || s.job.halted, 0x32),
    (s.myFeeds.any (fun f => s.fld (F.HAL_FDSIZE_LOG2 f.ring) == 0), 0x33)]

/-- The job begins to run in a context (R408, R466, R472); its first item waits for the READY exchange. -/
def State.beginJob (s : State) (acc ctx : Nat) : State :=
  let s := (s.markRunning acc).setFld (F.CTX_STAT_STATE ctx) 2
  let j := s.job
  let job : Job := { first := s.step, begun := j.begun, memNew := j.memNew, watch := j.watch, arrived := j.arrived,
                     svfPrev := j.svfPrev, vetoed := j.vetoed, copyDue := j.copyDue,
                     running := true, handled := s.step, starting := some acc, ctx, fin := j.fin, bin := j.bin,
                     creditF := j.creditF, creditB := j.creditB }
  let s : State := { s with job, treeC := [], treeR := [], treeT := [] }
  let s := forEach s.ownEngines s.idleEngines (fun s n => s.putEngine n { handled := s.step })
  let s := (s.setFld F.HUB_STEPSTAT_PHASE 2).setFld F.HUB_STEPSTAT_GBUF (b2n s.chart.gbuf * (s.step % 2))
  (s.keep s.step).startJob

/-- START (R472, R408). -/
def execStart (acc ctx : Nat) (s : State) : Outcome :=
  act s fun s => s.hostCmd acc 2 [(16, 1, ctx)] fun s =>
    let r := s.startRefusal ctx
    if r != 0 then s.complete acc r else s.beginJob acc ctx

/-- STOP (R472): the job halts at the closing boundary of a step, or at the next one. A STOP that finds another waiting
waits behind it, and one that finds no job completes at once (DESIGN CHOICE, log 21). -/
def execStop (acc step : Nat) (s : State) : Outcome :=
  act s fun s => s.hostCmd acc 3 [(16, 8, step)] fun s =>
    if !s.job.running then s.complete acc 0
    else if s.job.stop.isSome then s
    else { s.markRunning acc with job := { s.job with stop := some (acc, if step = 0 then none else some step) } }

/-- A charter discarded (R472 UNLOAD): INSVC falls on every array (R159), with what was in progress for the charter.
DESIGN CHOICE: HUB_PRGSTAT.POLICY keeps the discarded charter's policy (log 84). -/
def State.dropCharter (s : State) : State :=
  let s := (forEach allArrays s (fun s k => s.dropCopies k.1 k.2)).idleEngines
  let s := (((s.putStash 0 []).putStash 1 []).setFlag F.HUB_PRGSTAT_HOLD false).dropCredits
  let s : State := { s with charter := none, job := {}, engines := [], fre := {}, treeC := [], treeR := [],
                            treeT := [], root := {}, sec := { s.sec with charterDigest := [] } }
  let s := if s.fld F.RST_STAT_STATE = 6 || s.fld F.RST_STAT_STATE = 3 then s.setFld F.RST_STAT_STATE 0 else s
  (s.queueDepths.wr R.HUB_CHSTAT 0).setPair F.HUB_CHID_LO_ID F.HUB_CHID_HI_ID 0

/-- UNLOAD (R472). -/
def execUnload (acc : Nat) (s : State) : Outcome :=
  act s fun s => s.hostCmd acc 4 [] fun s => if s.job.running then s.complete acc 0x32 else s.dropCharter.complete acc 0

/-! ### Aborts (R488, R489) -/

/-- A target completes "aborted", or with another status, with REF its ABORT; the ABORT completes after it. -/
def State.abortDone (s : State) (acc target status : Nat) : State := (s.complete target status acc).complete acc 0 target

/-- The bytes of an aborted command's output range are undefined (R489): free values. -/
def State.scramble (s : State) (p : RedPend) : State :=
  let (n, s) := s.draw
  forEach p.old.zipIdx s (fun s (q : (Nat × Nat × List Byte) × Nat) =>
    s.putPlace q.1.1 p.cmd.tile q.1.2.1 (q.1.2.2.mapIdx (fun i _ => Config.undefinedByte n (65536 * q.2 + i))))

/-- A CHECKPOINT command is over before its checkpoint is (R460, R489): a stream in progress ends with it, and its other commands
complete with a status; a staged or waiting checkpoint goes on for the commands that are left and for the interval (R482). -/
def State.dropCkpt (s : State) (target status : Nat) : State :=
  let hal := s.hal
  let rest (c : Ckpt) : Ckpt := { c with accs := c.accs.filter (· != target) }
  let keep (c : Ckpt) : Bool := !c.accs.contains target || !(rest c).accs.isEmpty || s.chart.ckAt c.step
  let s : State := { s with hal := { hal with ckWant := hal.ckWant.filter (· != target),
                                              ckStaged := (hal.ckStaged.filter keep).map rest,
                                              ckQueue := (hal.ckQueue.filter keep).map rest } }
  match hal.ckStream with
  | some c =>
    if c.accs.contains target then forEach (rest c).accs s.nextStream.releaseEngines (fun s a => s.complete a status)
    else s.releaseEngines
  | none => s.releaseEngines

/-- A target that its unit holds (R489). -/
def State.abortHeld (s : State) (acc target : Nat) (f : Fetched) : State :=
  let op := leAt f.bytes 12 1
  if op = 2 || op = 3 || op = 5 then s.complete acc 4
  else
    match s.tiles.find? (fun e => e.2.redPend.any (fun p => p.cmd.acc == target)) with
    | some e =>
      let x := s.tile e.1
      let s := forEach (x.redPend.filter (fun p => p.cmd.acc == target)) s (fun s p => s.scramble p)
      (s.dropPend e.1 1 (fun p => p.cmd.acc == target)).abortDone acc target 1
    | none =>
      if !f.running then
        (s.forget (· == target)).abortDone acc target 1
      else if op = 6 then (s.dropCkpt target 0x35).abortDone acc target 0x35
      else if op = 10 then
        match s.tiles.find? (fun e => (e.2.test.map (fun r => r.hosts.contains target)).getD false) with
        | some e =>
          let s := (s.abortDone acc target 1)
          let x := s.tile e.1
          let s := s.putTileRec e.1 { x with test := x.test.map (fun r => { r with hosts := r.hosts.filter (· != target) }) }
          s.endTest e.1 5 0
        | none =>
          let drop (x : Tile) : Tile := { x with waiting := x.waiting.filter (fun r => !r.hosts.contains target) }
          let s := forEach (s.tiles.filter (fun e => e.2.waiting.any (fun r => r.hosts.contains target))) s
            (fun s e => s.putTileRec e.1 (drop e.2))
          s.abortDone acc target 1
      else s.abortDone acc target 1

/-- ABORT (R488, R489). -/
def execAbort (acc target : Nat) (s : State) : Outcome :=
  act s fun s => s.hostCmd acc 5 [(16, 8, target)] fun s =>
    let h := accSource target
    if accKind target != 0 then s.complete acc 4
    else if 16 < h || (accSource acc != 16 && h != accSource acc) then s.complete acc 3
    else
      let x := s.halyard h
      if x.pos ≤ target % 2 ^ 48 then s.complete acc 3
      else
        match x.fetched.find? (fun f => f.acc == target) with
        | none => s.complete acc 2 target
        | some f => s.abortHeld acc target f

/-! ### Checkpoints (R482, R487) -/

/-- CHECKPOINT (R482): a checkpoint of the next committed step. -/
def execCheckpoint (acc : Nat) (s : State) : Outcome :=
  act s fun s => s.hostCmd acc 6 [] fun s =>
    let s := s.markRunning acc
    { s with hal := { s.hal with ckWant := s.hal.ckWant ++ [acc] } }

/-- The records in a buffer's bytes, with fuel. -/
def recordsIn : Nat → List Byte → List (List Byte)
  | 0, _ => []
  | f + 1, b => if b.length < 32 then [] else b.take (32 + leAt b 16 4) :: recordsIn f (b.drop (32 + leAt b 16 4))

/-- The records of a stream, from its descriptor list, up to the buffer marked last (R484). -/
def State.streamRecords (s : State) (list : Nat) : Nat → Nat → List (List Byte)
  | 0, _ => []
  | n + 1, i =>
    let d := s.hostBytes (list + 16 * i) 16
    let used := leAt d 12 4
    let rs := recordsIn (used % 2 ^ 31 / 32 + 1) (s.hostBytes (leAt d 0 8) (used % 2 ^ 31))
    if 2 ^ 31 ≤ used then rs else rs ++ s.streamRecords list n (i + 1)

/-- A record's data. -/
def recData (r : List Byte) : List Byte := r.drop 32
/-- An item's records. -/
def itemRecords (rs : List (List Byte)) (kind unit : Nat) : List (List Byte) :=
  rs.filter (fun r => leAt r 0 2 == kind && leAt r 2 2 == unit)
/-- An item's data, each record's at its OFFSET (R484). -/
def itemData (rs : List (List Byte)) (kind unit : Nat) : List Byte :=
  (itemRecords rs kind unit).foldl (fun b r =>
    let off := leAt r 8 8
    padTo off 0 (b.take off) ++ recData r ++ b.drop (off + (recData r).length)) []

/-- Every record's CRC, the SEQ sequence, the END record's count, and the HEAD (R487). -/
def State.streamOk (s : State) (rs : List (List Byte)) : Bool :=
  let crcs := rs.all (fun r => r.length == 32 + leAt r 16 4 && leAt r 28 4 == (crc32c (r.take 28 ++ r.drop 32)).toNat)
  let seqs := (rs.mapIdx (fun i r => leAt r 20 4 == i)).all (fun ok => ok)
  let head := rs.headD []
  let last := rs.getLastD []
  let d := recData head
  let engines := s.ownEngines.all (fun n => (itemData rs 2 n).length == (s.engineState n []).length)
  crcs && seqs && leAt head 0 2 == 1 && leAt last 0 2 == 0xFF && leAt (recData last) 0 4 == rs.length
    && leAt d 0 8 == s.chart.id && leAt d 16 2 == s.devNum && leAt d 20 2 == s.rank && engines

/-- An engine's state written into the slots that are not current, which then become current (R330, R487). -/
def State.restoreEngine (s : State) (n : Nat) (data : List Byte) : State :=
  let g := 8 * s.chart.groups.length
  ((s.shardsAt n).foldl (fun (q : State × List Byte) x =>
    let (s, b) := q
    let slot := 1 - s.curSlot x
    let l := x.shard.length
    let m := 34 * (l / 32)
    let s := s.putMem (x.area slot + 32) (Machine.slice b 32 g)
    let s := (s.putMem (x.area (2 + slot)) (Machine.slice b (32 + g) (2 * l))).putMem (x.area (4 + slot)) (Machine.slice b (32 + g + 2 * l) (2 * l))
    let s := (s.putMem (x.area (6 + slot)) (Machine.slice b (32 + g + 4 * l) m)).putMem (x.area (8 + slot)) (Machine.slice b (32 + g + 4 * l + m) m)
    let s := (s.putMem (x.area slot) (Machine.slice b 0 32)).putMem (x.area (1 - slot)) (zeros 32)
    (s, b.drop (32 + g + 4 * l + 2 * m))) (s, data)).1

/-- A verified stream restored (R487); an injection at point 0x21 fails a scale record's read, which is then lost (R312,
R573). The next START returns the restored parameters to the arrays, whose copies hold no
weights until then (R166), as a first START does (DEDUCED, log 20). -/
def State.restore (s : State) (rs : List (List Byte)) : State :=
  let step := leAt (recData (rs.headD [])) 8 8 + 1
  let s := forEach s.ownEngines s (fun s n => s.restoreEngine n (itemData rs 2 n))
  let s := match s.region 0x0E 0xFFFF with
    | some r =>
      let s := forEach (s.chart.tensors.filter Tensor.scaled).zipIdx s (fun s (q : Tensor × Nat) => s.putMem (r.addr + 80 * q.2) (emptyScale q.1))
      let s := forEach (itemRecords rs 3 0xFFFF) s (fun s q => s.putMem (r.addr + leAt q 8 8) (recData q))
      forEach (s.chart.tensors.filter Tensor.scaled).zipIdx s (fun s (q : Tensor × Nat) =>
        let (hit, s) := s.inject 0x21 0 0 0 0
        if hit then s.putMem (r.addr + 80 * q.2) (emptyScale q.1) else s)
    | none => s
  let s := forEach (itemRecords rs 4 0xFFFF) s (fun s q =>
    forEach (List.range ((recData q).length / 8)) s (fun s i =>
      s.putWatch (leAt q 8 8 / 8 + i) { mu := BitVec.ofNat 32 (leAt (recData q) (8 * i) 4), count := leAt (recData q) (8 * i + 4) 4 }))
  let s := s.setPair F.HUB_STEP_LO_STEP F.HUB_STEP_HI_STEP step
  let s := forEach s.myFeeds s (fun s f =>
    (s.setFld (F.HAL_FDCONS_COUNT f.ring) (step * s.chart.micro)).setFld (F.HAL_FDREL_COUNT f.ring) (step * s.chart.micro))
  let s := forEach (List.range 8) s (fun s n => s.reloadEngine n)
  let j := s.job
  let s : State := { s with job := { j with begun := false, first := step, svfPrev := [], vetoed := [], copyDue := false,
                                            arrived := [], memNew := [] } }
  forEach s.myPlacements s.idleEngines (fun s p =>
    let s := s.dropCopies p.tile p.array
    s.putArr p.tile p.array { s.arr p.tile p.array with startup := true })

/-- RESTORE (R487): a descriptor list in host memory. -/
def execRestore (acc list count : Nat) (s : State) : Outcome :=
  act s fun s => s.hostCmd acc 7 [(16, 8, list), (24, 4, count)] fun s =>
    if s.job.running then s.complete acc 0x32
    else if !s.linkUp then s.complete acc 0x41
    else
      let rs := s.streamRecords list count 0
      let (hit, s) := s.inject 0x22 0 0 0 acc
      if s.charter.isSome && s.streamOk rs && !hit then (s.restore rs).complete acc 0 else s.complete acc 0x34

/-! ### COPY, RETIRE, TEST, TENSOR (R472) -/

/-- A device range overlaps a protected region (R471). -/
def State.protectedRange (s : State) (a n : Nat) : Bool :=
  s.chart.regions.any (fun r => ((2 ≤ r.kind && r.kind ≤ 6) || r.kind == 9 || r.kind == 14) && r.stage == s.stage
    && r.stack != 15 && decide (r.addr < a + n) && decide (a < r.addr + r.length))

/-- COPY's refusal, or 0 (R471, R472, R491). -/
def State.copyRefusal (s : State) (src dst n ss ds : Nat) : Nat :=
  firstRefusal [(decide (1 < ss) || decide (1 < ds), 0x12),
    ((ss == 1 && decide (deviceBytes < src + n)) || (ds == 1 && decide (deviceBytes < dst + n)), 0x14),
    (ds == 1 && s.protectedRange dst n, 0x13), ((ss == 0 || ds == 0) && !s.linkUp, 0x41)]

/-- COPY (R472): n bytes from host (0) or device (1) memory to host or device memory. -/
def execCopy (acc src dst n ss ds : Nat) (s : State) : Outcome :=
  act s fun s => s.hostCmd acc 8 [(16, 8, src), (24, 8, dst), (32, 8, n), (40, 1, ss), (41, 1, ds)] fun s =>
    let r := s.copyRefusal src dst n ss ds
    if r != 0 then s.complete acc r
    else
      let b := if ss = 0 then s.hostBytes src n else s.memBytes src n
      (if ds = 0 then s.putHost dst b else s.putMem dst b).complete acc 0

/-- RETIRE (R472, R195, R198, R200 cause 0x4). -/
def execRetire (acc tile array bank col : Nat) (s : State) : Outcome :=
  act s fun s => s.hostCmd acc 9 [(16, 2, tile), (18, 1, array), (19, 1, bank), (20, 2, col)] fun s =>
    if 512 ≤ tile || 8 ≤ array || 2 ≤ bank || 512 ≤ col then s.complete acc 0x12
    else (s.retire tile array bank col 4).complete acc 0

/-- TEST's refusal, or 0 (R567, R472). -/
def testRefusal (tile kind mode subject : Nat) : Nat :=
  firstRefusal [(decide (512 ≤ tile) || decide (kind < 1) || decide (5 < kind) || decide (2 < mode), 0x12),
    (kind == 1 && (decide (8192 ≤ subject) || decide (512 ≤ subject % 1024)), 0x12),
    ((kind == 2 || kind == 4) && decide (8 ≤ subject), 0x12),
    ((kind == 3 || kind == 5) && decide (65536 ≤ subject), 0x12)]

/-- TEST (R567, R571): it completes once its verdict is recorded. -/
def execTest (acc tile kind mode subject : Nat) (s : State) : Outcome :=
  act s fun s => s.hostCmd acc 10 [(16, 2, tile), (18, 1, kind), (19, 1, mode), (20, 4, subject)] fun s =>
    let r := testRefusal tile kind mode subject
    if r != 0 then s.complete acc r
    else
      let array := if kind = 1 then subject / 1024 else if kind = 2 || kind = 4 then subject else 0
      let col := if kind = 1 then subject % 1024 else 0
      let steps := if kind = 3 || kind = 5 then subject else 0
      (s.markRunning acc).requestTest tile kind mode array col steps (some acc)

/-- TENSOR's refusal, or 0 (R394, R395, R472). -/
def tensorRefusal (b : List Byte) : Nat :=
  let x := tensorOf b
  firstRefusal [((reservedBits 2).any (fun q => leAt b q.1 1 &&& q.2 != 0) || !(reservedCode 2 b).isEmpty, 0x12),
    (decide (x.id < 0xFFFF0000) || x.base % 16 != 0 || x.pitch % 16 != 0 || decide (x.pitch < x.rowBytes) || x.rows == 0
      || x.rowlen == 0 || (x.param && descCode x.desc != 1) || decide (x.room < x.endByte), 0x14)]

/-- TENSOR (R472): a host tensor's layout stored. -/
def execTensor (acc : Nat) (record : List Byte) (s : State) : Outcome :=
  act s fun s => s.hostCmd acc 11 [(16, 48, leNat record)] fun s =>
    let r := tensorRefusal record
    if r != 0 then s.complete acc r
    else
      let x := tensorOf record
      { s with hal := { s.hal with tensors := s.hal.tensors.filter (fun (y : Tensor) => y.id != x.id) ++ [x] } }.complete acc 0

/-! ### The host link (R460, R490 to R492) and the memory window (R457) -/

/-- The halyards. -/
def allHalyards : List Nat := List.range 17

/-- HOST_LINK_DOWN (R490). -/
def execHostLinkDown (s : State) : Outcome :=
  act s fun s =>
    if s.hal.linkUp then
      let s := { s with hal := { s.hal with linkUp := false } }.event F.HAL_GEVT_LINKDOWN
      forEach allHalyards s (fun s h => s.setFlag (F.HAL_STAT_LINKHOLD h) true)
    else s

/-- HOST_LINK_RETRAIN (R492, R690): the link carries traffic, unless PERST_N holds it in reset. -/
def execHostLinkRetrain (s : State) : Outcome :=
  act s fun s =>
    if s.power.perst then s
    else
      let s : State := { s with hal := { s.hal with linkUp := true } }
      forEach allHalyards s (fun s h => (s.setFlag (F.HAL_STAT_LINKHOLD h) false).drainHeld h)

/-- HOST_MEMORY_FAULT (R460): a read for a command that reads host memory failed; the error is reported through AER, and a
checkpoint's stream ends. -/
def execHostMemoryFault (acc : Nat) (s : State) : Outcome :=
  act s fun s =>
    let reads (f : Fetched) : Bool := [6, 7, 8].contains (leAt f.bytes 12 1)
    if (s.halyard (accSource acc)).fetched.any (fun f => f.acc == acc && reads f) then
      ((({ s with hal := { s.hal with aer := s.hal.aer + 1 } } : State).dropCkpt acc 0x35)).complete acc 0x40
    else s

/-- The device address that a BAR2 offset reaches (R457). -/
def State.window (s : State) (y : Nat) : Nat := s.pair F.HAL_WIN_LO_BASE F.HAL_WIN_HI_BASE + y

/-- BAR2_WRITE (R457). -/
def execBar2Write (offset : Nat) (bytes : List Byte) (s : State) : Outcome :=
  act s fun s =>
    if !s.linkUp || s.inRecovery || 2 ^ (30 + s.hal.bar2) < offset + bytes.length then s
    else if s.window offset + bytes.length ≤ deviceBytes then s.putMem (s.window offset) bytes
    else s.event F.HAL_GEVT_WINRANGE

/-- What a BAR2 read of n bytes at an offset returns (R457). -/
def State.bar2Read (s : State) (y n : Nat) : List Byte :=
  if s.window y + n ≤ deviceBytes then s.memBytes (s.window y) n else List.replicate n 0xFF

/-- BAR2_OUT_OF_RANGE (R457): an access of n bytes beyond device memory; a read returns all ones. -/
def execBar2OutOfRange (offset n : Nat) (write : Bool) (s : State) : Outcome :=
  act s fun s =>
    if !s.linkUp || s.inRecovery || s.window offset + n ≤ deviceBytes then s
    else
      let s := s.event F.HAL_GEVT_WINRANGE
      if write then s else { s with readData := leNat (s.bar2Read offset n) }

end Sys2Proof.Machine
end

