-- ==== Sys2Proof/Machine/Fabric.lean ====
section
/-! DEFINITION. The fabric's ports, link frames, message delivery and discovery (13_fabric.md).
-/

namespace Sys2Proof.Machine

/-- A fabric fault (R433, R437, R441, R444, R579). -/
def State.fabricFault (s : State) (ukind unit acc : Nat) : State := s.raiseFault 0x14 ukind unit acc false

/-- This device's serial (R454). -/
def mySerial : Nat := Config.serial.toNat

/-- A port is held down (R454). -/
def State.portDisabled (s : State) (p : Nat) : Bool := s.fld (F.FAB_PSTAT_STATE p) == 4

/-! ### Graph and tables (R446 to R449) -/

/-- The graph's entry of a serial. -/
def nodeOf (g : List GraphNode) (serial : Nat) : Option GraphNode := g.find? (fun n => n.serial == serial)

/-- The numbering table that this device holds (R447): the host's, else the flash charter's DEVICES. -/
def State.numTable (s : State) : List (Nat × Nat) :=
  let n := s.fld F.FAB_DNUMCNT_COUNT
  if n != 0 then
    (List.range n).map (fun i =>
      let e := s.memBytes (s.window (s.fld F.FAB_DNUMTAB_OFFSET) + 16 * i) 16
      (leAt e 0 8, leAt e 8 2))
  else if s.sec.bootCharter = 0 then []
  else
    let b := s.memBytes Config.flashCharterAddr s.sec.bootCharter
    if (badContainer b).isEmpty then (parseCharter b).devices.map (fun d => (d.serial, d.device)) else []

/-- This device's announcement (R446, R447): its serial, the root it names, with the table that names it, its up ports with their
neighbours. -/
def State.announcement (s : State) (nominee : Option Nat) : GraphNode :=
  { serial := mySerial, nominee, table := s.numTable,
    links := ((List.range 32).filter (fun p => s.portUp p && s.flag (F.FAB_PSTAT_NBRV p))).map (fun p =>
      (p, s.pair (F.FAB_PNBR_LO_SERIAL p) (F.FAB_PNBR_HI_SERIAL p), s.fld (F.FAB_PNBRDEV_PORT p))) }

/-- The frontier of a breadth-first search pushed outward, with fuel: serials and their distances. -/
def expand (g : List GraphNode) : Nat → Nat → List Nat → List (Nat × Nat) → List (Nat × Nat)
  | 0, _, _, seen => seen
  | f + 1, d, front, seen =>
    let next := (g.filter (fun v => v.links.any (fun l => front.contains l.2.1)
      && !seen.any (fun q => q.1 == v.serial))).map (·.serial)
    if next.isEmpty then seen else expand g f (d + 1) next (seen ++ next.map (fun n => (n, d + 1)))

/-- Up to four ports of a device, in ascending number, on minimum-hop paths to the targets (R449). -/
def hopPorts (g : List GraphNode) (x : Nat) (targets : List Nat) : List Nat :=
  let ds := expand g g.length 0 targets (targets.map (fun t => (t, 0)))
  let dist (n : Nat) : Option Nat := (ds.find? (fun q => q.1 == n)).map (·.2)
  match nodeOf g x, dist x with
  | some v, some (d + 1) => (((v.links.filter (fun l => dist l.2.1 == some d)).map (·.1)).mergeSort (· ≤ ·)).take 4
  | _, _ => []

/-- A routing table entry that names ports in slots 0 to 3 (R454). -/
def entryWord (ps : List Nat) : W32 := pack (ps.mapIdx (fun k p => (5 * k, p)) ++ ps.mapIdx (fun k _ => (20 + k, 1)))

/-- A device's group and member tables (R449). Only numbered devices forward messages (R448). -/
def tablesOf (g : List GraphNode) (nums : List (Nat × Nat)) (x num : Nat) : List W32 × List W32 :=
  let g := g.filter (fun v => nums.any (fun n => n.1 == v.serial))
  let own := groupOfDev num
  let mates := g.filter (fun v => nums.any (fun n => n.1 == v.serial && groupOfDev n.2 == own))
  let grp := (List.range 256).map (fun k => if k = own then entryWord []
    else entryWord (hopPorts g x ((nums.filter (fun n => groupOfDev n.2 == k)).map (·.1))))
  let mem := (List.range 256).map (fun m =>
    match nums.find? (fun n => n.2 == 256 * own + m && n.1 != x) with
    | some n => let inner := hopPorts mates x [n.1]
                entryWord (if inner.isEmpty then hopPorts g x [n.1] else inner)
    | none => entryWord [])
  (grp, mem)

/-- This device numbers the fabric (R447). -/
def State.isRoot (s : State) : Bool := s.pair F.FAB_ROOT_LO_SERIAL F.FAB_ROOT_HI_SERIAL == mySerial && s.fld F.FAB_EPOCH_EPOCH != 0

/-- Messages that waited for a usable port leave on one, where they can (R444). -/
def State.retryWait (s : State) : State :=
  let ms := s.fab.wait
  forEach ms { s with fab := { s.fab with wait := [] } } (fun s m => s.emit m (m.src == s.devNum))

/-- A table set switched in (R449, R452 to R454): the ports that are up and that it names carry traffic. -/
def State.tableSet (s : State) (root num epoch : Nat) (grp mem : List W32) : State :=
  let s := s.wr R.FAB_DEVNUM (pack [(31, 1), (0, num % 65536)])
  let s := forEach (List.range 256) s (fun s k =>
    (s.wr (R.FAB_GRPTBL k) (grp.getD k 0 &&& 0xFFFFFF)).wr (R.FAB_MEMTBL k) (mem.getD k 0 &&& 0xFFFFFF))
  let s := if s.fld F.FAB_EPOCH_EPOCH = epoch then s else (s.setFld F.FAB_EPOCH_EPOCH epoch).event F.FAB_EVT_DISC
  let s := (s.bump F.FAB_CNT_TABLE_COUNT 1).event F.FAB_EVT_TABLE
  let s : State := { s with fab := { s.fab with rootDev := root } }
  let named (p : Nat) : Bool := (grp ++ mem).any (fun w => (entryPorts w).contains p)
  let s := forEach ((List.range 32).filter (fun p => s.portUp p && named p)) s (fun s p => s.putPort p { s.port p with joined := true })
  s.retryWait

/-- The content of a table-set message (DESIGN CHOICE, log 23: R449 gives no layout). -/
def tableBytes (num epoch : Nat) (t : List W32 × List W32) : List Byte :=
  leBytes 2 num ++ leBytes 4 epoch ++ (t.1 ++ t.2).flatMap (fun w => leBytes 4 w.toNat)

/-- The root computes and sends every device's tables (R449). -/
def State.distribute (s : State) : State :=
  let f := s.fab
  let epoch := s.fld F.FAB_EPOCH_EPOCH
  let here := f.numbers.filter (fun n => f.graph.any (fun v => v.serial == n.1))
  let s := match here.find? (fun n => n.1 == mySerial) with
    | some n => let t := tablesOf f.graph here mySerial n.2
                s.tableSet n.2 n.2 epoch t.1 t.2
    | none => s
  forEach (here.filter (fun n => n.1 != mySerial)) s (fun s n =>
    s.sendCtrl n.2 0xC1 0 (tableBytes n.2 epoch (tablesOf f.graph here n.1 n.2)))

/-- The lowest of some numbers. -/
def least : List Nat → Option Nat
  | [] => none
  | x :: xs => match least xs with | some y => some (min x y) | none => some x

/-- Device numbers (R448, R452): from the table, or in ascending serial for a discovery; a device that joins later takes
the lowest free number. -/
def assignNumbers (tbl : List (Nat × Nat)) (g : List GraphNode) (old : List (Nat × Nat)) : List (Nat × Nat) :=
  let serials := (g.map (·.serial)).mergeSort (· ≤ ·)
  if !tbl.isEmpty then serials.filterMap (fun x => tbl.find? (fun e => e.1 == x))
  else if old.isEmpty then serials.mapIdx (fun i x => (x, i))
  else (serials.filter (fun x => !old.any (fun e => e.1 == x))).foldl (fun ns x =>
    ns ++ [(x, (least ((List.range (ns.length + 1)).filter (fun k => !ns.any (fun e => e.2 == k)))).getD 0)]) old

/-- The numbering root has learnt a changed graph (R451, R452): numbers, by the table of the last discovery (R450), tables,
redistribution. -/
def State.rebuild (s : State) (g : List GraphNode) : State :=
  let numbers := assignNumbers s.fab.table g s.fab.numbers
  ({ s with fab := { s.fab with graph := g, numbers } } : State).distribute

/-- A graph with one node replaced. -/
def putNode (g : List GraphNode) (n : GraphNode) : List GraphNode := g.filter (fun v => v.serial != n.serial) ++ [n]

/-- The content of an announcement (DESIGN CHOICE, log 23: R446 gives no layout). -/
def nodeBytes (n : GraphNode) : List Byte :=
  leBytes 8 n.serial ++ leBytes 1 (b2n n.nominee.isSome) ++ leBytes 8 (n.nominee.getD 0) ++ leBytes 1 n.links.length
    ++ n.links.flatMap (fun l => leBytes 1 l.1 ++ leBytes 8 l.2.1 ++ leBytes 1 l.2.2)

/-- A link-local announcement on an up port (R446), and the numbering table of the root that it names (R447, R448), in parts (DESIGN
CHOICE, log 23). -/
def State.announceOn (s : State) (p : Nat) (n : GraphNode) : State :=
  let m (kind : Nat) (b : List Byte) : Msg := { dest := 0xFFFF, src := s.devNum, cls := 0, payload := ctrlFrame kind 0 b }
  forEach (chunks 4096 n.table) (s.onPort p (m 0xC0 (nodeBytes n))) (fun s es =>
    s.onPort p (m 0xC3 (leBytes 8 n.serial ++ es.flatMap (fun e => leBytes 8 e.1 ++ leBytes 2 e.2))))

/-- An announcement flooded on every up port but one (R446). -/
def State.flood (s : State) (skip : Option Nat) (n : GraphNode) : State :=
  forEach ((List.range 32).filter (fun p => s.portUp p && skip != some p)) s (fun s p => s.announceOn p n)

/-- The root that this device names (R447). -/
def State.nominee (s : State) : Option Nat := s.numTable.head?.map (·.1)

/-! ### Ports (R420 to R429, R451 to R453) -/

/-- A port's state while it is down, held down or training (R454): the lane order and the inversions stay until it next trains
(R422). -/
def State.portState (s : State) (p st : Nat) : State :=
  ((s.setFld (F.FAB_PSTAT_STATE p) st).setFld (F.FAB_PSTAT_LANES p) 0).setFlag (F.FAB_PSTAT_NBRV p) false

/-- A port goes down (R425, R429, R451): it leaves every usable set, its unacknowledged messages leave whole on other
ports, and the root learns of the loss. -/
def State.portDown (s : State) (p next : Nat) : State :=
  let x := s.port p
  let s := s.portState p next
  let s := (s.event (F.FAB_PEVT_DOWN p)).bump (F.FAB_PCNT_DOWN_COUNT p) 1
  let s := s.putPort p { whole := x.whole }
  let s := forEach x.msgs s (fun s m => if m.linkLocal then s else s.emit m (m.src == s.devNum))
  if s.fld F.FAB_EPOCH_EPOCH = 0 then s
  else if s.isRoot then s.rebuild (putNode s.fab.graph (s.announcement s.nominee))
  else s.sendCtrl s.fab.rootDev 0xC2 0 (leBytes 8 mySerial ++ leBytes 1 p ++ zeros 7)

/-- Unacknowledged frames from a SEQ on are resent (R424); a frame already sent 16 times takes the port down (R425). -/
def State.resendFrames (s : State) (p : Nat) (again : Frame → Bool) : State :=
  let x := s.port p
  if x.buf.any (fun f => again f && decide (16 ≤ f.sends)) then (s.event (F.FAB_PEVT_RETRYLIM p)).portDown p 0
  else
    let s := s.putPort p { x with buf := x.buf.map (fun f => if again f then { f with sends := f.sends + 1 } else f) }
    let s := forEach (x.buf.filter again) s (fun s f => s.transmit p f.seq f.vc f.flags f.data)
    s.bump (F.FAB_PCNT_RETRY_COUNT p) (x.buf.filter again).length

/-- The messages in flight without the one whose last frame has been acknowledged: the oldest of its class, whose frames
leave in order (R435). -/
def doneMsg (ms : List Msg) (f : Frame) : List Msg :=
  if f.flags / 2 % 2 = 1 then (match ms.find? (fun m => m.cls % 8 == f.vc % 8) with | some m => ms.erase m | none => ms) else ms

/-- Frames that an ACK covers leave the replay buffer (R424), and messages whose last frame they are (R435); the frames that wait
for its space enter only once a NAK that comes with the ACK is answered. -/
def State.ackFrames (s : State) (p ack : Nat) : State :=
  let x := s.port p
  match x.buf.findIdx? (fun f => f.seq == ack) with
  | some i => s.putPort p { x with buf := x.buf.drop (i + 1), msgs := (x.buf.take (i + 1)).foldl doneMsg x.msgs }
  | none => s

/-- A port trains (R420 to R422, R452). -/
def State.train (s : State) (p : Nat) (t : Training) : State :=
  let got := (List.range 4).filter (fun k => decide (t.lanes.getD k 4 < 4))
  let straight := got.all (fun k => t.lanes.getD k 4 == k)
  let reversed := got.all (fun k => t.lanes.getD k 4 == 3 - k)
  if !(straight || reversed) then (s.setFld (F.FAB_PSTAT_STATE p) 1).event (F.FAB_PEVT_MAP p)
  else if got.length < 3 then s.setFld (F.FAB_PSTAT_STATE p) 1
  else
    let lanes := (got.map (2 ^ ·)).sum
    let s := s.wr (R.FAB_PSTAT p) (pack [(28, if got.length = 4 then 2 else 3), (24, lanes), (23, b2n (!straight)),
      (19, t.inverted &&& lanes), (18, 1)])
    let s := s.setPair (F.FAB_PNBR_LO_SERIAL p) (F.FAB_PNBR_HI_SERIAL p) t.serial
    let s := s.wr (R.FAB_PNBRDEV p) (pack [(21, b2n t.dev.isSome), (16, t.port % 32), (0, t.dev.getD 0 % 65536)])
    let s := (s.setFld (F.FAB_PRTT_RTT p) t.rtt).event (F.FAB_PEVT_UP p)
    let s := s.putPort p { whole := (s.port p).whole }
    if s.fld F.FAB_EPOCH_EPOCH = 0 then s
    else
      let n := s.announcement s.nominee
      let s : State := { s with fab := { s.fab with graph := putNode s.fab.graph n } }
      (if s.isRoot then s.rebuild s.fab.graph else s).flood none n

/-- LINK_TRAINING (R420, R421): signal is detected on a port that is down or trains. -/
def execLinkTraining (p : Nat) (t : Training) (s : State) : Outcome :=
  act s fun s => if s.portLit p && decide (s.fld (F.FAB_PSTAT_STATE p) ≤ 1) then s.train p t else s

/-- TRAINING_RETRY (R421): an untrained port with signal trains again. -/
def execTrainingRetry (p : Nat) (t : Training) (s : State) : Outcome :=
  act s fun s => if s.fld (F.FAB_PSTAT_STATE p) = 1 then s.train p t else s

/-- Steps 2 to 4 of a lane-loss retrain run (R428): 32 µs since the loss. -/
def State.retraining (s : State) (p : Nat) : Bool :=
  match (s.port p).lostAt with
  | some t => decide (s.osc < t + 3200)
  | none => false

/-- A lane lost (R428, R429): the port continues on three lanes, or goes down at a second loss. A loss while the retrain runs
restarts it on two lanes, with which the port stays untrained (R421; DEDUCED, log 23). -/
def State.laneLost (s : State) (p lane : Nat) : State :=
  if s.portUp p && (s.fld (F.FAB_PSTAT_LANES p)).testBit lane then
    let three := s.fld (F.FAB_PSTAT_STATE p) == 3
    let s := (s.event (F.FAB_PEVT_LANELOSS p)).bump (F.FAB_PCNT_LANELOSS_COUNT p) 1
    if three then s.portDown p (if s.retraining p then 1 else 0)
    else
      let s := (s.setFld (F.FAB_PSTAT_STATE p) 3).setFld (F.FAB_PSTAT_LANES p) (s.fld (F.FAB_PSTAT_LANES p) - 2 ^ lane)
      let s := s.putPort p { s.port p with lostAt := some s.osc }
      (s.recordFault 0x01 0x3 p 0).resendFrames p (fun _ => true)
  else s

/-- A received frame's data joins its message; the last frame completes it (R423, R435). -/
def State.takeData (s : State) (p vc flags : Nat) (data : List Byte) : State :=
  let x := s.port p
  let got := (if flags % 2 = 1 then [] else lookup (fun _ => []) x.parts vc) ++ data
  let s := s.bumpPair (F.FAB_PCNT_RX_LO_COUNT p) (F.FAB_PCNT_RX_HI_COUNT p) data.length
  if flags / 2 % 2 = 1 then
    s.putPort p { x with parts := store (fun _ => []) x.parts vc [], whole := x.whole ++ [got] }
  else s.putPort p { x with parts := store (fun _ => []) x.parts vc got }

/-- A frame's LEN agrees with its data (R423): 1 to 1,024 bytes, or none with ACKONLY. -/
def frameLength (b : List Byte) (n : Nat) : Bool :=
  if leAt b 5 1 / 8 % 2 = 1 then leAt b 6 2 == 0 && n == 8
  else leAt b 6 2 + 1 == n - 8 && decide (n - 8 ≤ 1024)

/-- LINK_FRAME (R423, R424, R426): a frame's bytes arrive at a port. It is acknowledged, or answered with a NAK, by a frame with no
data, which takes no sequence number, and whose ACK field names what was received in order (DEDUCED, log 23). -/
def execLinkFrame (p : Nat) (b : List Byte) (s : State) : Outcome :=
  act s fun s =>
    if !s.portUp p then s
    else
      let (lost, s) := (List.range 4).foldl (fun (q : Option Nat × State) k =>
        match q.1 with
        | some _ => q
        | none => let (hit, s) := q.2.inject 0x0E p k 0 0
                  (if hit then some k else none, s)) (none, s)
      match lost with
      | some k => s.laneLost p k
      | none =>
        let x := s.port p
        let n := b.length - 4
        let flags := leAt b 5 1
        let ackOnly := flags / 8 % 2 == 1
        let ok := decide (12 ≤ b.length) && leAt b n 4 == (crc32c (b.take n)).toNat && frameLength b n
          && (ackOnly || leAt b 0 2 == x.rxSeq)
        if !ok then
          ((s.bump (F.FAB_PCNT_CRC_COUNT p) 1).putPort p { x with nak := some x.rxSeq }).transmit p x.txSeq 0 0xC []
        else
          let s := s.ackFrames p (leAt b 2 2)
          let s := if flags / 4 % 2 = 1 then s.resendFrames p (fun _ => true) else s
          let s := s.fillReplay ((s.port p).queue.length + 1) p
          if ackOnly || !s.portUp p then s
          else
            let s := s.putPort p { s.port p with rxSeq := (x.rxSeq + 1) % 65536, nak := none }
            (s.takeData p (leAt b 4 1) flags (slice b 8 (n - 8))).transmit p (s.port p).txSeq 0 8 []

/-- RETRY_TIMEOUT (R424, R425). -/
def execRetryTimeout (p : Nat) (s : State) : Outcome :=
  act s fun s => if s.portUp p then s.resendFrames p (fun _ => true) else s

/-- LANE_LOSS (R428, R429, R579 class 0x01); uncorrectable codewords that led to it are counted. -/
def execLaneLoss (p lane uncorrectable : Nat) (s : State) : Outcome :=
  act s fun s => (s.bump (F.FAB_PCNT_FECUNC_COUNT p) uncorrectable).laneLost p lane

/-- PORT_DOWN (R451): every lane has lost its signal. -/
def execPortDown (p : Nat) (s : State) : Outcome :=
  act s fun s =>
    if s.portUp p then s.portDown p 0
    else if s.fld (F.FAB_PSTAT_STATE p) = 1 then s.setFld (F.FAB_PSTAT_STATE p) 0 else s

/-- RETRAIN (R429, R454). -/
def execRetrain (p : Nat) (s : State) : Outcome :=
  hostReg (R.FAB_PCTRL p) s fun s => if s.portUp p then s.portDown p 1 else s

/-- PORT_ENABLE_WRITE (R454). -/
def execPortEnableWrite (p : Nat) (enable : Bool) (s : State) : Outcome :=
  hostReg (R.FAB_PCTRL p) s fun s =>
    let s := s.setFlag (F.FAB_PCTRL_ENABLE p) enable
    if enable then (if s.portDisabled p then s.portState p 0 else s)
    else if s.portUp p then s.portDown p 4 else s.portState p 4

/-- FAB_CNT_CLR (R454). -/
def execFabCntClr (s : State) : Outcome :=
  hostReg R.FAB_DCTRL s fun s => s.clearRegs (fun o =>
    (R.FAB_CNT_HOPDROP ≤ o && o ≤ R.FAB_CNT_PCRC)
      || (R.FAB_PCTRL 0 ≤ o && o < R.FAB_PCTRL 0 + 32 * 0x80
          && R.FAB_PCNT_RETRY 0 ≤ (o - R.FAB_PCTRL 0) % 0x80 + R.FAB_PCTRL 0
          && (o - R.FAB_PCTRL 0) % 0x80 + R.FAB_PCTRL 0 ≤ R.FAB_PCNT_RX_HI 0))

/-! ### Messages (R433 to R444) -/

/-- Held messages of a flow whose turn has come (R437), with fuel; a second copy is then below what is expected, a duplicate. -/
def State.releaseFlow (fuel : Nat) (s : State) (k : Nat) : State :=
  match fuel with
  | 0 => s
  | n + 1 =>
    let e := lookup (fun _ => 0) s.fab.rx k
    match s.fab.held.find? (fun m => 8 * m.src + m.cls == k && m.flow == e) with
    | some m =>
      let same (h : Msg) : Bool := 8 * h.src + h.cls == k && h.flow == e
      let dups := (s.fab.held.filter same).length - 1
      let s : State := { s with fab := { s.fab with held := s.fab.held.filter (fun h => !same h), rx := store (fun _ => 0) s.fab.rx k ((e + 1) % 2 ^ 32) } }
      State.releaseFlow n ((s.bump F.FAB_CNT_DUP_COUNT dups).deliver m) k
    | none => s

/-- The message's accession number (R430, R436). -/
def Msg.acc (m : Msg) : Nat := m.src * 2 ^ 48 + m.count

/-- A flow gap timed out (R437). -/
def State.gapFault (s : State) (acc : Nat) : State := (s.event F.FAB_EVT_GAP).fabricFault 0x9 0 acc

/-- Delivery in flow order (R437). -/
def State.arriveLocal (s : State) (m : Msg) : State :=
  let k := 8 * m.src + m.cls
  let e := lookup (fun _ => 0) s.fab.rx k
  let d := (m.flow + 2 ^ 32 - e) % 2 ^ 32
  if d = 0 then
    let s : State := { s with fab := { s.fab with rx := store (fun _ => 0) s.fab.rx k ((e + 1) % 2 ^ 32) } }
    ((s.deliver m).releaseFlow (s.fab.held.length + 1) k).rbackCheck
  else if 2 ^ 31 ≤ d then s.bump F.FAB_CNT_DUP_COUNT 1
  else
    let s := ({ s with fab := { s.fab with held := s.fab.held ++ [m] } } : State).bump F.FAB_CNT_REORDER_COUNT 1
    let (hit, s) := s.inject 0x0F 0 0 0 m.acc
    if hit then s.gapFault m.acc else s

/-- A message discarded under R431 or R441. -/
def State.hopDrop (s : State) (p : Nat) (m : Msg) : State :=
  ((s.bump F.FAB_CNT_HOPDROP_COUNT 1).event F.FAB_EVT_HOPS).fabricFault 0x3 p m.acc

/-- The payload CRC at a message's destination holds (R430, R433). -/
def payloadOk (b : List Byte) (m : Msg) : Bool := leAt b (32 + m.payload.length) 4 == (crc32c m.payload).toNat

/-- A message discarded for its payload CRC (R433). -/
def State.payloadFault (s : State) (p acc : Nat) : State :=
  ((s.bump F.FAB_CNT_PCRC_COUNT 1).event F.FAB_EVT_PCRC).fabricFault 0x3 p acc

/-- A whole message looked at by this hop (R433, R439, R441). A link-local one goes no further (R446): what it announces is the
command DISCOVERY_ANNOUNCEMENT. -/
def State.arrive (s : State) (p : Nat) (b : List Byte) : State :=
  let m := msgOf b (Machine.slice b 32 (leAt b 20 4))
  if leAt b 28 4 != (crc32c (b.take 28)).toNat then s.fabricFault 0x3 p 0
  else if 5 ≤ m.cls % 8 then s.bump F.FAB_CNT_HOPDROP_COUNT 1
  else if m.linkLocal then
    if payloadOk b m then s.deliver m else s.payloadFault p m.acc
  else if !s.flag F.FAB_DEVNUM_VALID then s
  else if m.dest = s.devNum then
    let (hit, s) := s.inject 0x0D 0 0 0 m.acc
    if hit || !payloadOk b m then s.payloadFault p m.acc else s.arriveLocal m
  else
    let (hit, s) := s.inject 0x10 0 0 0 m.acc
    if hit || m.hops == 0 then s.hopDrop p m else s.emit { m with hops := m.hops - 1 } false

/-- FABRIC_MESSAGE (R433, R437, R439 to R444): the oldest message that a port has received whole. -/
def execFabricMessage (p : Nat) (s : State) : Outcome :=
  act s fun s =>
    let x := s.port p
    match x.whole with
    | [] => s
    | b :: bs => (s.putPort p { x with whole := bs }).arrive p b

/-- FLOW_GAP_TIMEOUT (R437): the gap of a flow has stayed open for 1 ms. -/
def execFlowGapTimeout (src cls : Nat) (s : State) : Outcome :=
  act s fun s =>
    match s.fab.held.find? (fun m => m.src == src && m.cls == cls) with
    | some m => s.gapFault m.acc
    | none => s

/-- UNREACHABLE_TIMEOUT (R444): messages have waited 40 µs, and stay held. -/
def execUnreachableTimeout (s : State) : Outcome :=
  act s fun s =>
    match s.fab.wait with
    | m :: _ => (s.event F.FAB_EVT_UNREACH).fabricFault 0x9 0 m.acc
    | [] => s

/-! ### Discovery (R445 to R452) -/

/-- A discovery with the announcements of every other device in the graph, each with the port it first arrived on (R445
to R449). -/
def State.discover (s : State) (others : List (Nat × GraphNode)) : State :=
  let n := s.announcement s.nominee
  let others := others.filter (fun v => v.2.serial != mySerial)
  let g := n :: others.map (·.2)
  let root := ((least (g.filterMap (·.nominee))).getD ((least (g.map (·.serial))).getD 0))
  let s := s.flood none n
  let s := forEach others s (fun s v => s.flood (some v.1) v.2)
  let s := s.setPair F.FAB_ROOT_LO_SERIAL F.FAB_ROOT_HI_SERIAL root
  let s := s.wr R.FAB_DEVNUM 0
  let table := ((g.find? (fun v => v.nominee == some root)).map (·.table)).getD []
  let s : State := { s with fab := { s.fab with tx := [], rx := [], held := [], graph := g, numbers := [], table } }
  if root = mySerial then
    let s := (s.setFld F.FAB_EPOCH_EPOCH (s.fld F.FAB_EPOCH_EPOCH + 1)).event F.FAB_EVT_DISC
    s.rebuild g
  else s

/-- The ensign loads a flash charter after the boot discovery (R650 step 9), or once a Steward holds the token (R43). -/
def State.flashLoad (s : State) : State :=
  if s.sec.bootLoad && s.flag F.FAB_DEVNUM_VALID && s.ens.up != 0 then
    let s : State := { s with sec := { s.sec with bootLoad := false } }
    (s.loadCharter (s.memBytes Config.flashCharterAddr s.sec.bootCharter)).2
  else s

/-- DISCOVERY (R445 to R449). -/
def execDiscovery (others : List (Nat × GraphNode)) (s : State) : Outcome := act s fun s => (s.discover others).flashLoad

/-- DISCOVERY_ANNOUNCEMENT (R446, R452): it is forwarded once; after discovery the root numbers a device that it did not
know. -/
def execDiscoveryAnnouncement (p : Nat) (n : GraphNode) (s : State) : Outcome :=
  act s fun s =>
    if !s.portUp p || s.fab.graph.contains n || n.serial == mySerial then s
    else
      let s : State := { s with fab := { s.fab with graph := putNode s.fab.graph n } }
      let s := s.flood (some p) n
      if s.isRoot then s.rebuild s.fab.graph else s

/-- TABLE_SET (R449, R453): number, epoch and tables from the root. -/
def execTableSet (root : W16) (num : W16) (epoch : W32) (grp mem : List W32) (s : State) : Outcome :=
  act s fun s => (s.tableSet root.toNat num.toNat epoch.toNat grp mem).flashLoad

/-- DCTRL_START (R445): a charter that is loaded refuses it; otherwise a discovery runs. -/
def execDctrlStart (others : List (Nat × GraphNode)) (s : State) : Outcome :=
  hostReg R.FAB_DCTRL s fun s => if s.fld F.HUB_CHSTAT_STATE = 2 then s.event F.FAB_EVT_DREFUSE else s.discover others

/-- PORT_LOSS_REPORT (R451): the root drops the link of a device's port and redistributes the tables. -/
def execPortLossReport (serial : W64) (port : Nat) (s : State) : Outcome :=
  act s fun s =>
    if !s.isRoot then s
    else
      let far := ((nodeOf s.fab.graph serial.toNat).bind (fun v => v.links.find? (fun l => l.1 == port))).map (·.2)
      let cut (v : GraphNode) : GraphNode :=
        if v.serial = serial.toNat then { v with links := v.links.filter (fun l => l.1 != port) }
        else if far.map (·.1) = some v.serial then { v with links := v.links.filter (fun l => some l.1 != far.map (·.2)) }
        else v
      s.rebuild (s.fab.graph.map cut)

end Sys2Proof.Machine
end

