-- ==== Sys2Proof/Machine/Ledger.lean ====
section
/-! DEFINITION. The ledger (R659 to R668, R670): records, batches, replay at boot, compaction, and the host's commands.
-/

namespace Sys2Proof.Machine

/-- The value length of a record type (R666), or none for a type that the table does not list. -/
def ledgerLen (type : Nat) : Option Nat :=
  (([(0x10, 4), (0x11, 4), (0x12, 384), (0x13, 8), (0x14, 4), (0x15, 4), (0x20, 4), (0x21, 1066), (0x22, 64), (0x23, 4),
    (0x24, 4), (0x25, 0)] : List (Nat × Nat)).find? (fun e => e.1 == type)).map (·.2)

/-- A record's bytes (R660). -/
def recordOf (type key acc : Nat) (value : List Byte) : List Byte :=
  let body := leBytes 2 type ++ leBytes 2 value.length ++ leBytes 4 key ++ leBytes 8 acc ++ value
    ++ zeros (roundUp value.length 8 - value.length)
  body ++ leBytes 4 (crc32c body).toNat ++ zeros 4

/-- The accession number of a ledger count (R660). -/
def ledgerAcc (count : Nat) : Nat := 0xC100 * 2 ^ 48 + count % 2 ^ 48

/-- A request's record. -/
def LdgReq.record (q : LdgReq) (count : Nat) : List Byte :=
  recordOf (if q.delete then q.type + 2 ^ 15 else q.type) q.key (ledgerAcc count) (if q.delete then [] else q.value)

/-- A batch: its records and its commit marker (R661). -/
def batchBytes (recs : List (List Byte)) (lastAcc : Nat) : List Byte :=
  let b := recs.flatten
  b ++ recordOf 1 recs.length lastAcc (leBytes 4 (crc32c b).toNat)

/-- The live set after one record (R662). -/
def putLive (live : List LdgRec) (type key count : Nat) (value : List Byte) : List LdgRec :=
  let rest := live.filter (fun r => !(r.type == type % 2 ^ 15 && r.key == key))
  if 2 ^ 15 ≤ type then rest else rest ++ [({ type, key, value, count } : LdgRec)]

/-- The value of a live record. -/
def State.liveVal (s : State) (type key : Nat) : Option (List Byte) :=
  (s.ledger.live.find? (fun r => r.type == type && r.key == key)).map (·.value)

/-- The flash offset of a region. -/
def Ledger.region (l : Ledger) (r : Nat) : Nat := if r = 0 then l.off0 else l.off1

/-- The region in use. -/
def State.ledgerRegion (s : State) : Nat := s.fld F.LDG_STAT_REGION

/-- LDG_STAT.FILL, LDG_LIVE follow the ledger (R670). -/
def State.ledgerStat (s : State) : State :=
  (s.setFld F.LDG_STAT_FILL (100 * s.ledger.append / max 1 s.ledger.len)).setFld F.LDG_LIVE_COUNT s.ledger.live.length

/-- A region erased: its bytes read 0xFF. -/
def State.eraseRegion (s : State) (r : Nat) : State :=
  s.putFlash (s.ledger.region r) (List.replicate s.ledger.len 0xFF)

/-- A region's header and seal (R659). -/
def regionHeader (epoch len sealed : Nat) : List Byte :=
  let b := leBytes 4 0x47444C4F ++ leBytes 4 epoch ++ leBytes 8 len
  b ++ leBytes 4 (crc32c b).toNat ++ leBytes 4 sealed

/-- Compaction (R665). -/
def State.compact (s : State) : State :=
  let l := s.ledger
  let r := 1 - s.ledgerRegion
  let epoch := s.fld F.LDG_EPOCH_EPOCH + 1
  let live := l.live.mergeSort (fun x y => decide (x.type < y.type) || (x.type == y.type && decide (x.key ≤ y.key)))
  let batches := chunks 256 live
  let bytes := batches.flatMap (fun q =>
    batchBytes (q.map (fun x => recordOf x.type x.key (ledgerAcc x.count) x.value)) (ledgerAcc ((q.map (·.count)).getLastD 0)))
  let s := s.putFlash (l.region r) (regionHeader epoch l.len 0xFFFFFFFF)
  let s := s.putFlash (l.region r + 4096) bytes
  let s := s.putFlash (l.region r + 20) (leBytes 4 0)
  let s := s.eraseRegion (1 - r)
  let s : State := { s with ledger := { l with live, append := 4096 + bytes.length } }
  (((s.setFld F.LDG_STAT_REGION r).setFld F.LDG_EPOCH_EPOCH epoch).bump F.LDG_CNT_COMPACT_COUNT 1).ledgerStat

/-- The append point is beyond 75 % of LDGLEN (R665). -/
def State.compactDue (s : State) : Bool := decide (75 * s.ledger.len < 100 * s.ledger.append)

/-! ### Replay at boot (R664) -/

/-- A record found in a region. -/
structure FoundRec where
  type : Nat
  key : Nat
  count : Nat
  value : List Byte
  size : Nat
  deriving DecidableEq, Repr

/-- The record at an offset of a region's bytes, where its CRC passes (R660). -/
def recordAt (b : List Byte) (p : Nat) : Option FoundRec :=
  let len := leAt b (p + 2) 2
  let n := 16 + roundUp len 8
  if 2048 < len || b.length < p + n + 8 || leAt b (p + n) 4 != (crc32c (slice b p n)).toNat then none
  else some { type := leAt b p 2, key := leAt b (p + 4) 4, count := leAt b (p + 8) 6, value := slice b (p + 16) len,
              size := n + 8 }

/-- The batch at an offset, with fuel: whether it is committed, its records, and the offset after it. -/
def batchAt (b : List Byte) (start : Nat) : Nat → Nat → List FoundRec → Bool × List FoundRec × Nat
  | 0, p, rs => (false, rs, p)
  | f + 1, p, rs =>
    match recordAt b p with
    | none => (false, rs, p)
    | some r =>
      if r.type = 1 then
        (r.key == rs.length && !rs.isEmpty && leAt r.value 0 4 == (crc32c (slice b start (p - start))).toNat, rs, p + r.size)
      else batchAt b start f (p + r.size) (rs ++ [r])

/-- What a scan has found: committed records, skipped records and whether any batch was skipped, the highest count. -/
structure Scan where
  recs : List FoundRec := []
  torn : Nat := 0
  skipped : Bool := false
  high : Nat := 0
  deriving DecidableEq, Repr

/-- A region scanned from an offset, with fuel. -/
def scanRegion (b : List Byte) : Nat → Nat → Scan → Scan
  | 0, _, q => q
  | f + 1, p, q =>
    if b.length ≤ p || (slice b (p / 256 * 256) 256).all (· == 0xFF) then q
    else
      let (ok, rs, next) := batchAt b p b.length p []
      let high := (rs.map (·.count)).foldl max q.high
      if ok then scanRegion b f next { q with recs := q.recs ++ rs, high }
      else scanRegion b f (p / 256 * 256 + 256) { q with torn := q.torn + rs.length, high,
                                                            skipped := q.skipped || (slice b p ((p / 256 + 1) * 256 - p)).any (· != 0xFF) }

/-- A region is valid (R659). -/
def regionValid (b : List Byte) : Bool :=
  leAt b 0 4 == 0x47444C4F && leAt b 16 4 == (crc32c (b.take 16)).toNat && leAt b 20 4 == 0

/-- The first 256-byte boundary after the last byte that is not 0xFF. -/
def appendPoint (b : List Byte) : Nat := roundUp (b.reverse.dropWhile (· == 0xFF)).length 256

/-- A replayed record joins the live set, or is ignored and counted (R662, R666). -/
def State.replayRecord (s : State) (r : FoundRec) : State :=
  let ok := if 2 ^ 15 ≤ r.type then r.value.isEmpty else ledgerLen r.type == some r.value.length
  if ok then { s with ledger := { s.ledger with live := putLive s.ledger.live r.type r.key r.count r.value } }
  else s.bump F.LDG_CNT_BADREC_COUNT 1

/-- The ledger as boot finds it (R664, R665). An injection at point 0x23 fails the read of one record (R573): it counts
as a bad record. -/
def State.replayLedger (s : State) : State :=
  let l := s.ledger
  let b0 := s.flashBytes l.off0 l.len
  let b1 := s.flashBytes l.off1 l.len
  let v0 := regionValid b0
  let v1 := regionValid b1
  let q0 := scanRegion b0 (b0.length + 1) 4096 {}
  let q1 := scanRegion b1 (b1.length + 1) 4096 {}
  let seen := (q0.recs ++ q1.recs).length + q0.torn + q1.torn != 0
  let next := if (v0 || v1) && seen then (max q0.high q1.high + 1) % 2 ^ 48 else 0
  let s : State := { s with ledger := { l with live := [], queue := [], waiting := [], readOnly := false, nextCount := next } }
  if !v0 && !v1 then
    let s := (s.eraseRegion 0).putFlash l.off0 (regionHeader 1 l.len 0)
    let s : State := { s with ledger := { s.ledger with append := 4096 } }
    let s := (s.wr R.LDG_STAT (pack [(26, 1)])).setFld F.LDG_EPOCH_EPOCH 1
    (if b1.all (· == 0xFF) then s else s.eraseRegion 1).ledgerStat
  else
    let r := if v0 && (!v1 || decide (leAt b1 4 4 ≤ leAt b0 4 4)) then 0 else 1
    let b := if r = 0 then b0 else b1
    let q := if r = 0 then q0 else q1
    let s := (s.wr R.LDG_STAT (pack [(27, r)])).setFld F.LDG_EPOCH_EPOCH (leAt b 4 4)
    let s := forEach q.recs s State.replayRecord
    let s := if q.skipped then (s.bump F.LDG_CNT_TORN_COUNT q.torn).event F.LDG_EVT_TORN else s
    let s : State := { s with ledger := { s.ledger with append := max 4096 (appendPoint b) } }
    let s := if (if r = 0 then b1 else b0).all (· == 0xFF) then s else s.eraseRegion (1 - r)
    if s.compactDue then s.compact else s.ledgerStat

/-! ### Requests and commits (R661, R663, R668) -/

/-- A request queued; a requester that finds the queue full waits (R663). -/
def State.ledgerAdd (s : State) (q : LdgReq) : State :=
  let l := s.ledger
  if l.readOnly then s
  else if l.queue.length < 256 then { s with ledger := { l with queue := l.queue ++ [q] } }
  else { s with ledger := { l with waiting := l.waiting ++ [q] } }

/-- LEDGER_REQUEST (R663, R666): a Steward's or the Warden's request. The ensign sends the Stewards' (R43), so that one with
no Steward running is not made; in recovery mode no ledger is served (R651). -/
def execLedgerRequest (warden : Bool) (type : W16) (key : W32) (value : List Byte) (delete : Bool) (s : State) : Outcome :=
  act s fun s =>
    let t := type.toNat
    let own := if warden then t == 0x24 || t == 0x25 else decide (0x20 ≤ t) && decide (t ≤ 0x23)
    if own && (warden || s.ens.up != 0) && !s.inRecovery && (delete || ledgerLen t == some value.length) then
      s.ledgerAdd { src := b2n warden, type := t, key := key.toNat, value, delete }
    else s

/-- A host command's result (R670). -/
def State.ledgerResult (s : State) (result len : Nat) : State := s.wr R.LDG_RES (pack [(31, 1), (28, result), (0, len % 4096)])

/-- How many queued requests the next batch of n may hold: one, or n of the Stewards (R663). -/
def batchFits (q : List LdgReq) (n : Nat) : Bool :=
  decide (1 ≤ n) && decide (n ≤ q.length) && (n == 1 || (decide (n ≤ 256) && (q.take n).all (fun r => r.src == 0)))

/-- A batch committed (R661, R662). -/
def State.commitBatch (s : State) (n : Nat) : State :=
  let l := s.ledger
  let qs := l.queue.take n
  let recs := qs.mapIdx (fun i q => q.record (l.nextCount + i))
  let acc := ledgerAcc (l.nextCount + n - 1)
  let bytes := batchBytes recs acc
  let s := s.putFlash (l.region s.ledgerRegion + l.append) bytes
  let live := (qs.mapIdx (fun i q => (i, q))).foldl (fun m p =>
    putLive m (if p.2.delete then p.2.type + 2 ^ 15 else p.2.type) p.2.key (l.nextCount + p.1) p.2.value) l.live
  let rest := l.queue.drop n ++ l.waiting
  let s : State := { s with ledger := { l with queue := rest.take 256, waiting := rest.drop 256, live,
                                               append := l.append + bytes.length, nextCount := (l.nextCount + n) % 2 ^ 48 } }
  let s := (s.setPair F.LDG_ACC_LO_ACC F.LDG_ACC_HI_ACC acc).bump F.LDG_CNT_APPEND_COUNT 1
  let s := if qs.any (fun q => q.src == 2) then s.ledgerResult 0 0 else s
  if s.compactDue then s.compact else s.ledgerStat

/-- The ledger becomes read-only (R668). -/
def State.ledgerFail (s : State) : State :=
  let l := s.ledger
  let host := (l.queue ++ l.waiting).any (fun q => q.src == 2)
  let s : State := { s with ledger := { l with queue := [], waiting := [], readOnly := true } }
  let s := (s.setFld F.LDG_STAT_STATE 4).event F.LDG_EVT_FAIL
  if host then s.ledgerResult 5 0 else s

/-- LEDGER_COMMIT (R661, R665, R668): the batch of the first n requests is programmed; ok says that the flash reads back
correct. -/
def execLedgerCommit (n : Nat) (ok : Bool) (s : State) : Outcome :=
  act s fun s =>
    if s.ledger.readOnly || !batchFits s.ledger.queue n then s
    else if ok then s.commitBatch n else s.ledgerFail

/-- A host command is outstanding (R670). -/
def State.ledgerBusy (s : State) : Bool := (s.ledger.queue ++ s.ledger.waiting).any (fun q => q.src == 2)

/-- An LDG_CMD write: the checks of R670, then the command's effect. -/
def State.ledgerCmd (s : State) (refusals : List (Bool × Nat)) (f : State → State) : State :=
  if s.ledgerBusy then s.event F.LDG_EVT_BUSY
  else
    let s := s.wr R.LDG_RES 0
    match refusals.find? (fun r => r.1) with
    | some r => s.ledgerResult r.2 0
    | none => f s

/-- A type that the host may write (R670). -/
def hostType (t : Nat) : Bool := decide (0x10 ≤ t) && decide (t ≤ 0x15)

/-- Bytes of LDG_BUF. -/
def State.ldgBuf (s : State) (n : Nat) : List Byte :=
  ((List.range (ceilDiv n 4)).flatMap (fun k => leBytes 4 (s.rd (R.LDG_BUF k)).toNat)).take n

/-- APPEND (R670). -/
def execAppend (type len : Nat) (s : State) : Outcome :=
  hostReg R.LDG_CMD s fun s =>
    s.ledgerCmd [(!hostType type, 2), (ledgerLen type != some len, 3), (decide (256 ≤ s.ledger.queue.length), 4),
      (s.ledger.readOnly, 5)] fun s =>
      s.ledgerAdd { src := 2, type, key := (s.rd R.LDG_KEY).toNat, value := s.ldgBuf len }

/-- DELETE (R670). -/
def execDelete (type : Nat) (s : State) : Outcome :=
  hostReg R.LDG_CMD s fun s =>
    s.ledgerCmd [(!hostType type, 2), (decide (256 ≤ s.ledger.queue.length), 4), (s.ledger.readOnly, 5)] fun s =>
      s.ledgerAdd { src := 2, type, key := (s.rd R.LDG_KEY).toNat, delete := true }

/-- LOOKUP (R670): the value's bytes in LDG_BUF, little-endian. An injection at point 0x23 fails the read (R573): the
record counts as not found (DEDUCED, log 24). -/
def execLookup (type : Nat) (s : State) : Outcome :=
  hostReg R.LDG_CMD s fun s => s.ledgerCmd [] fun s =>
    let (hit, s) := s.inject 0x23 0 0 0 0
    match (if hit then none else s.liveVal type (s.rd R.LDG_KEY).toNat) with
    | none => s.ledgerResult 1 0
    | some v =>
      let s := forEach (List.range (ceilDiv v.length 4)) s (fun s k =>
        let part := slice v (4 * k) 4
        s.wr (R.LDG_BUF k) (BitVec.ofNat 32 (leNat (part ++ (leBytes 4 (s.rd (R.LDG_BUF k)).toNat).drop part.length))))
      s.ledgerResult 0 v.length

end Sys2Proof.Machine
end

