-- ==== Sys2Proof/Machine/Boot.lean ====
section
/-! DEFINITION. Boot, images, fuses and updates (R643 to R653, R669).
-/

namespace Sys2Proof.Machine

/-- The bytes of a SHA-384 digest. -/
def sha384Bytes (b : List Byte) : List Byte := leBytes 48 (Config.sha384 b).toNat

/-! ### Fuses (R647, R649) -/

/-- The thermometer counter of an image kind. -/
def State.fuseSvn (s : State) (kind : Nat) : Nat := lookup Config.fusedSvn s.sec.svn kind
/-- REVOKED bits. -/
def State.revokedKeys (s : State) : Nat := Config.keysRevoked.toNat ||| s.sec.revoked
/-- A key set may verify an image (R648). -/
def State.keyUsable (s : State) (k : Nat) : Bool :=
  decide (k < 4) && Config.keysPresent.toNat.testBit k && !s.revokedKeys.testBit k

/-- The fuse registers follow the fuses. -/
def State.fuseRegs (s : State) : State :=
  let s := s.wr R.SEC_FUSESVN (pack [(12, s.fuseSvn 3 % 64), (6, s.fuseSvn 2 % 64), (0, s.fuseSvn 1 % 64)])
  (s.setFld F.SEC_KEYS_REVOKED s.revokedKeys).setFld F.SEC_KEYS_PRESENT Config.keysPresent.toNat

/-! ### Images (R646, R648) -/

/-- The largest payload of an image kind. -/
def imageMax (kind : Nat) : Nat := if kind = 1 then 2 ^ 19 else if kind = 2 then 2 ^ 20 else 2 ^ 21

/-- The refusal cause of an image in an image set's bytes, or 0 (R648, R669). A payload that is longer than its kind
allows, or than the set, counts as a wrong header (DEDUCED, log 25). -/
def State.imageCause (s : State) (b : List Byte) (off kind : Nat) : Nat :=
  let h := Machine.slice b off 8192
  let len := leAt h 8 4
  let key := leAt h 6 1
  let payload := Machine.slice b (off + 8192) len
  let pk := Machine.slice h 64 1984
  let msg := h.take 64
  if leAt h 0 4 != 0x4849564F || leAt h 4 1 != kind || imageMax kind < len || payload.length != len then 1
  else if !s.keyUsable key || Config.sha384 pk != Config.keyDigest key then 2
  else if sha384Bytes payload != Machine.slice h 16 48 then 3
  else if !Config.ed25519Verify (pk.take 32) msg (Machine.slice h 2048 64) then 4
  else if !Config.mldsaVerify (pk.drop 32) msg (Machine.slice h 2112 3309) then 5
  else if leAt h 5 1 < s.fuseSvn kind then 6
  else 0

/-- Where the images of a set start (R644): each on a 4 KiB boundary after the one before. -/
def imageOffsets (b : List Byte) : List Nat :=
  let next (o : Nat) : Nat := roundUp (o + 8192 + leAt b (o + 8) 4) 4096
  [0, next 0, next (next 0)]

/-- The first refusal cause of an image set, or 0. -/
def State.setCause (s : State) (b : List Byte) : Nat :=
  (((imageOffsets b).mapIdx (fun i o => s.imageCause b o (i + 1))).find? (· != 0)).getD 0

/-- The running images of a set (R648, R657). -/
def imagesOf (b : List Byte) : Sparse Image :=
  (imageOffsets b).mapIdx (fun i o => (i + 1, { svn := leAt b (o + 5) 1, keyset := leAt b (o + 6) 1, digest := slice b (o + 16) 48 }))

/-! ### Boot headers (R644, R645) -/

/-- Areas of a header's layout as (offset, length). -/
def headerAreas (h : List Byte) : List (Nat × Nat) :=
  let slot := leAt h 32 4
  let l := leAt h 72 4
  [(0, 65536), (leAt h 16 8, slot), (leAt h 24 8, slot), (leAt h 56 8, l), (leAt h 64 8, l)]
    ++ (if leAt h 9 1 % 2 = 1 then [(leAt h 40 8, leAt h 48 8)] else [])

/-- Two areas overlap. -/
def areasClash : List (Nat × Nat) → Bool
  | [] => false
  | a :: as => as.any (fun b => decide (a.1 < b.1 + b.2) && decide (b.1 < a.1 + a.2)) || areasClash as

/-- A header copy is valid (R645): MAGIC, CRC, and a layout that meets R644. -/
def headerValid (h : List Byte) : Bool :=
  let as := headerAreas h
  leAt h 0 4 == 0x4842564F && leAt h 4092 4 == (crc32c (h.take 4092)).toNat
    && as.all (fun a => a.1 % 65536 == 0 && decide (a.1 + a.2 ≤ Config.flashSize))
    && !areasClash as && decide (15 * 2 ^ 18 ≤ leAt h 32 4)
    && decide (12 * 2 ^ 20 ≤ leAt h 72 4) && decide (leAt h 72 4 ≤ 256 * 2 ^ 20)

/-- The header copy in use (R645), or none. -/
def State.bootHeader (s : State) : Option (Nat × List Byte) :=
  let h0 := s.flashBytes 0 4096
  let h1 := s.flashBytes 4096 4096
  match headerValid h0, headerValid h1 with
  | true, true => if leAt h0 4 4 < leAt h1 4 4 then some (1, h1) else some (0, h0)
  | true, false => some (0, h0)
  | false, true => some (1, h1)
  | false, false => none

/-- The bytes of a slot. -/
def State.slotBytes (s : State) (h : List Byte) (slot : Nat) : List Byte :=
  s.flashBytes (leAt h (if slot = 0 then 16 else 24) 8) (leAt h 32 4)

/-! ### Settings and device records (R650 step 7, R666) -/

/-- The shadow or ledger table of the Sentinel meets R537: its entries as pairs of words. -/
def tableOk (es : List (W32 × W32)) : Bool :=
  let on := (es.filter (fun e => bit e.2 8))
  let cost (e : W32 × W32) : Nat :=
    let d := bits e.1 31 16
    d + (bits e.1 15 8 + 1) * (bits e.2 5 0 + 1) + (if 26 ≤ d then 30 else 0)
  es.all (fun e => bits e.1 7 6 == 0 && bits e.2 31 13 == 0 && bits e.2 7 6 == 0)
    && [56, 57, 58, 59, 60, 61, 63].all (fun c => on.any (fun e => bits e.1 5 0 == c && !bit e.2 12))
    && decide ((on.map cost).sum ≤ 250)

/-- A table's entries copied into the active table. -/
def State.setTable (s : State) (es : List (W32 × W32)) : State :=
  forEach es.zipIdx s (fun s (q : (W32 × W32) × Nat) => (s.wr (R.SNC_SEQA_W0 q.2) q.1.1).wr (R.SNC_SEQA_W1 q.2) q.1.2)

/-- Live records of a type, as key and value. -/
def State.recordsOf (s : State) (type : Nat) : List (Nat × List Byte) :=
  (s.ledger.live.filter (fun r => r.type == type)).map (fun r => (r.key, r.value))

/-- The host's settings (R515, R202, R528, R538, R561, R574). -/
def State.applySettings (s : State) : State :=
  let s := match s.liveVal 0x10 0 with
    | some v => (s.setFld F.GOV_CTRL_MODE (leAt v 0 1)).setFld F.GOV_SET_WATTS (max 500 (min 1800 (leAt v 2 2)))
    | none => s
  let s := match s.liveVal 0x11 0 with
    | some v => (s.setFld F.HUB_PRGCFG_RVINT (leAt v 0 2)).setFld F.HUB_PRGCFG_RVTEMP (leAt v 2 1)
    | none => s
  let s := match s.liveVal 0x12 0 with
    | some v =>
      let es := (List.range 48).map (fun i => ((BitVec.ofNat 32 (leAt v (8 * i) 4) : W32), (BitVec.ofNat 32 (leAt v (8 * i + 4) 4) : W32)))
      if tableOk es then s.setTable es else s
    | none => s
  let s := match s.liveVal 0x14 0 with
    | some v => forEach allTiles s (fun s t => s.wr (R.TIL_CHKCTRL t) (BitVec.ofNat 32 (leAt v 0 1 % 4)))
    | none => s
  let s : State := { s with ledger := { s.ledger with rtd := s.recordsOf 0x13 } }
  match s.liveVal 0x15 0 with
  | some v => s.setFlag F.INJ_STAT_LOCKED (leAt v 0 1 != 1)
  | none => s

/-- Wear counts (R191), trims (R558), remap tables (R558) and retired arrays (R586). A restored spare is not LIVE before its
bank's first rewrite has programmed it (R199; DEDUCED, log 25). A column that then stands at the limit of R190 is retired. -/
def State.applyRecords (s : State) : State :=
  let s := forEach (s.recordsOf 0x20) s (fun s r =>
    let t := r.1 / 16
    let a := r.1 / 2 % 8
    let v := leAt r.2 0 4
    let x := s.arr t a
    let s := s.putArr t a (x.setBank (r.1 % 2) { x.bank (r.1 % 2) with wearBase := v + 2 ^ 20, wearSaved := v })
    s.wr (if r.1 % 2 = 0 then R.ARR_WEARMAX0 t a else R.ARR_WEARMAX1 t a) (BitVec.ofNat 32 (satAdd 32 v (2 ^ 20))))
  let s := forEach (s.recordsOf 0x21) s (fun s r =>
    let t := r.1 / 8
    let x := s.arr t (r.1 % 8)
    let pick (o : Nat) : Sparse Nat := forEach (List.range 529) [] (fun m c => store (fun _ => 0) m c (leAt r.2 (8 + 2 * c + o) 1 % 64))
    let ofs := pick 0
    let gain := pick 1
    let s := s.setFld (F.TIL_CALPT_TEMP t) (leAt r.2 0 2)
    s.putArr t (r.1 % 8) { x with gain, ofs, shadowGain := gain, shadowOfs := ofs, savedGain := gain, savedOfs := ofs,
                                  cal := { x.cal with waive := false } })
  let s := forEach (s.recordsOf 0x22) s (fun s r =>
    forEach (List.range 16) s (fun s n =>
      s.putRemap (r.1 / 16) (r.1 / 2 % 8) (r.1 % 2) n (putBits (BitVec.ofNat 32 (leAt r.2 (4 * n) 4)) 30 30 0)))
  let s := forEach (s.recordsOf 0x20) s (fun s r => s.wornBank (r.1 / 16) (r.1 / 2 % 8) (r.1 % 2))
  forEach (s.recordsOf 0x23) s (fun s r =>
    let t := r.1 / 8
    let a := r.1 % 8
    (s.putArr t a { s.arr t a with out := true, condemned := true }).startCover t a (List.range 512))

/-- The flash charter placed in memory (R650 step 7). -/
def State.placeCharter (s : State) (h : List Byte) : State :=
  if leAt h 9 1 % 2 = 1 then
    let n := leAt h 48 8
    let s := s.putMem Config.flashCharterAddr (s.flashBytes (leAt h 40 8) n)
    { s with sec := { s.sec with bootCharter := n, bootLoad := true } }
  else s

/-! ### The boot sequence (R650, R651) -/

/-- Recovery mode (R651). -/
def State.recovery (s : State) (hdr cause : Nat) : State :=
  s.wr R.SEC_BOOT (pack [(28, 0xE), (25, hdr), (0, cause)])

/-- Step 4 (R650): the Warden of a slot replays the ledger. -/
def State.bootWarden (s : State) (h : List Byte) : State :=
  ({ s with ledger := { off0 := leAt h 56 8, off1 := leAt h 64 8, len := leAt h 72 4 } } : State).replayLedger

/-- Steps 6 to 8 with a verified slot (R650); h0fail says that H0's Steward failed its copy's digest or its self-test. -/
def State.bootSlot (s : State) (hdr : Nat) (h : List Byte) (slot cause : Nat) (h0fail : Bool) : State :=
  let s : State := { s with sec := { s.sec with images := imagesOf (s.slotBytes h slot) } }
  let im (k : Nat) : Image := lookup (fun _ => {}) s.sec.images k
  let s := s.wr R.SEC_RUNSVN (pack [(12, (im 3).svn % 64), (6, (im 2).svn % 64), (0, (im 1).svn % 64)])
  let s := s.setFld F.SEC_KEYS_KEYSET (im 1).keyset
  let shot := (s.liveVal 0x25 0).isSome
  let s := if shot then
      let s := s.ledgerAdd { src := 1, type := 0x25, key := 0, delete := true }
      ((s.event F.INJ_STAT_FIRED).setFld F.INJ_STAT_POINT 0x24).bump F.INJ_CNT_COUNT 1
    else s
  let fail := h0fail || shot
  let half := b2n fail
  let s : State := { s with ens := { half, epoch := 1, epoch0 := 1, epoch1 := 1, up := if fail then 2 else 3 } }
  let s := (s.applySettings.applyRecords).placeCharter h
  let s := s.wr R.SEC_BOOT (pack [(28, 3), (27, slot), (26, b2n (slot != leAt h 8 1 % 2)), (25, hdr), (24, b2n fail), (0, cause)])
  s.setFld F.HUB_EPOCH_EPOCH 1

/-- One pass of steps 2 to 5 over a slot (R650): the state after its Warden's work, and the cause of the first refusal, or 0. -/
def State.trySlot (s : State) (h : List Byte) (slot : Nat) : Nat × State :=
  let b := s.slotBytes h slot
  let w := s.imageCause b 0 1
  if w = 0 then (s.setCause b, s.bootWarden h) else (w, s)

/-- Boot (R650, R651, R692). -/
def State.boot (s : State) (h0fail : Bool) : State :=
  let s := s.fuseRegs
  if s.power.strapHeld then s.recovery 0 0
  else
    match s.bootHeader with
    | none => s.recovery 0 7
    | some (hdr, h) =>
      let first := leAt h 8 1 % 2
      let (c0, s) := s.trySlot h first
      if c0 = 0 then s.bootSlot hdr h first 0 h0fail
      else
        let (c1, s) := s.trySlot h (1 - first)
        if c1 = 0 then s.bootSlot hdr h (1 - first) c0 h0fail else s.recovery hdr c1

/-! ### Fuse and update commands (R649, R652) -/

/-- The running images. -/
def State.running (s : State) : List (Nat × Image) := s.sec.images

/-- SVNCOMMIT (R649). -/
def execSvncommit (s : State) : Outcome :=
  hostReg R.SEC_CTRL s fun s =>
    let s := forEach s.running s (fun s e =>
      { s with sec := { s.sec with svn := store Config.fusedSvn s.sec.svn e.1 (max (s.fuseSvn e.1) e.2.svn) } })
    if s.running.isEmpty then s else s.fuseRegs.event F.SEC_EVT_SVN

/-- REVOKE (R649): the key set that SEC_CTRL.RKEY names in the write. In recovery mode no image runs, and the condition on
"every running image" holds of none (DEDUCED, log 25). -/
def execRevoke (rkey : Nat) (s : State) : Outcome :=
  hostReg R.SEC_CTRL s fun s =>
    let k := rkey % 4
    let s := s.setFld F.SEC_CTRL_RKEY k
    if s.running.all (fun e => decide (k < e.2.keyset)) then
      ({ s with sec := { s.sec with revoked := s.sec.revoked ||| 2 ^ k } } : State).fuseRegs.event F.SEC_EVT_REVOKED
    else s.event F.SEC_EVT_UPDFAIL

/-- An update's result (R652, R669). -/
def State.updateEnd (s : State) (state cause : Nat) : State :=
  (s.wr R.SEC_UPDSTAT (pack [(28, state), (0, cause)])).event (if state = 3 then F.SEC_EVT_UPDDONE else F.SEC_EVT_UPDFAIL)

/-- The staged set (R651, R652). -/
def State.stagedSet (s : State) : List Byte :=
  let n := s.fld F.SEC_UPDLEN_BYTES
  if s.inRecovery then readMany (fun _ => 0) s.sec.store (s.fld F.SEC_RWOFS_OFS) n
  else s.memBytes (s.pair F.SEC_UPDSRC_LO_ADDR F.SEC_UPDSRC_HI_ADDR) n

/-- UPDATE (R652). Without a valid header there is no slot to write, and the update is refused as a flash read failure
(DEDUCED, log 25). -/
def execUpdate (s : State) : Outcome :=
  hostReg R.SEC_CTRL s fun s =>
    match s.bootHeader with
    | none => s.updateEnd 4 7
    | some (hdr, h) =>
      let b := s.stagedSet
      let cause := s.setCause b
      if leAt h 32 4 < b.length then s.updateEnd 4 8
      else if cause != 0 then s.updateEnd 4 cause
      else
        let slot := 1 - s.fld F.SEC_BOOT_SLOT
        let s := s.putFlash (leAt h (if slot = 0 then 16 else 24) 8) b
        let body := h.take 4 ++ leBytes 4 (leAt h 4 4 + 1) ++ leBytes 1 slot ++ slice h 9 4083
        (s.putFlash (4096 * (1 - hdr)) (body ++ leBytes 4 (crc32c body).toNat)).updateEnd 3 0

end Sys2Proof.Machine
end

