-- ==== Sys2Proof/Machine/Spdm.lean ====
section
/-! DEFINITION. The DOE mailbox's SPDM requests (R461, R654 to R658). The layouts of SPDM 1.2 messages are the standard's
(PRESUMED, log 8): the spec names the standard and the parts of it that the mailbox supports.
-/

namespace Sys2Proof.Machine

/-- ASCII bytes. -/
def ascii (t : String) : List Byte := t.toList.map (fun c => BitVec.ofNat 8 c.toNat)

/-- The slot 0 chain (R656). -/
def chainBytes : List Byte := (List.range Config.chainLen).map Config.chainByte

/-- Measurement block contents by index (R657), without the report. -/
def State.blockValue (s : State) (index : Nat) : List Byte :=
  let im (k : Nat) : Image := lookup (fun _ => {}) s.sec.images k
  if 1 ≤ index && index ≤ 3 then (im index).digest
  else if index = 4 then (if s.sec.charterDigest.isEmpty then zeros 48 else s.sec.charterDigest)
  else if index = 5 then [R.SEC_FUSESVN, R.SEC_RUNSVN, R.SEC_KEYS].flatMap (fun o => leBytes 4 (s.rd o).toNat)
  else if index = 0xF1 then (List.range Config.mldsaCertLen).map Config.mldsaCertByte
  else []

/-- The attestation report (R658). -/
def State.attestation (s : State) (nonce : List Byte) : List Byte :=
  let b := leBytes 4 0x4841564F ++ leBytes 2 1 ++ zeros 2 ++ leBytes 8 mySerial ++ nonce
    ++ sha384Bytes ((List.range 5).flatMap (fun i => s.blockValue (i + 1)))
  b ++ (List.range 64).map (fun i => Config.ed25519SignByte i b) ++ (List.range 3309).map (fun i => Config.mldsaSignByte i b)

/-- Indices of the blocks (R657). -/
def blockIndices : List Nat := [1, 2, 3, 4, 5, 0xF0, 0xF1]

/-- A block in the DMTF measurement format: index, specification, size, value type, value size, value. The value types
are the standard's (PRESUMED, log 8). -/
def State.block (s : State) (nonce : List Byte) (index : Nat) : List Byte :=
  let v := if index = 0xF0 then s.attestation nonce else s.blockValue index
  let type := if index ≤ 3 then 0x01 else if index = 4 then 0x03 else if index = 5 then 0x82 else 0x84
  leBytes 1 index ++ leBytes 1 1 ++ leBytes 2 (v.length + 3) ++ leBytes 1 type ++ leBytes 2 v.length ++ v

/-- A response given and remembered. -/
def State.respond (s : State) (r : List Byte) : State := { s with sec := { s.sec with response := r } }

/-- An ERROR response. -/
def State.spdmError (s : State) (code : Nat) : State := s.respond (leBytes 1 0x12 ++ leBytes 1 0x7F ++ leBytes 1 code ++ leBytes 1 0)

/-- A request is answered while the mailbox can be reached; one that is not of its code is an invalid request, and one of
another SPDM version than 1.2, or than 1.0 for GET_VERSION, a version mismatch (R656; PRESUMED, log 8). -/
def State.spdm (s : State) (code n : Nat) (req : List Byte) (f : State → State) : State :=
  if !s.linkUp then s
  else if leAt req 1 1 != code || req.length < n then s.spdmError 1
  else if leAt req 0 1 != (if code = 0x84 then 0x10 else 0x12) then s.spdmError 0x41
  else f s

/-- Bytes of a signed message: the standard's prefix, context and hash. -/
def signedBytes (context : String) (m : List Byte) : List Byte :=
  let p := ascii "dmtf-spdm-v1.2.*"
  let c := ascii context
  p ++ p ++ p ++ p ++ zeros (36 - c.length) ++ c ++ sha384Bytes m

/-- A signature under the Ed25519 identity key (R656). -/
def spdmSign (context : String) (m : List Byte) : List Byte :=
  (List.range 64).map (fun i => Config.ed25519SignByte i (signedBytes context m))

/-- 32 bytes of a responder's nonce: a free value of the draw. -/
def State.spdmNonce (s : State) : List Byte × State :=
  let (n, s) := s.draw
  ((List.range 32).map (Config.spdmNonceByte n), s)

/-- GET_VERSION (R461, R656): SPDM 1.2. -/
def execGetVersion (req : List Byte) (s : State) : Outcome :=
  act s fun s => s.spdm 0x84 4 req fun s =>
    let r : List Byte := [0x10, 0x04, 0, 0, 0, 1, 0x00, 0x12]
    ({ s with sec := { s.sec with spdmA := req ++ r, spdmB := [], spdmL := [] } } : State).respond r

/-- An answer of the negotiation, which joins its transcript. -/
def State.answerA (s : State) (req r : List Byte) : State :=
  ({ s with sec := { s.sec with spdmA := s.sec.spdmA ++ req ++ r } } : State).respond r

/-- The flags byte of CAPABILITIES with the parts that the mailbox supports: certificates, challenges and signed measurements
(R656; PRESUMED, log 8). Caching and fresh measurements are free values; no other capability is offered. -/
def capFlags : Byte := (Config.spdmCapByte 4 &&& 0x21) ||| 0x16

/-- GET_CAPABILITIES (R461, R656): no key exchange, no sessions. -/
def execGetCapabilities (req : List Byte) (s : State) : Outcome :=
  act s fun s => s.spdm 0xE1 4 req fun s =>
    s.answerA req ([0x12, 0x61, 0, 0, 0, Config.spdmCapByte 1, 0, 0, capFlags, 0, 0, 0]
      ++ (List.range 8).map (fun i => Config.spdmCapByte (8 + i)))

/-- NEGOTIATE_ALGORITHMS (R656): Ed25519 and SHA-384 where the request offers them. -/
def execNegotiateAlgorithms (req : List Byte) (s : State) : Outcome :=
  act s fun s => s.spdm 0xE3 32 req fun s =>
    let asym := leAt req 8 4 &&& 0x400
    let hash := leAt req 12 4 &&& 0x2
    s.answerA req ([0x12, 0x63, 0, 0] ++ leBytes 2 36 ++ leBytes 1 (leAt req 6 1 &&& 1) ++ zeros 1 ++ leBytes 4 4
      ++ leBytes 4 asym ++ leBytes 4 hash ++ zeros 16)

/-- An answer of the certificate exchange, which joins its transcript. -/
def State.answerB (s : State) (req r : List Byte) : State :=
  ({ s with sec := { s.sec with spdmB := s.sec.spdmB ++ req ++ r } } : State).respond r

/-- GET_DIGESTS (R656): slot 0. -/
def execGetDigests (req : List Byte) (s : State) : Outcome :=
  act s fun s => s.spdm 0x81 4 req fun s => s.answerB req ([0x12, 0x01, 0, 1] ++ sha384Bytes chainBytes)

/-- GET_CERTIFICATE (R656): a portion of the slot 0 chain. -/
def execGetCertificate (req : List Byte) (s : State) : Outcome :=
  act s fun s => s.spdm 0x82 8 req fun s =>
    let off := leAt req 4 2
    let part := slice chainBytes off (leAt req 6 2)
    if leAt req 2 1 % 16 != 0 || chainBytes.length < off then s.spdmError 1
    else s.answerB req ([0x12, 0x02, 0, 0] ++ leBytes 2 part.length ++ leBytes 2 (chainBytes.length - off - part.length) ++ part)

/-- CHALLENGE (R656): a signed CHALLENGE_AUTH. -/
def execChallenge (req : List Byte) (s : State) : Outcome :=
  act s fun s => s.spdm 0x83 36 req fun s =>
    if leAt req 2 1 != 0 then s.spdmError 1
    else
      let (nonce, s) := s.spdmNonce
      let sum := if leAt req 3 1 = 0 then [] else sha384Bytes ((List.range 5).flatMap (fun i => s.block (zeros 32) (i + 1)))
      let body := [0x12, 0x03, 0, 1] ++ sha384Bytes chainBytes ++ nonce ++ sum ++ leBytes 2 0
      s.respond (body ++ spdmSign "responder-challenge_auth signing" (s.sec.spdmA ++ s.sec.spdmB ++ req ++ body))

/-- GET_MEASUREMENTS (R656 to R658): all blocks, one block, or their number; signed under slot 0 on request. -/
def execGetMeasurements (req : List Byte) (s : State) : Outcome :=
  act s fun s => s.spdm 0xE0 4 req fun s =>
    let sign := leAt req 2 1 % 2 == 1
    let op := leAt req 3 1
    let nonce := if sign then slice req 4 32 else zeros 32
    if (sign && (req.length < 37 || leAt req 36 1 % 16 != 0)) || (op != 0 && op != 0xFF && !blockIndices.contains op) then s.spdmError 1
    else
      let ids := if op = 0 then [] else if op = 0xFF then blockIndices else [op]
      let rec' := ids.flatMap (s.block nonce)
      let (mine, s) := s.spdmNonce
      let body := [0x12, 0x60] ++ leBytes 1 (if op = 0 then 7 else 0) ++ [0] ++ leBytes 1 ids.length ++ leBytes 3 rec'.length
        ++ rec' ++ mine ++ leBytes 2 0
      let l := s.sec.spdmL ++ req ++ body
      let s : State := { s with sec := { s.sec with spdmL := if sign then [] else l } }
      s.respond (body ++ (if sign then spdmSign "responder-measurements signing" (s.sec.spdmA ++ l) else []))

end Sys2Proof.Machine
end

