-- ==== Sys2Proof/Machine/Recovery.lean ====
section
/-! DEFINITION. Dumps, resets, rollback, halts, hangs and the Stewards (R41 to R48, R578 to R618).
-/

namespace Sys2Proof.Machine

/-! ### Dumps (R612 to R616) -/

/-- A dump record (R616). -/
def dumpRecord (kind unit src flags : Nat) (data : List Byte) : List Byte :=
  let h := leBytes 2 kind ++ leBytes 2 unit ++ leBytes 1 src ++ leBytes 1 flags ++ zeros 2 ++ leBytes 4 data.length
  h ++ leBytes 4 (crc32c (h ++ data)).toNat ++ data

/-- The header record's data (R616): class, unit kind and unit, step, epoch, accession number, oscillator, serial. -/
def State.dumpHeader (s : State) : List Byte :=
  dumpRecord 1 0 0 0 (leBytes 4 (s.rd R.RST_FLTCLS).toNat ++ leBytes 8 (s.pair F.RST_FLTSTEP_LO_STEP F.RST_FLTSTEP_HI_STEP)
    ++ leBytes 4 s.ens.epoch ++ leBytes 8 (s.pair F.RST_FLTACC_LO_ACC F.RST_FLTACC_HI_ACC) ++ leBytes 8 s.osc
    ++ leBytes 8 mySerial)

/-- A unit's state record, empty where the unit did not answer (R614, R616). -/
def State.unitRecord (s : State) (id : Nat) : List Byte :=
  let lost := s.dump.unreach.contains id
  dumpRecord 0x10 id 0 (b2n lost) (if lost then [] else (List.range (Config.unitStateLen id)).map (Config.unitStateByte s.dump.draw id))

/-- The hub's units in a dump. DESIGN CHOICE: they are numbered from 8,192 on: eight update engines, the FRE, two Stewards and
the hub (log 52). -/
def hubUnits : List Nat := (List.range 12).map (8192 + ·)

/-- The records of a tile: each unit's state, its last command, and the folio. A unit that did not answer is taken from
the mirrors (R614). -/
def State.dumpTile (s : State) (t : Nat) : List Byte :=
  let lost (u : Nat) : Bool := s.dump.unreach.contains (16 * t + u)
  let units := (List.range 14).flatMap (fun u => s.unitRecord (16 * t + u)
    ++ dumpRecord 0x11 (16 * t + u) (b2n (lost u)) 0 (lookup (fun _ => []) (s.tile t).mirror u))
  units ++ s.unitRecord (16 * t + 14) ++ dumpRecord 0x12 (16 * t) (b2n ((List.range 14).any lost)) 0 (s.tile t).mirrorFolio.flatten

/-- The whole dump (R616). -/
def State.dumpBytes (s : State) : List Byte :=
  if s.fld F.RST_DUMPSIZE_SIZE = 0 then s.dump.header
  else s.dump.header ++ allTiles.flatMap s.dumpTile ++ hubUnits.flatMap s.unitRecord ++ dumpRecord 0xFF 0 0 0 []

/-- A trigger (R612, R614): it is skipped while a dump streams or is held. -/
def State.takeDump (s : State) : State :=
  let st := s.fld F.RST_DUMPSTAT_STATE
  if 1 ≤ st && st ≤ 3 then s.bump F.RST_CNT_DUMP_COUNT 1
  else
    let (n, s) := s.draw
    let s : State := { s with dump := { header := s.dumpHeader, draw := n } }
    s.wr R.RST_DUMPSTAT (pack [(28, 1), (27, 1)])

/-- DUMP (R612). -/
def execDump (s : State) : Outcome := hostReg R.RST_CTRL s State.takeDump

/-- DUMP_UNIT_TIMEOUT (R614). -/
def execDumpUnitTimeout (unit : Nat) (s : State) : Outcome :=
  act s fun s =>
    if s.fld F.RST_DUMPSTAT_STATE = 1 && !s.dump.unreach.contains unit then
      ({ s with dump := { s.dump with unreach := s.dump.unreach ++ [unit] } } : State).bump F.RST_DUMPSTAT_UNREACH 1
    else s

/-- DUMP_STREAM (R615): the capture has ended and streams to the host buffer, or is held while the link is down. -/
def execDumpStream (s : State) : Outcome :=
  act s fun s =>
    let st := s.fld F.RST_DUMPSTAT_STATE
    if st < 1 || 3 < st then s
    else if !s.linkUp then s.setFld F.RST_DUMPSTAT_STATE 3
    else
      let size := s.fld F.RST_DUMPSIZE_SIZE * 2 ^ 20
      let b := s.dumpBytes
      let out := if size = 0 then [] else b.take size
      let s := s.putHost (s.pair F.RST_DUMPBASE_LO_ADDR F.RST_DUMPBASE_HI_ADDR) out
      let s := (s.setFlag F.RST_DUMPSTAT_TRUNC (size != 0 && decide (size < b.length))).setFlag F.RST_DUMPSTAT_FROZEN false
      (s.setFld F.RST_DUMPSTAT_STATE 4).setFld F.RST_DUMPLEN_BYTES (if size = 0 then b.length else out.length)

/-- RELEASE (R615): the mirrors are released; a dump that is captured or held is given up. -/
def execRelease (s : State) : Outcome :=
  hostReg R.RST_CTRL s fun s =>
    let st := s.fld F.RST_DUMPSTAT_STATE
    (s.setFlag F.RST_DUMPSTAT_FROZEN false).setFld F.RST_DUMPSTAT_STATE (if 1 ≤ st && st ≤ 3 then 0 else st)

/-! ### Resets (R598 to R601) -/

/-- The tile of a tile register's offset, with the offset in its span. -/
def tileOffset (off : Nat) : Option (Nat × Nat) :=
  if 0x1000000 ≤ off && off < 0x1800000 then some ((off - 0x1000000) / 0x4000, off % 0x4000) else none

/-- A register of a tile that survives its reset (R600): the calibration point, remap tables and wear counts. -/
def keepsReset (o : Nat) : Bool :=
  o == R.TIL_CALPT 0 % 0x4000 || (0x2000 ≤ o &&
    (let w := o % 0x400
     0x300 ≤ w || [R.ARR_WEARMAX0 0 0, R.ARR_WEARMAX1 0 0].any
      (fun r => r % 0x400 == w)))

/-- An array after its reset (R600): cells, trims, remap and wear stay; its active bank is re-verified, its factors are
rebuilt, a rewrite in progress restarts as a full rewrite. -/
def State.resetArr (s : State) (t a : Nat) : State :=
  let x := s.arr t a
  let act := s.active t a
  let busy := s.prgState t a != 0 && s.prgState t a != 5
  let fix (b : Nat) (k : Bank) : Bank :=
    { k with factors := false, overlimit := false,
             oweFull := k.oweFull || (busy && b != act), fresh := k.fresh || (busy && b != act && k.copied) }
  s.putArr t a { x with bank0 := fix 0 x.bank0, bank1 := fix 1 x.bank1, rew := {}, edge := [], refFault := false, clipped := [],
                        cover := [], cal := { x.cal with windows := 0 }, resU := [], resV := [], prevU := [], prevV := [],
                        reverify := (x.bank act).copied && !x.startup && !s.dfwd }

/-- What the Steward loads into an array after a reset (R159, R600): the charter's gain tables and correction settings. -/
def State.reloadArr (s : State) (p : Placement) : State :=
  let s := forEach (List.range 34) s (fun s w =>
    let v : W32 := BitVec.ofNat 32 (p.gain / 2 ^ (32 * w))
    (s.wr (R.ARR_GAIN0 p.tile p.array w) v).wr (R.ARR_GAIN1 p.tile p.array w) v)
  (s.setFld (F.ARR_RESCFG_RANK p.tile p.array) p.rank).setFld (F.ARR_RESCFG_ITER p.tile p.array) p.iter

/-- Host commands fetched on reset tiles complete aborted (R601), but for those held for replay. -/
def State.abortOn (s : State) (ts : Nat → Bool) (held : List Nat) : State :=
  forEach allHalyards s (fun s h =>
    forEach (s.halyard h).fetched s (fun s f =>
      let (op, c) := tileOfBytes f.bytes
      if 0x40 ≤ op && ts c.tile && !held.contains f.acc then s.complete f.acc 1 else s))

/-- Tiles reset (R600). -/
def State.resetTiles (s : State) (ts : Nat → Bool) (held : List Nat) : State :=
  let tiles := allTiles.filter ts
  let s := forEach tiles s (fun s t => s.concludeTest t 5 0)
  let active := allArrays.filter (fun k => ts k.1 && s.active k.1 k.2 == 1)
  let s := forEach (allArrays.filter (fun k => ts k.1)) s (fun s k => s.resetArr k.1 k.2)
  let s := s.clearRegs (fun off => match tileOffset off with
    | some (t, o) => ts t && !keepsReset o
    | none => false)
  let s := forEach active s (fun s k => s.setFld (F.ARR_STAT_ACTIVE k.1 k.2) 1)
  let s := forEach (allArrays.filter (fun k => ts k.1)) s (fun s k => (s.chkOff k.1 k.2 0).chkOff k.1 k.2 1)
  let s := match s.liveVal 0x14 0 with
    | some v => forEach tiles s (fun s t => s.wr (R.TIL_CHKCTRL t) (BitVec.ofNat 32 (leAt v 0 1 % 4)))
    | none => s
  let s := forEach tiles s (fun s t =>
    let x := s.tile t
    let s : State := { s with tstore := dropRange s.tstore (tstoreBytes * t) (tstoreBytes * (t + 1)) }
    let s := (s.setFld (F.FOL_TOCC_BYTES t) 0).setFld (F.FOL_TSEQ_SEQ t) 0
    (s.putTileRec t { mirror := x.mirror, mirrorFolio := x.mirrorFolio, credit := x.credit, redWant := x.redWant, waiting := x.waiting,
                      calWant := x.calWant }).tileStart t)
  let s := forEach (s.myPlacements.filter (fun p => ts p.tile)) s (fun s p => s.reloadArr p)
  let s := forEach ((allArrays.filter (fun k => ts k.1 && (s.arr k.1 k.2).out))) s (fun s k => s.startCover k.1 k.2 (List.range 512))
  let s := forEach tiles s (fun s t => s.nextTest t)
  s.abortOn ts held

/-- An update engine reset (R600, R356): STEP and COUNT are reloaded from the current slot. -/
def State.resetEngine (s : State) (n : Nat) : State :=
  let s := s.clearRegs (fun off => off / 0x400 == R.UPD_STAT n / 0x400)
  (s.putEngine n { handled := (s.engine n).handled }).reloadEngine n

/-- A reset while a job runs leads to rollback (R598, R599). Class 0x13 stands in the FAULT of a reset that no fault
caused (DESIGN CHOICE, log 26). With both Stewards down the one that returns asks for it (R610). -/
def State.resetFault (s : State) : State :=
  if s.job.running && s.job.fault.isNone && s.job.rolling.isNone && s.ens.up != 0 then
    ({ s with job := { s.job with stopItems := true, fault := some (0x13, false), faultSends := 1 } } : State).sendFault 0x13 false
  else s

/-- The re-verify that follows a reset shows in RST_STAT until it is complete. -/
def State.reverifyState (s : State) : State :=
  if s.fld F.RST_STAT_STATE = 6 then s
  else s.setFld F.RST_STAT_STATE (if s.arrs.any (fun e => e.2.reverify) then 3 else 0)

/-- The accession numbers of the commands that are held for replay (R601, R603). -/
def State.heldAccs (s : State) : List Nat := s.hang.held.map (fun (h : Nat × Nat × TileCmd) => h.2.2.acc)

/-- A compute reset (R598). -/
def State.computeReset (s : State) (held : List Nat) : State :=
  let s := s.resetTiles (fun _ => true) held
  let s := forEach (List.range 8) s (fun s n => s.resetEngine n)
  let s := s.clearRegs (fun off => off / 0x1000 == R.FRE_EVT / 0x1000
    || [R.HUB_STASHPEAK, R.HUB_CNT_TESTHOLD, R.HUB_TESTTIME_LO, R.HUB_TESTTIME_HI].contains off)
  let s : State := { s with fre := { credit := s.fre.credit }, treeC := [], treeR := [], treeT := [], sec := { s.sec with store := [] } }
  let s := if s.fld F.HUB_CHSTAT_STATE = 1 then s.setFld F.HUB_CHSTAT_STATE 0 else s
  ((s.event F.RST_EVT_CRST).bump F.RST_CNT_CRST_COUNT 1).reverifyState.resetFault

/-- A partition reset (R599). -/
def State.partitionReset (s : State) (n : Nat) (held : List Nat) : State :=
  let s := s.resetTiles (fun t => partOf t == n) held
  let s := (s.resetEngine (2 * n)).resetEngine (2 * n + 1)
  ((s.event F.RST_EVT_PRST).bump F.RST_CNT_PRST_COUNT 1).reverifyState.resetFault

/-- CRST (R598). -/
def execCrst (s : State) : Outcome := hostReg R.RST_CTRL s fun s => s.computeReset s.heldAccs

/-- PRST (R599): the partitions of the written bits, under the direction of a Steward that holds the token (R43). -/
def execPrst (mask : Nat) (s : State) : Outcome :=
  hostReg R.RST_CTRL s fun s => if s.ens.up = 0 then s else forEach ((List.range 4).filter mask.testBit) s (fun s n => s.partitionReset n s.heldAccs)

/-- The HAL_ and CTX_ registers and the halyards return to their reset values (R459); no command of theirs is left to replay. -/
def State.hostReset (s : State) : State :=
  let s := s.clearRegs (fun off => R.HAL_CTRL 0 / 0x4000 * 0x4000 ≤ off && off < R.CTX_STAT 0 + 0x1000)
  let s := s.setFld F.RST_STAT_SUSPECT 0
  { s with hal := { linkUp := s.hal.linkUp, bar2 := s.hal.bar2 }, hang := { s.hang with held := [], hosts := [] },
           job := { s.job with suspect := false } }.releaseEngines

/-- FLR (R459): a Function Level Reset or a conventional reset. -/
def execFlr (s : State) : Outcome := act s fun s => (s.computeReset []).hostReset

/-- RST_CNT_CLR (R617). -/
def execRstCntClr (s : State) : Outcome :=
  hostReg R.RST_CTRL s fun s => s.clearRegs (fun o => (R.RST_CNT_CRST ≤ o && o ≤ R.RST_CNT_ARRFAIL) || o == R.RST_CNT_DUMP)

/-! ### Memory errors (R581, R582) -/

/-- MEMORY_CORRECTABLE_ERROR (R581): the data returned and written back is the correct one. -/
def execMemoryCorrectableError (addr : Nat) (s : State) : Outcome := act s fun s => s.memCorrected addr

/-- MEMORY_UNCORRECTABLE_ERROR (R582). -/
def execMemoryUncorrectableError (addr : Nat) (s : State) : Outcome := act s fun s => s.memUncorrected addr

/-- ARRAY_OUT_OF_SERVICE (R583). -/
def execArrayOutOfService (t a : Nat) (s : State) : Outcome :=
  act s fun s => if (s.arr t a).out then s else s.arrayOut t a

/-! ### Halts (R596) -/

/-- The job halts on this device (R596): everything stops, the recovery state stays in memory, and a dump is taken. -/
def State.haltJob (s : State) : State :=
  if s.job.halted || !s.job.running then s
  else
    let s := s.endHold.closeTestHold.resumePrg
    let tiles := s.tiles.map (·.1)
    let s := forEach tiles s (fun s t => s.putTileRec t { s.tile t with seqWait := (s.tile t).seqWait.filter (fun q => !q.2.job) })
    let s : State := { s with job := { s.job with running := false, halted := true, item := none, want := none, left := [], resumed := false,
                                                  stopItems := true, fault := none, rolling := none, flush := [], starting := none },
                              root := { s.root with recovery := false, wait := none } }
    let s := (s.setFld F.RST_STAT_STATE 6).event F.RST_EVT_HALT
    let s : State := { s with job := { s.job with suspect := false },
                              hang := { s.hang with before := store (fun _ => 0) s.hang.before s.job.ctx 4 } }
    let s := s.putHalyard s.job.ctx { s.halyard s.job.ctx with dead := true }
    let s := ((s.cleared s.job.ctx 4).setFld (F.CTX_STAT_STATE s.job.ctx) 4).setFld F.HUB_STEPSTAT_PHASE 0
    let s := s.idleEngines
    s.takeDump

/-- The step root halts the job (R596). -/
def State.issueHalt (s : State) (cls source : Nat) : State :=
  let o := stepBefore ((s.root.issued.map (fun i => i.1 + 1)).getD s.job.first)
  (s.toAll 0x0F o (leBytes 1 cls ++ zeros 1 ++ leBytes 2 source ++ zeros 4)).haltJob

/-- HALT (R596) at a device. -/
def execHalt (s : State) : Outcome := act s State.haltJob

/-! ### Rollback (R587 to R594) -/

/-- Banks (R591): an array whose step lies one boundary beyond the recovery state swaps back. The bank that becomes idle holds its
step's values already, so it stays ready, unless a rewrite was in progress (DEDUCED, log 50). -/
def State.swapBack (s : State) (t a : Nat) : State :=
  let b := 1 - s.active t a
  let s := s.setFld (F.ARR_STAT_ACTIVE t a) b
  if s.dfwd then s
  else
    let q := s.fld (F.ARR_QCALI_QCAL t a)
    let s := (s.setFld (F.ARR_QCALI_QCAL t a) (s.fld (F.ARR_QCAL_QCAL t a))).setFld (F.ARR_QCAL_QCAL t a) q
    let s := s.setFld (F.ARR_QAVG_QAVG t a) q
    let s := if s.prgState t a = 0 && ((s.arr t a).bank (1 - b)).copied then s.setFld (F.ARR_PRGSTAT_STATE t a) 4 else s
    let x := s.arr t a
    let had := (x.bank b).factors
    let s := s.putArr t a { x with resU := if had then x.prevU else [], resV := if had then x.prevV else [], prevU := x.resU, prevV := x.resV }
    s.factorRegs t a

/-- Destinations to which messages of classes 0x1 to 0x3 have gone since discovery (R592). -/
def State.flushTo (s : State) : List Nat :=
  ((s.fab.tx.filter (fun e => e.2 != 0 && decide (1 ≤ e.1 % 8) && decide (e.1 % 8 ≤ 3))).map (fun e => e.1 / 8)).eraseDups.filter (· != s.devNum)

/-- FLUSHCNT to every such device (R592). -/
def State.sendFlush (s : State) (next : Nat) : State :=
  let ds := s.flushTo
  let n (d c : Nat) : List Byte := leBytes 4 (lookup (fun _ => 0) s.fab.tx (8 * d + c))
  let s := forEach ds s (fun s d => s.sendCtrl d 0x0B (stepBefore next) (leBytes 2 s.devNum ++ zeros 2 ++ n d 1 ++ n d 2 ++ n d 3))
  { s with job := { s.job with flushSent := ds.length } }

/-- Work in progress is stopped and everything of later steps is discarded (R591: Stop, Discard). -/
def State.discardLater (s : State) (next : Nat) : State :=
  let s := s.endHold.closeTestHold.resumePrg
  let s := forEach (s.tiles.map (·.1)) s (fun s t =>
    let x := s.tile t
    ((s.putTileRec t { x with seqWait := x.seqWait.filter (fun q => !q.2.job) }).dropPend t 1 (fun q => q.cmd.job)).putGroups
      t (x.groups.filter (fun g => accKind g.acc != 1)))
  let s := forEach (s.ownEngines.filter (fun n => decide (next ≤ (s.engine n).handled))) s (fun s n =>
    ((s.putEngine n { handled := (s.engine n).handled }).setFld (F.UPD_STAT_STATE n) 0).setFlag (F.UPD_STAT_PEND n) false)
  let f := s.fre
  let early (q : Nat × Nat) : Bool := decide (q.1 < next)
  let s : State := { s with
    job := { s.job with item := none, want := none, left := [], touched := [], uses := [], bases := [], resumed := false, fin := [], fout := [], bin := [], bout := [], fwait := none, bwait := none,
                        losses := [], lossTile := [], phase := .backward, drained := 0, nextF := 0, nextB := 0,
                        stopItems := true, fault := none, faultSends := 0, watched := false },
    fre := { f with slots := f.slots.filter (fun x => decide (x.step < next)), full := f.full.filter early,
                    bsvf := f.bsvf.filter early, bsat := f.bsat.filter early, reserved := [], credit := [],
                    gone := f.gone.filter (fun k => decide (k.step < next)), came := f.came.filter (fun k => decide (k.step < next)),
                    out := f.out.filter (fun o => decide (leAt o.payload 0 8 < next)) },
    treeC := [], treeR := [], treeT := [] }
  let s : State := { s with ens := { s.ens with swapDue := none } }
  ((s.putStash 0 []).putStash 1 []).dropCredits.ckHoldFlag.queueDepths

/-- The recovery state restored (R587, R588, R591: Restore). -/
def State.restoreKept (s : State) (next : Nat) : State :=
  let s := match s.job.kept.find? (fun k => k.1 == next) with
    | some k =>
      let s := match s.region 0x0E 0xFFFF with
        | some r => s.putMem r.addr k.2.1
        | none => s
      { s with job := { s.job with watch := k.2.2.1, svfPrev := k.2.2.2, kept := [k] } }
    | none => s
  let veto := s.job.handled == next && s.job.outKind == 1
  let s : State := { s with job := { s.job with vetoed := if veto then [stepBefore next] else [] } }
  let s := s.setPair F.HUB_STEP_LO_STEP F.HUB_STEP_HI_STEP next
  let s := s.setFld F.HUB_STEPSTAT_GBUF (b2n s.chart.gbuf * (next % 2))
  let s : State := { s with hal := { s.hal with feedErr := [] } }
  forEach s.myFeeds s (fun s f => s.setFld (F.HAL_FDCONS_COUNT f.ring) (next * s.chart.micro))

/-- ROLLBACK at a device (R591, R592): next is HUB_STEP of the recovery state. A device that has not reached its
boundary takes it, its swap owed until the bank is ready (R593). It is the ensign that directs a recovery (R43). -/
def State.rollback (s : State) (next recov : Nat) : State :=
  if !s.job.running || s.ens.up = 0 then s
  else
    let s := if s.step + 1 = next then s.boundary s.step false else s
    let owe := s.job.oweSwap || s.step + 1 == next
    let back := s.step == next + 1
    let s := (s.discardLater next).restoreKept next
    let s := if back then (forEach allArrays s (fun s k => s.swapBack k.1 k.2)).coverAll else s
    let s := (s.setFld F.RST_STAT_STATE 4).setPair F.RST_RBSTEP_LO_STEP F.RST_RBSTEP_HI_STEP (stepBefore next)
    let s := (s.event F.RST_EVT_ROLLBACK).setFld F.RST_CNT_ROLLBACK_COUNT (max recov (s.fld F.RST_CNT_ROLLBACK_COUNT))
    let late := decide (s.job.handled < next) && s.job.first != next
    let s := if late then s.toRoot 0x0E (stepBefore next) (leBytes 2 s.devNum ++ zeros 6) else s
    let s : State := { s with job := { s.job with rolling := some next, localDone := !late, oweSwap := owe } }
    (s.sendFlush next).sendRback

/-- ROLLBACK (R591): o as the message carries it. -/
def execRollback (o : W64) (recov : Nat) (s : State) : Outcome :=
  act s fun s => s.rollback ((o.toNat + 1) % 2 ^ 64) recov

/-- The step root orders a rollback to its last issued outcome (R587, R589). -/
def State.issueRollback (s : State) (cls source : Nat) : State :=
  let next := (s.root.issued.map (fun i => i.1 + 1)).getD s.job.first
  let kind := (s.root.issued.map (fun i => i.2.1)).getD 0
  let s : State := { s with root := { s.root with recovery := true, rbacks := [], recov := s.root.recov + 1, wait := none,
                                                  cause := (cls, source) } }
  let s := s.toAll 0x0A (stepBefore next) (leBytes 1 kind ++ zeros 3 ++ leBytes 4 s.root.recov)
  (s.event F.RST_EVT_ROLLBACK).rollback next s.root.recov

/-- FAULT (R589, R596) at the step root. -/
def execFault (cls : Nat) (halt : Bool) (source : Nat) (s : State) : Outcome :=
  act s fun s =>
    if !s.job.running || s.devNum != s.chart.stepRoot || s.ens.up = 0 then s
    else if halt || cls == 0x16 || cls == 0x18 then s.issueHalt cls source
    else s.issueRollback cls source

/-- FLUSHCNT (R592). -/
def execFlushcnt (source next1 next2 next3 : Nat) (s : State) : Outcome :=
  act s fun s =>
    if !s.job.running then s
    else ({ s with job := { s.job with flush := s.job.flush.filter (fun q => q.1 != source) ++ [(source, [next1, next2, next3])] } } :
      State).rbackCheck

/-- A version tag is below a returned step (R593); all ones, for no update, is below every other (R330). -/
def versionBelow (v step : Nat) : Bool := decide ((v + 1) % 4294967296 < (step + 1) % 4294967296)

/-- RESUME at a device (R593): its ensign goes on (R43). -/
def State.resume (s : State) : State :=
  match s.job.rolling, s.ens.up with
  | none, _ | _, 0 => s
  | some _, _ + 1 =>
    let s : State := { s with job := { s.job with rolling := none, flush := [], flushSent := 0, localDone := false, rbackSent := none,
                                                  stopItems := false } }
    let s := s.reverifyState
    let s := (s.grantStart false).grantStart true
    let last := s.ownEngines.map (fun n => (n, s.pair (F.UPD_STEP_LO_STEP n) (F.UPD_STEP_HI_STEP n)))
    let newest := (last.map (·.2)).foldl max 0
    let s := forEach s.myPlacements s (fun s p =>
      let b := s.targetBank p.tile p.array newest
      let x := s.arr p.tile p.array
      let k := x.bank b
      if versionBelow k.version newest then s.putArr p.tile p.array (x.setBank b { k with awaited := true }) else s)
    let s : State := { s with job := { s.job with arrived := [] } }
    (forEach last s (fun s q => s.returnParams q.1)).holdResumed

/-- RESUME (R593). -/
def execResume (s : State) : Outcome := act s State.resume

/-- The step root resumes the job once every device balances (R593). -/
def State.resumeCheck (s : State) : State :=
  let rs := s.root.rbacks
  let all := s.chart.devices.all (fun d => rs.any (fun r => r.1 == d.device && r.2.1))
  let sent := (rs.map (fun r => r.2.2.1)).sum
  let drained := (rs.map (fun r => r.2.2.2)).sum
  if s.root.recovery && all && sent == drained && s.ens.up != 0 then
    let o := stepBefore (s.job.rolling.getD s.job.first)
    let s := s.toAll 0x0D o (leBytes 4 s.root.recov ++ zeros 4)
    ({ s with root := { s.root with recovery := false } } : State).resume
  else s

/-- RBACK (R593) at the step root. -/
def execRback (source : Nat) (localDone : Bool) (sent drained : Nat) (s : State) : Outcome :=
  act s fun s =>
    if !s.root.recovery then s
    else ({ s with root := { s.root with rbacks := s.root.rbacks.filter (fun r => r.1 != source) ++ [(source, localDone, sent, drained)] } } :
      State).resumeCheck

/-- OREQ (R590, R591) at the step root: the outcome is sent again. -/
def execOreq (step : W64) (source : Nat) (s : State) : Outcome :=
  act s fun s =>
    match s.root.issued with
    | some (o, out, cause) => if o = step.toNat then s.sendCtrl source 0x06 o (outcomeBytes out cause s.root.ratios) else s
    | none => s

/-- RBACK_TIMEOUT (R596): a device's RBACK is still missing 100 ms after ROLLBACK. -/
def execRbackTimeout (s : State) : Outcome :=
  act s fun s =>
    let missing := s.chart.devices.any (fun d => !s.root.rbacks.any (fun r => r.1 == d.device))
    if s.root.recovery && missing then s.issueHalt s.root.cause.1 s.root.cause.2 else s

/-- FAULT_RESEND_TIMEOUT (R596). -/
def execFaultResendTimeout (s : State) : Outcome :=
  act s fun s =>
    match (if s.ens.up = 0 then none else s.job.fault) with
    | some (cls, halt) =>
      if 3 ≤ s.job.faultSends then s.haltJob
      else ({ s with job := { s.job with faultSends := s.job.faultSends + 1 } } : State).sendFault cls halt
    | none => s

/-! ### Hangs (R602 to R606) -/

/-- The partition of a hung unit, for a unit kind of RST_FLTCLS; none for a hub unit or a FRE. -/
def hungPartition (ukind unit : Nat) : Option Nat :=
  if ukind = 1 then some (partOf unit) else if ukind = 2 then some (partOf (unit / 8)) else if ukind = 6 then some (unit / 2) else none

/-- The reset that a hang calls for (R598, R599): a second hang in a partition within 1 s resets the compute side. -/
def State.hangReset (s : State) (ukind unit : Nat) (held : List Nat) : State :=
  match hungPartition ukind unit with
  | some p =>
    let again : Bool := match lookup (fun _ => none) s.hang.hungAt p with
      | some t => decide (s.osc - t ≤ 100000000)
      | none => false
    let parts := if again then 15 else s.hang.parts ||| 2 ^ p
    let s : State := { s with hang := { s.hang with parts, hungAt := store (fun _ => none) s.hang.hungAt p (some s.osc) } }
    if again then s.computeReset held else s.partitionReset p held
  | none => ({ s with hang := { s.hang with parts := 15 } } : State).computeReset held

/-- The template of a job command, counted in its item's program. -/
def State.templateOf (s : State) (op : Nat) (c : TileCmd) : Option Nat :=
  (s.templates (if s.itemBack then 2 else 1)).findIdx? (fun q => q.1 == op && q.2 == { c with acc := q.2.acc })

/-- The host contexts of commands, ascending. -/
def hostContexts (cs : List (Nat × TileCmd)) : List Nat :=
  (List.range 16).filter (fun c => cs.any (fun q => accKind q.2.acc == 0 && accCtx q.2.acc == c))

/-- A watchdog's expiry on record (R603, R612): the fault, its event and count, and a dump. -/
def State.expiry (s : State) (ukind unit acc : Nat) : State :=
  (((s.recordFault 0x12 ukind unit acc).event F.RST_EVT_HANG).bump F.RST_CNT_HANG_COUNT 1).takeDump

/-- WATCHDOG_EXPIRY (R603, R606): a unit hangs; hung are the commands issued on it, others the commands of other units
that the reset interrupts. -/
def State.hang' (s : State) (ukind unit : Nat) (hung others : List (Nat × TileCmd)) : State :=
  let acc := (hung.head?.map (fun q => q.2.acc)).getD 0
  let job := hung.find? (fun q => q.2.job)
  let ctxs := hostContexts hung
  let mine := (hung ++ others).filter (fun q => accKind q.2.acc == 0)
  let s := s.expiry ukind unit acc
  let s : State := { s with hang := { s.hang with hosts := (s.hang.hosts ++ ctxs).eraseDups } }
  let s := forEach (ctxs ++ (if job.isSome then [s.job.ctx] else [])) s (fun s c =>
    let now := s.fld (F.CTX_STAT_STATE c)
    let s : State := if now = 3 then s else { s with hang := { s.hang with before := store (fun _ => 0) s.hang.before c now } }
    (s.setFld (F.CTX_STAT_STATE c) 3).setFld F.RST_STAT_SUSPECT (s.fld F.RST_STAT_SUSPECT ||| 2 ^ c))
  let s : State := { s with hang := { s.hang with held := s.hang.held ++ mine.map (fun q => (accCtx q.2.acc, q.1, q.2)) } }
  let s := match job with
    | some q =>
      let k := s.templateOf q.1 q.2
      let twice := k.isSome && s.job.hungAt == k
      ({ s with job := { s.job with hungAt := k, suspect := true } } : State).raiseFault 0x12 ukind unit acc twice
    | none => if s.job.running then s.raiseFault 0x12 ukind unit acc false else s
  let s := s.hangReset ukind unit (mine.map (fun q => q.2.acc))
  if ctxs.isEmpty then s else s.setFld F.RST_STAT_STATE 5

/-- WATCHDOG_EXPIRY (R603). -/
def execWatchdogExpiry (ukind unit : Nat) (hung others : List (Nat × TileCmd)) (s : State) : Outcome :=
  act s fun s => s.hang' ukind unit hung others

/-- The bytes of two tensors overlap. -/
def tensorsClash (x y : Tensor) : Bool :=
  x.place == y.place && decide (x.base < y.endByte) && decide (y.base < x.endByte)

/-- A held command's effect cannot be made whole by a replay (R605): it adds, or its result range overlaps an operand's; the ranges
are its rows of the tensors. -/
def State.replaySuppressed (s : State) (op : Nat) (c : TileCmd) : Bool :=
  c.add || (resultsOf op c).any (fun z => (operandsOf op c).any (fun x =>
    rowsShare (s.layout c.acc z.1) (s.layout c.acc x.1) z.2 (0, x.2)))

/-- The commands of no suspect run again after the last replay, and what waited for the replays goes on (R604). -/
def State.replayRest (s : State) : State :=
  let q := s.hang.held
  let s : State := { s with hang := { s.hang with held := [], parts := 0 } }
  (forEach q s (fun s (h : Nat × Nat × TileCmd) => s.runOp h.2.1 h.2.2)).rerunAll.reverifyState

/-- A context terminated (R604): its fetched commands complete, and none of them is left on a tile. -/
def State.terminate (s : State) (c : Nat) : State :=
  let accs := (s.halyard c).fetched.map (·.acc)
  let s := forEach accs (s.forget accs.contains) (fun s a => s.complete a 0x42)
  let s := forEach (s.tiles.filter (fun e => e.2.redPend.any (fun p => accs.contains p.cmd.acc))) s (fun s e =>
    s.dropPend e.1 0x42 (fun p => accs.contains p.cmd.acc))
  (s.putHalyard c { s.halyard c with dead := true }).cleared c 4

/-- A suspect's replay (R604, R605): its held commands run, those whose effect cannot be made whole without their output. -/
def State.replay (s : State) (c : Nat) (mine : List (Nat × Nat × TileCmd)) : State :=
  let s := if s.job.suspect && s.job.ctx == c then s else s.cleared c (lookup (fun _ => 0) s.hang.before c)
  let s : State := { s with hang := { s.hang with replaying := some c } }
  let s := forEach mine s (fun s h => if s.replaySuppressed h.2.1 h.2.2 then s.complete h.2.2.acc 1 else s.runOp h.2.1 h.2.2)
  { s with hang := { s.hang with replaying := none } }

/-- SUSPECT_REPLAY (R604, R605): the lowest suspect's held commands are replayed alone; hangs says that the replay hung, which a
watchdog tells (R603). -/
def execSuspectReplay (hangs : Bool) (s : State) : Outcome :=
  act s fun s =>
    match (List.range 16).find? s.hang.hosts.contains with
    | none => s
    | some c =>
      let mine := s.hang.held.filter (fun h => h.1 == c)
      if hangs && mine.isEmpty then s
      else
        let s : State := { s with hang := { s.hang with held := s.hang.held.filter (fun h => h.1 != c),
                                                        hosts := s.hang.hosts.filter (· != c) } }
        let s := s.bump F.RST_CNT_REPLAY_COUNT 1
        let s := match hangs, mine with
          | true, h :: _ =>
            let s := (s.expiry 1 h.2.2.tile h.2.2.acc).hangReset 1 h.2.2.tile s.heldAccs
            (s.terminate c).bump F.RST_CNT_TERM_COUNT 1
          | _, _ => s.replay c mine
        if s.hang.hosts.isEmpty then s.replayRest else s

/-! ### Stewards and the ensign (R41 to R48, R607 to R611) -/

/-- The token granted to a half (R41): the epoch rises by one. -/
def State.grantToken (s : State) (half : Nat) : State :=
  let epoch := (s.ens.epoch + 1) % 2 ^ 32
  let e := { s.ens with half, epoch }
  ({ s with ens := if half = 0 then { e with epoch0 := epoch } else { e with epoch1 := epoch } } : State).setFld F.HUB_EPOCH_EPOCH epoch

/-- STEWARD_HEARTBEAT_TIMEOUT (R607, R608, R610): a Steward has not signalled for 100 µs. -/
def execStewardHeartbeatTimeout (half : Nat) (s : State) : Outcome :=
  act s fun s =>
    let h := half % 2
    if !s.ens.up.testBit h then s
    else
      let s := (s.recordFault 0x17 0x8 h 0).bump F.RST_CNT_STEWARD_COUNT 1
      let up := s.ens.up - 2 ^ h
      let s : State := { s with ens := { s.ens with up, sentRec := none, standby := none } }
      if up = 0 then
        let s := s.takeDump
        s.computeReset []
      else if h = s.ens.half then s.grantToken (1 - h)
      else s

/-- STEWARD_RESTART_COMPLETE (R607, R610): the Steward comes back as the standby; after a fault of both it takes the token
and requests rollback. -/
def execStewardRestartComplete (half : Nat) (s : State) : Outcome :=
  act s fun s =>
    let h := half % 2
    if s.ens.up.testBit h then s
    else
      let alone := s.ens.up == 0
      let s : State := { s with ens := { s.ens with up := s.ens.up + 2 ^ h, standby := none,
                                                    sentRec := if alone then none else some s.record } }
      if alone then
        let s := (s.grantToken h).flashLoad
        match s.job.fault with
        | some (cls, halt) => s.sendFault cls halt
        | none => if s.job.running then s.raiseFault 0x17 0x8 h 0 false else s
      else s

/-- STATE_RECORD (R46): the ensign sends the standby its state record, where it has changed since the one last sent. -/
def execStateRecord (s : State) : Outcome :=
  act s fun s =>
    if s.ens.up = 3 && (s.ens.sentRec.or s.ens.standby) != some s.record then
      { s with ens := { s.ens with sentRec := some s.record } }
    else s

/-- Acknowledgements of the steps that the standby's record includes leave for the step root (R47, R381); without a standby
all do. -/
def State.sendAcks (s : State) : State :=
  let ready (a : Nat × Nat) : Bool := s.ens.up != 3 || (s.ens.standby.map (fun r => decide (a.1 < r.handled))).getD false
  let due := s.ens.ackDue
  forEach (due.filter ready) { s with ens := { s.ens with ackDue := due.filter (fun a => !ready a) } } (fun s a =>
    s.toRoot 0x07 a.1 (leBytes 2 s.devNum ++ leBytes 1 a.2 ++ zeros 5))

/-- STATE_RECORD_CONFIRM (R47): the standby holds the record. Without a standby nothing is awaited (DEDUCED, log 27). -/
def execStateRecordConfirm (s : State) : Outcome :=
  act s fun s =>
    if s.ens.up = 0 || (s.ens.up = 3 && s.ens.sentRec.isNone) then s
    else
      let e := s.ens
      ({ s with ens := { e with standby := e.sentRec, sentRec := none, epoch0 := if e.up = 3 then e.epoch else e.epoch0,
                                epoch1 := if e.up = 3 then e.epoch else e.epoch1 } } : State).sendAcks

/-- A Steward learns that its epoch is not the current one (R611): it becomes the standby. -/
def State.conflict (s : State) (half epoch : Nat) : State :=
  let s := (s.bump F.RST_CNT_CONFLICT_COUNT 1).event F.RST_EVT_CONFLICT
  let s := s.stewardRecord (256 * half) 0x13 0xFFFF (leBytes 4 epoch ++ leBytes 4 s.ens.epoch)
  let e := s.ens
  { s with ens := { e with epoch0 := if half = 0 then e.epoch else e.epoch0, epoch1 := if half = 0 then e.epoch1 else e.epoch } }

/-- ENSIGN_ONLY_ACTION (R43, R44, R609, R611, R579 class 0x19): an action of a half reaches the hub with an epoch. One of a
half that does not hold the token, or with another epoch than the current one, is refused and logged. -/
def execEnsignOnlyAction (half : Nat) (epoch : W32) (s : State) : Outcome :=
  act s fun s =>
    let h := half % 2
    let (hit, s) := s.inject 0x1F 0 0 0 0
    if epoch.toNat = s.ens.epoch && h == s.ens.half && s.ens.up.testBit h && !hit then s
    else (s.recordFault 0x19 0x8 h 0).conflict h epoch.toNat

end Sys2Proof.Machine
end

