-- ==== Sys2Proof/Machine/Power.lean ====
section
/-! DEFINITION. The package's input, rails and pins, and the governor (R496 to R523, R688 to R693).
-/

namespace Sys2Proof.Machine

/-! ### Values in register units -/

/-- A finite value as a rational; the conversion of R528 forms no other. -/
def FVal.toRat : FVal → ℚ
  | .num neg m e =>
    let v : ℚ := (m : ℚ) * (if 0 ≤ e then (2 ^ e.toNat : ℚ) else 1 / (2 ^ (-e).toNat : ℚ))
    if neg then -v else v
  | _ => 0

/-! ### Ceilings (R511 to R516) -/

/-- Phases lost on a rail (R522). -/
def State.phasesLost (s : State) (rail : Nat) : Nat := s.fld F.GOV_PHASE_LOST / 4 ^ rail % 4

/-- A core rail has lost a second phase (R505). -/
def State.coreWeak (s : State) : Bool := decide (2 ≤ s.phasesLost 0) || decide (2 ≤ s.phasesLost 1)

/-- The mode's own ceiling (R516): GOV_SET under CAP, GOV_SET × 1.03 under PACE, 1,800 W under MAX. -/
def State.modeCeil (s : State) : ℚ :=
  if s.gov.mode = 1 then s.gov.watts * 103 / 100 else if s.gov.mode = 2 then 1800 else s.gov.watts

/-- The ceilings other than the mode's that are in force, by code of GOV_STAT.LIMIT (R499, R505, R511 to R513, R516). -/
def State.outerCeils (s : State) : List (Nat × ℚ) :=
  let inlet : List (Nat × ℚ) :=
    if 75 < s.gov.inlet then [(1, 500)] else if 65 < s.gov.inlet then [(1, 1800 - 60 * (s.gov.inlet - 65))] else []
  let flow : List (Nat × ℚ) := match s.gov.flowCeil with
    | some w => [(2, w)]
    | none => []
  let sensor : List (Nat × ℚ) := if s.gov.noOutlet then [(3, 1200)] else []
  let input : List (Nat × ℚ) :=
    if 152000 ≤ s.power.vin && s.power.vin ≤ 160000 then [(4, 9 * ((s.power.vin : ℚ) - 152000) / 40)] else []
  let phase : List (Nat × ℚ) := if [2, 3, 4, 5, 6, 7].any (fun n => decide (2 ≤ s.phasesLost n)) then [(5, 1200)] else []
  let stud : List (Nat × ℚ) := if s.gov.stud then [(6, 1000)] else []
  inlet ++ flow ++ sensor ++ input ++ phase ++ stud

/-- The lowest of some ceilings; of equal ones the lower code (R516). -/
def lowestCeil (best : Nat × ℚ) : List (Nat × ℚ) → Nat × ℚ
  | [] => best
  | c :: cs => lowestCeil (if c.2 < best.2 then c else best) cs

/-- The ceiling in force and its code (R516). -/
def State.ceiling (s : State) : Nat × ℚ := lowestCeil (0, s.modeCeil) s.outerCeils

/-- GOV_CEIL and GOV_STAT.LIMIT follow the ceilings (R516). After a core rail's second phase loss LIMIT is 0x5 (R505),
which sets no ceiling of its own (DEDUCED, log 28). -/
def State.relimit (s : State) : State :=
  let c := s.ceiling
  (s.setFld F.GOV_CEIL_WATTS (inUnits c.2)).setFld F.GOV_STAT_LIMIT (if s.coreWeak then 5 else c.1)

/-! ### Power-down and rail trips (R502, R503, R693) -/

/-- An array without power keeps its cells' levels (PRESUMED, log 28). -/
def Arr.unpowered (x : Arr) : Arr := { bank0 := { cells := x.bank0.cells }, bank1 := { cells := x.bank1.cells } }

/-- Every power stage stops (R496, R502): the block is as State.reset has it, but for what survives power removal (R4: flash
and fuses), the pins, the outside's memory, and what the block has given out. -/
def State.powerDown (s : State) : State :=
  let arrs := s.arrs.foldl (fun m e => store (fun _ => {}) m e.1 e.2.unpowered) []
  { State.reset with
    pending := s.pending, free := s.free, host := s.host, flash := s.flash, msix := s.msix, sent := s.sent, arrs,
    hal := { bar2 := s.hal.bar2 }, sec := { svn := s.sec.svn, revoked := s.sec.revoked },
    power := { s.power with on := false, rails := 0, vio18 := false, droop := 0, short := none, strapHeld := false } }

/-- The hot-swap controller holds the package off until the input is removed (R498, R503, R691). -/
def State.holdOff (s : State) : State :=
  let s := s.powerDown
  { s with power := { s.power with locked := true, pkgFault := true, qualified := false } }

/-- The consequences of a rail trip for a job (R503): the rail and its trips are recorded, the job halts, the links drop. -/
def State.railLost (s : State) (rail : Nat) : State :=
  let trips := ((s.liveVal 0x24 rail).map (fun v => leAt v 0 4)).getD 0
  let s := (s.event F.GOV_EVT_SHORT).ledgerPut 1 0x24 rail (leBytes 4 (trips + 1))
  let s := (s.recordFault 0x16 0x4 rail 0).haltJob
  forEach ((List.range 32).filter s.portUp) s (fun s p => s.portDown p 0)

/-- A rail's eFuse trips (R503): every rail but VHUB and VPHY stops, and what the others fed is lost. -/
def State.railTrip (s : State) (rail : Nat) : State :=
  if rail = 2 || rail = 6 then s.holdOff
  else
    { ({ s with mem := [], tstore := [] } : State).railLost rail with
      snc := s.snc, power := { s.power with rails := 2 ^ 2 + 2 ^ 6, droop := 0, short := some rail } }

/-- A lost phase counted and recorded (R504, R505). -/
def State.phaseNoted (s : State) (rail : Nat) : State :=
  let n := s.phasesLost rail
  let s := if n = 3 then s else s.setFld F.GOV_PHASE_LOST (s.fld F.GOV_PHASE_LOST + 4 ^ rail)
  let s := ((s.event F.GOV_EVT_PHASE).bump F.GOV_CNT_PHASE_COUNT 1).recordFault 0x04 0x4 rail 0
  if n = 1 then s.relimit.setFld F.GOV_STAT_LIMIT 5 else s

/-- The rails that are out of their band after a phase is lost: VARR and VHV hold what they feed (R504). -/
def Power.drooped (p : Power) (rail : Nat) (droop : Bool) : Power :=
  if droop && (rail = 3 || rail = 4) && !p.droop.testBit rail then { p with droop := p.droop + 2 ^ rail } else p

/-- A phase lost on a rail (R504, R505): the third is a trip. -/
def State.phaseLost (s : State) (rail : Nat) (droop : Bool) : State :=
  if 2 ≤ s.phasesLost rail then (s.phaseNoted rail).withSupply s |>.railTrip rail
  else { s.phaseNoted rail with snc := s.snc, power := s.power.drooped rail droop }

/-! ### Throttle and trip (R520, R521, R579) -/

/-- The latest values of the 40 diodes that have one: channel and value. -/
def State.diodes (s : State) : List (Nat × Nat) :=
  ((List.range 40).map (· + 16)).filterMap (fun c =>
    if s.flag (F.SNC_VAL_VALID c) then some (c, s.fld (F.SNC_VAL_VALUE c)) else none)

/-- Throttling begins (R520). -/
def State.throttle (s : State) : State :=
  let s := if s.flag F.GOV_STAT_THROT then s else (s.event F.GOV_STAT_THROT).event F.GOV_EVT_THROT
  { s with gov := { s.gov with paceThrot := true } }

/-- One 100 µs step of throttling (R520): VCORE falls by 5 mV, not below the 0.60 V of every mode (R514). -/
def State.throttleStep (s : State) : State :=
  s.setFld F.GOV_STAT_VCORE (max 600 (s.fld F.GOV_STAT_VCORE - 5))

/-- A thermal trip (R521): issue stops in both halves and every array is held. -/
def State.thermalTrip (s : State) : State :=
  if s.flag F.GOV_STAT_TRIP then s
  else ((s.event F.GOV_STAT_TRIP).event F.GOV_EVT_TRIP).recordFault 0x15 0x9 0 0

/-- THROTTLE (R520). Values are 256 × (°C + 64): 105 °C is 43,264 and 104 °C is 43,008. -/
def execThrottle (s : State) : Outcome :=
  act s fun s =>
    if s.diodes.any (fun d => decide (43264 < d.2)) then s.throttle.throttleStep
    else if s.flag F.GOV_STAT_THROT then
      (if s.diodes.any (fun d => decide (43008 < d.2)) then s.throttleStep else s.setFlag F.GOV_STAT_THROT false)
    else s

/-- THERMAL_TRIP (R521): 110 °C is 44,544. -/
def execThermalTrip (s : State) : Outcome :=
  act s fun s => if s.diodes.any (fun d => decide (44544 ≤ d.2)) then s.thermalTrip else s

/-- THERMAL_TRIP_CLEAR (R521): every diode reads below 100 °C (41,984), and the commands that the tiles hold go on. -/
def execThermalTripClear (s : State) : Outcome :=
  act s fun s => if s.diodes.all (fun d => decide (d.2 < 41984)) then (s.setFlag F.GOV_STAT_TRIP false).rerunAll else s

/-- THERMAL_TRIP_HALT (R579): the trip has lasted 10 s. -/
def execThermalTripHalt (s : State) : Outcome :=
  act s fun s => if s.flag F.GOV_STAT_TRIP then s.raiseFault 0x15 0x9 0 0 true else s

/-! ### Coolant (R512, R513, R528) -/

/-- z + z³/3 + z⁵/5 + …: n terms of it from z^(2k+1)/(2k+1), over z. -/
def oddSeries (z2 : ℚ) : Nat → Nat → ℚ
  | 0, _ => 0
  | n + 1, k => 1 / ((2 * k + 1 : Nat) : ℚ) + z2 * oddSeries z2 n (k + 1)

/-- ln f for f between 2/3 and 4/3, to far below an FP32 unit in the last place: 2 artanh ((f - 1) ÷ (f + 1)). -/
def lnNear (f : ℚ) : ℚ :=
  let z := (f - 1) / (f + 1)
  2 * z * oddSeries (z * z) 24 0

/-- ln 2, as 2 artanh (1/3). -/
def lnTwo : ℚ := 2 / 3 * oddSeries (1 / 9) 40 0

/-- The natural logarithm of m × 2^e, m positive. -/
def lnRat (m : Nat) (e : Int) : ℚ :=
  let k := floorLog2 m 1
  let f : ℚ := (m : ℚ) / 2 ^ k.toNat
  if 3 * f < 4 then lnNear f + (k + e : Int) * lnTwo else lnNear (f / 2) + (k + e + 1 : Int) * lnTwo

/-- The Warden's logarithm in FP32 (R528): the exact value's neighbourhood, within one unit in the last place of the nearest value
(DESIGN CHOICE, log 30). -/
def fln (x : FVal) : FVal :=
  match x with
  | .num false (m + 1) e =>
    let l := lnRat (m + 1) e
    let near := (roundTo fmtFP32 .saturate (decide (l < 0)) l.num.natAbs l.den 0).run 0
    let off := max (-1) (min 1 (Config.lnUlp (fp32Bits x)))
    if l = 0 then .zero else ofFP32 (BitVec.ofInt 32 ((fp32Bits near.1).toNat + off))
  | _ => ofFP32 (Config.lnBits (fp32Bits x))

/-- A thermistor's temperature in °C (R528), FP32 throughout, from its value in 1/16 code. -/
def State.thermistor (s : State) (chan v : Nat) : ℚ :=
  let record := (s.ledger.rtd.find? (fun r => r.1 == chan)).map (·.2)
  let rnom : FVal := match record with
    | some b => ofFP32 (BitVec.ofNat 32 (leAt b 0 4))
    | none => FVal.ofInt 10000
  let beta : FVal := match record with
    | some b => ofFP32 (BitVec.ofNat 32 (leAt b 4 4))
    | none => FVal.ofInt 3435
  let c : FVal := (FVal.ofInt v).scale (-4)
  let t : Cnt FVal := do
    let num ← fmul .saturate (FVal.ofInt 10000) c
    let den ← fsub .saturate (FVal.ofInt 4096) c
    let rt ← fdiv .saturate num den
    let ratio ← fdiv .saturate rt rnom
    let x ← fdiv .saturate (fln ratio) beta
    let t0 ← fdiv .saturate (FVal.ofInt 20) (FVal.ofInt 5963)
    let inv ← fadd .saturate t0 x
    fdiv .saturate (FVal.ofInt 1) inv
  (t.run 0).1.toRat - 5463 / 20

/-- What a thermistor tells (R512): nothing yet, an open or shorted lead, or a temperature. -/
inductive Thermo where
  | none
  | invalid
  | temp (t : ℚ)
  deriving DecidableEq, Repr

/-- A thermistor's latest reading: above 99 % or below 1 % of full scale it is invalid. -/
def State.thermo (s : State) (chan : Nat) : Thermo :=
  let v := s.fld (F.SNC_VAL_VALUE chan)
  if !s.flag (F.SNC_VAL_VALID chan) then .none
  else if 99 * 65536 < 100 * v || 100 * v < 65536 then .invalid
  else .temp (s.thermistor chan v)

/-- The temperatures of a pair's valid sensors. -/
def temps : List Thermo → List ℚ
  | [] => []
  | .temp t :: ts => t :: temps ts
  | _ :: ts => temps ts

/-- Two valid sensors that differ by more than 3 K (R512). -/
def disagree : List ℚ → Bool
  | [a, b] => decide (3 < a - b) || decide (3 < b - a)
  | _ => false

/-- The coolant sensors evaluated (R512); an injection at point 0x1A makes one read open (R573). -/
def State.coolant (s : State) (opened : Option Nat) : State :=
  let read (c : Nat) : Thermo := if opened = some c then .invalid else s.thermo c
  let ins := [read 56, read 57]
  let outs := [read 58, read 59]
  let ti := temps ins
  let t := temps outs
  let bad := (ins ++ outs).contains .invalid || disagree ti || disagree t
  let hi := ti.foldl max (ti.headD 0)
  let lo := t.foldl min (t.headD 0)
  let gov := { s.gov with inlet := if ti.isEmpty then 65 else hi, noOutlet := outs == [.invalid, .invalid] }
  let s : State := { s with gov }
  let s := s.setFld F.GOV_TCOOL_TIN (if ti.isEmpty then 0xFFFF else inUnits (16 * hi))
  let s := s.setFld F.GOV_TCOOL_TOUT (if t.isEmpty then 0xFFFF else inUnits (16 * lo))
  (if bad then s.event F.GOV_EVT_SENSOR else s).relimit

/-- FLOW_INFERENCE (R513): the 1 s means of the input power in 0.1 W and of the outlet less the inlet in 1/16 K. -/
def execFlowInference (power dt : Nat) (s : State) : Outcome :=
  act s fun s =>
    let p : ℚ := (power : ℚ) / 10
    let d : ℚ := (dt : ℚ) / 16
    if d < 2 then
      ({ s with gov := { s.gov with flowCeil := none } } : State).relimit.setFld F.GOV_FLOW_FLOW 0xFFFF
    else
      let q := 97 * p / (6830 * d)
      let low := decide (q < p / 900)
      let s : State := { s with gov := { s.gov with flowCeil := if low then some (900 * q) else none } }
      let s := s.relimit.setFld F.GOV_FLOW_FLOW (min 0xFFFE (inUnits (256 * q)))
      if low then s.event F.GOV_EVT_FLOWLOW else s

/-! ### The governor's interval (R509, R514 to R519, R522) -/

/-- The top of the VCORE range (R514, R505). -/
def State.vTop (s : State) : Nat :=
  let top := if s.gov.mode = 1 || s.gov.mode = 2 then 850 else 750
  if s.coreWeak then min top 700 else top

/-- The supply's monitors that injections at points 0x11 and 0x12 act on, passed once in each interval (R573; DESIGN
CHOICE, log 29). -/
def State.railMonitors (s : State) : State :=
  let rail := s.fld F.INJ_TARGET_UNIT
  let (hit, s') := if s.power.rails.testBit rail && rail < 8 then s.inject 0x11 rail 0 0 0 else (false, s)
  let s := s'.withSupply s
  let s := if hit then s.phaseLost rail false else s
  let (hit, s') := if s.power.rails.testBit rail && rail < 8 then s.inject 0x12 rail 0 0 0 else (false, s)
  let s := s'.withSupply s
  if hit then s.railTrip rail else s

/-- The monitors of injections at points 0x15 and 0x16 (R573; log 29). -/
def State.unitMonitors (s : State) : State :=
  let rail := s.fld F.INJ_TARGET_UNIT
  let (hit, s) := s.inject 0x15 rail 0 0 0
  let s := if hit then s.hang' 0x1 rail [] [] else s
  let (hit, s) := s.inject 0x16 0 0 0 0
  if hit then s.raiseFault 0x13 0x9 0 0 true else s

/-- VCORE after an interval (R517): down where the power exceeds the target or VCORE the range, up where the power lies
below it, by at most 10 mV; how far the spec leaves open. Throttling overrides every mode (R520). -/
def State.moveCore (s : State) (power : ℚ) (target : ℚ) : State :=
  let (n, s) := s.draw
  let v := s.fld F.GOV_STAT_VCORE
  let step := min 10 (Config.vcoreMove n)
  let top := s.vTop
  if s.flag F.GOV_STAT_THROT then s
  else if target < power || top < v then s.setFld F.GOV_STAT_VCORE (max 600 (v - step))
  else if power < target then s.setFld F.GOV_STAT_VCORE (min top (v + step))
  else s

/-- The hottest diode: its channel and value. -/
def hottest : List (Nat × Nat) → Nat × Nat
  | [] => (0, 0)
  | d :: ds => if (hottest ds).2 ≤ d.2 then d else hottest ds

/-- GOV_VIN, GOV_TJ, GOV_PWR1 and the range bits (R522); mean is the last 1 ms in 0.1 W. -/
def State.govRegs (s : State) (mean : Nat) : State :=
  let s := (s.setFld F.GOV_PWR1_PWR mean).setFld F.GOV_VIN_VIN (inUnits ((s.power.vin : ℚ) / 40))
  let s := if s.flag (F.SNC_VAL_VALID 61) then s.setFld F.GOV_VIN_IIN (inUnits ((s.fld (F.SNC_VAL_VALUE 61) : ℚ) / 8)) else s
  let s := match s.diodes with
    | [] => s
    | ds => let h := hottest ds
            (s.setFld F.GOV_TJ_CHAN h.1).setFld F.GOV_TJ_TJMAX (inUnits ((h.2 : ℚ) / 16 - 1024))
  let v := s.fld F.GOV_STAT_VCORE
  (s.setFlag F.GOV_STAT_VHIGH (decide ((if s.gov.mode = 1 || s.gov.mode = 2 then 850 else 750) ≤ v))).setFlag F.GOV_STAT_VLOW
    (decide (v ≤ 600))

/-- The governor's values after an interval: its mode from the next GOV_CTRL, and GOV_SET (R515, R517). -/
def State.govNext (s : State) : Gov :=
  let mode := s.fld F.GOV_CTRL_MODE % 4
  let mode := if mode = 3 then 0 else mode
  let fresh := mode != s.gov.mode
  { s.gov with mode, watts := s.fld F.GOV_SET_WATTS, paceLow := s.gov.paceLow && !fresh, paceThrot := s.gov.paceThrot && !fresh }

/-- The governor's control of one interval (R517, R518): the power in 0.1 W and its 1 ms mean. -/
def State.govern (s : State) (power mean : Nat) : State :=
  let mode := s.gov.mode
  let p : ℚ := (power : ℚ) / 10
  let c := s.ceiling.2
  let set : ℚ := s.gov.watts
  let low := s.outerCeils.any (fun o => decide (o.2 < set * 103 / 100))
  let target := if mode = 1 then min set c else c
  let s := s.moveCore p target
  let may := mode != 1 || decide (c ≤ set * 97 / 100)
  let gate := s.fld F.GOV_STAT_VCORE ≤ 600 && decide (c < p) && may
  let s := s.setFlag F.GOV_STAT_GATE gate
  let s := if gate then s.bump F.GOV_CNT_GATE_COUNT 1 else s
  let throt := s.flag F.GOV_STAT_THROT
  let s := if throt then s.bump F.GOV_CNT_THROTTIME_TIME 1 else s
  let s : State := { s with gov := { s.gov with paceLow := s.gov.paceLow || low, paceThrot := s.gov.paceThrot || throt } }
  s.govRegs mean

/-- GOVERNOR_INTERVAL (R517, R518): the input power measured in the interval and its 1 ms mean, in 0.1 W. -/
def execGovernorInterval (power mean : Nat) (s : State) : Outcome :=
  actWhole s fun s =>
    let s := ({ s with gov := s.govNext } : State).railMonitors
    if s.power.on then (s.unitMonitors.relimit.govern power mean).withSupply s else s

/-- BEAT_MEASUREMENT (R509): the beats that the replica of each half gave in 10 µs. -/
def execBeatMeasurement (west east : Nat) (s : State) : Outcome :=
  act s fun s => s.setFld F.GOV_BEAT_RATE (inUnits ((min west east : ℚ) * 1024 / 10000))

/-- PACE_WINDOW_END (R519): the mean input power of the 100 ms in 0.1 W; idle says that the window held an idle span longer
than 1 ms. -/
def execPaceWindowEnd (mean : Nat) (idle : Bool) (s : State) : Outcome :=
  act s fun s =>
    let s := s.setFld F.GOV_PWR100_PWR mean
    let missed := decide (1000 * mean < 9700 * s.gov.watts) || decide (10300 * s.gov.watts < 1000 * mean)
    let out := s.gov.mode == 1 && (s.gov.paceThrot || (missed && !idle && !s.gov.paceLow))
    let s := if out then s.bump F.GOV_CNT_BANDOUT_COUNT 1 else s
    { s with gov := { s.gov with paceLow := false, paceThrot := s.flag F.GOV_STAT_THROT } }

/-- GOV_CTRL_WRITE (R517): the mode holds from the next interval. -/
def execGovCtrlWrite (v : W32) (s : State) : Outcome :=
  hostReg R.GOV_CTRL s fun s => s.setFld F.GOV_CTRL_MODE (bits v 1 0)

/-- GOV_SET_WRITE (R515). -/
def execGovSetWrite (v : W32) (s : State) : Outcome :=
  hostReg R.GOV_SET s fun s =>
    let w := bits v 10 0
    let s := s.setFld F.GOV_SET_WATTS (max 500 (min 1800 w))
    if w < 500 || 1800 < w then s.event F.GOV_EVT_SETCLAMP else s

/-! ### The input (R496 to R499) -/

/-- INPUT_QUALIFY (R497): the input, in mV, has stayed inside 39 to 61 V for 25 ms. -/
def execInputQualify (vin : Nat) (s : State) : Outcome :=
  if 39000 ≤ vin && vin ≤ 61000 && !s.power.locked then
    finish s { s with power := { s.power with vin := 4 * vin, qualified := true } }
  else .next s

/-- INPUT_OVERVOLTAGE (R496, R691): the input rises above 62 V. -/
def execInputOvervoltage (vin : Nat) (s : State) : Outcome :=
  if 62000 < vin then
    let t := s.powerDown
    finish s { t with power := { t.power with vin := 4 * vin, pkgFault := true, overvolt := true, qualified := false } }
  else .next s

/-- INPUT_ABOVE_RANGE (R496): the input rises above 60 V. -/
def execInputAboveRange (vin : Nat) (s : State) : Outcome :=
  actWhole s fun s =>
    if 60000 < vin && vin ≤ 62000 then
      { s.event F.GOV_EVT_OVIN with snc := s.snc, power := { s.power with vin := 4 * vin } }
    else s

/-- INPUT_UNDERVOLTAGE_HOLD (R496, R516): the input falls below 40 V. -/
def execInputUndervoltageHold (vin : Nat) (s : State) : Outcome :=
  actWhole s fun s =>
    if 38000 ≤ vin && vin < 40000 then
      let p := { s.power with vin := 4 * vin }
      { (({ s with power := p } : State).event F.GOV_EVT_UVIN).relimit with snc := s.snc, power := p }
    else s

/-- INPUT_UNDERVOLTAGE_OFF (R496): the input falls below 38 V. -/
def execInputUndervoltageOff (vin : Nat) (s : State) : Outcome :=
  if vin < 38000 then
    let t := s.powerDown
    finish s { t with power := { t.power with vin := 4 * vin, qualified := false } }
  else .next s

/-- INPUT_OVERCURRENT (R498): above 50 A for 100 µs. -/
def execInputOvercurrent (s : State) : Outcome := actWhole s State.holdOff

/-- STUD_IMBALANCE (R499). -/
def execStudImbalance (s : State) : Outcome :=
  act s fun s => (({ s with gov := { s.gov with stud := true } } : State).event F.GOV_EVT_STUD).relimit

/-! ### Rails (R503, R504, R33) -/

/-- EFUSE_TRIP (R503) of a rail that is up. -/
def execEfuseTrip (rail : Nat) (s : State) : Outcome :=
  actWhole s fun s => if rail < 8 && s.power.rails.testBit rail then s.railTrip rail else s

/-- PHASE_LOSS (R504, R505) on a rail that is up; droop says that the rail leaves its band. -/
def execPhaseLoss (rail : Nat) (droop : Bool) (s : State) : Outcome :=
  actWhole s fun s => if rail < 8 && s.power.rails.testBit rail then s.phaseLost rail droop else s

/-- RAIL_BACK_IN_BAND (R504): held windows and programming cycles resume, and with them the commands that wait. -/
def execRailBackInBand (rail : Nat) (s : State) : Outcome :=
  actWhole s fun s =>
    if s.power.droop.testBit rail then ({ s with power := { s.power with droop := s.power.droop - 2 ^ rail } } : State).rerunAll
    else s

/-- OSCILLATOR_FAULT (R33, R579): a hub fault that halts. -/
def execOscillatorFault (s : State) : Outcome := act s fun s => s.raiseFault 0x13 0x9 0 0 true

/-! ### Pins and power-up (R502, R650, R690 to R693) -/

/-- PERST_N_ASSERT (R690): after boot it is a conventional reset (R459); before, and in recovery mode, only link training
restarts. The link is down while it is asserted. -/
def execPerstNAssert (s : State) : Outcome :=
  let p := { s.power with perst := true }
  if s.power.on then
    let t := if s.fld F.SEC_BOOT_STATE = 3 then (({ s with power := p } : State).computeReset []).hostReset else s
    finish s { t with power := p, snc := s.snc, hal := { t.hal with linkUp := false } }
  else .next { s with power := p }

/-- PERST_N_DEASSERT (R690): link training, which waited for it, takes place. -/
def execPerstNDeassert (s : State) : Outcome :=
  finish s { s with power := { s.power with perst := false }, hal := { s.hal with linkUp := s.power.on } }

/-- PKG_FAULT_N_RELEASE (R691, R498): the input falls below 10 V; whatever held the package off ends. -/
def execPkgFaultNRelease (vin : Nat) (s : State) : Outcome :=
  if vin < 10000 then
    let t := s.powerDown
    finish s { t with power := { t.power with vin := 4 * vin, pkgFault := false, overvolt := false, locked := false, qualified := false } }
  else .next s

/-- The supply as the rails start (R502, R691, R692). PKG_FAULT_N is released where an overvoltage had asserted it (DEDUCED,
log 28). -/
def Power.started (p : Power) (strap : Bool) : Power :=
  { p with on := true, rails := 255, vio18 := true, droop := 0, short := none, strap, strapHeld := strap, overvolt := false,
           pkgFault := p.pkgFault && !p.overvolt }

/-- POWER_UP (R502, R650): the rails start and the Warden boots. strap is STRAP_RECOV's level as boot step 1 begins
(R692); h0fail says that H0's Steward fails its copy's digest or its self-test (R42). -/
def execPowerUp (h0fail strap : Bool) (s : State) : Outcome :=
  if s.power.qualified && !s.power.locked && !s.power.on then
    let p := s.power.started strap
    let t : State := { s.powerDown with power := p }
    let t := (forEach allTiles t (fun t k => t.tileStart k)).boot h0fail
    finish s { t with power := p, snc := {}, hal := { t.hal with linkUp := !p.perst },
                      gov := { t.gov with mode := t.fld F.GOV_CTRL_MODE, watts := t.fld F.GOV_SET_WATTS } }
  else .next s

end Sys2Proof.Machine
end

