-- ==== Sys2Proof/Machine/Sentinel.lean ====
section
/-! DEFINITION. The Sentinel converter (16_sentinel_converter.md).
-/

namespace Sys2Proof.Machine

/-! ### The sequencer (R534, R535) -/

/-- A word of the active table. -/
def State.seqWord (s : State) (e w : Nat) : W32 := if w = 0 then s.rd (R.SNC_SEQA_W0 e) else s.rd (R.SNC_SEQA_W1 e)

/-- The first enabled entry from one on; none where the loop is at its end. -/
def State.seqEntry (s : State) (e : Nat) : Option Nat :=
  (List.range 48).find? (fun i => decide (e ≤ i) && bit (s.seqWord i 1) 8)

/-- What a result comes from (R529, R530, R534): channel, through the test converter, thresholds checked, offered to the
queue, urgent, and asked for by the host. -/
structure ResultKind where
  chan : Nat
  test : Bool := false
  thr : Bool := true
  queued : Bool := true
  urgent : Bool := false
  host : Bool := false
  deriving DecidableEq, Repr

/-- The value of a result (R529): the average of its codes in 1/16 code, less the offset but for channel 63. -/
def sncValue (chan ofs : Nat) (codes : List Nat) : Nat :=
  let v : Int := (rneDiv (16 * codes.sum) codes.length : Nat)
  let v := if chan = 63 then v else v - ((ofs : Int) - 32768)
  (max 0 (min 65535 v)).toNat

/-! ### Thresholds (R542) and test results (R544) -/

/-- The channel's bit of a _LO and _HI pair of registers. -/
def chanReg (lo hi chan : Nat) : Nat := if chan < 32 then lo else hi

/-- A channel's bit of SNC_TSTAT. -/
def State.outOfRange (s : State) (chan : Nat) : Bool := bit (s.rd (chanReg R.SNC_TSTAT_LO R.SNC_TSTAT_HI chan)) (chan % 32)

/-- A result checked against its channel's limits (R542); whether it crossed out of range. An injection at point 0x17
makes it count as above HI (R573). -/
def State.thresholds (s : State) (chan v : Nat) : Bool × State :=
  let (hit, s) := s.inject 0x17 chan 0 0 0
  let t := s.rd (R.SNC_THR chan)
  let hi : Int := bits t 31 20
  let lo : Int := bits t 19 8
  let hys : Int := bits t 7 0
  let was := s.outOfRange chan
  let out := hit || decide (16 * hi < (v : Int)) || decide ((v : Int) < 16 * lo)
  let back := !hit && decide (16 * (lo + hys) ≤ (v : Int)) && decide ((v : Int) ≤ 16 * (hi - hys))
  let now := out || (was && !back)
  let r := chanReg R.SNC_TSTAT_LO R.SNC_TSTAT_HI chan
  let s := s.wr r (putBits (s.rd r) (chan % 32) (chan % 32) (b2n now))
  if now && !was then
    let e := chanReg R.SNC_TEVT_LO R.SNC_TEVT_HI chan
    (true, ((s.wr e (putBits (s.rd e) (chan % 32) (chan % 32) 1)).event F.SNC_EVT_THR).bump F.SNC_CNT_THR_COUNT 1)
  else (false, s)

/-- A test result checked against 64 × CODE (R544). -/
def State.testPath (s : State) (chan v : Nat) : State :=
  let (hit, s) := s.inject 0x1B chan 0 0 0
  let d : Int := (v : Int) - 64 * (s.fld F.SNC_TDAC_CODE : Int)
  if hit || 16 * s.fld F.SNC_TDAC_TOL < d.natAbs then
    let s := if s.flag F.SNC_EVT_PATH then s else s.wr R.SNC_PATHCH (pack [(16, chan), (0, v)])
    (s.event F.SNC_EVT_PATH).bump F.SNC_CNT_PATH_COUNT 1
  else s

/-! ### What acts on a latest value (R192, R226, R512, R520, R521) -/

/-- A tile's junction has moved RVTEMP degrees from its calibration point (R192, R557). A tile whose TIL_CALPT is 0 has
none yet (DEDUCED, log 30). -/
def State.tempRefresh (s : State) (t v : Nat) : State :=
  let p := s.fld (F.TIL_CALPT_TEMP t)
  let d : Int := (v : Int) - 16 * (signed 16 p + 1024)
  let lim := s.fld F.HUB_PRGCFG_RVTEMP
  if lim != 0 && p != 0 && !(s.tile t).calWant && decide (256 * lim ≤ d.natAbs) then
    forEach (List.range 8) s (fun s a => s.requestRefresh t a)
  else s

/-- A new latest value is acted on. -/
def State.latest (s : State) (chan v : Nat) : State :=
  let s := s.wr (R.SNC_VAL chan) (pack [(31, 1), (0, v)])
  let s := if chan = 63 then s.setFld F.SNC_OFS_OFS v else s
  if 16 ≤ chan && chan ≤ 55 then
    let (hot, s) := s.inject 0x18 chan 0 0 0
    let s := if hot then s.throttle.throttleStep else s
    let (trip, s) := s.inject 0x19 chan 0 0 0
    let s := if trip then s.thermalTrip else s
    if chan ≤ 47 then
      forEach ((List.range 16).map (· + 16 * (chan - 16))) s (fun s t =>
        forEach (List.range 8) (s.tempRefresh t v) (fun s a => s.budget t a))
    else s
  else if 56 ≤ chan && chan ≤ 59 then
    let (lead, s) := s.inject 0x1A chan 0 0 0
    s.coolant (if lead then some chan else none)
  else s

/-! ### Results (R530 to R532) -/

/-- A result offered to the queue (R532). -/
def State.queueResult (s : State) (k : ResultKind) (v count : Nat) (cross : Bool) : State :=
  if s.snc.queue.length < 512 then
    let r : SncResult := { word := pack [(31, 1), (30, b2n k.urgent), (29, b2n k.test), (28, b2n cross), (27, b2n k.host),
      (16, k.chan), (0, v)], count, time := s.osc % 2 ^ 32 }
    { s with snc := { s.snc with queue := s.snc.queue ++ [r] } }
  else (s.bump F.SNC_CNT_QDROP_COUNT 1).event F.SNC_EVT_QDROP

/-- The supply's input voltage follows channel 60 (R525, R530): 1.25 mV for 1/16 code. -/
def Power.measured (p : Power) (k : ResultKind) (v : Nat) : Power :=
  if k.chan = 60 && !k.test then { p with vin := 5 * v } else p

/-- The Sentinel as a result takes its count (R531, R536). -/
def Sentinel.counted (q : Sentinel) : Sentinel :=
  { q with powered := true, starting := false, results := (q.results + 1) % 2 ^ 48 }

/-- What a result does to the registers and to the units that follow it; whether it crossed a threshold. Test results update
neither SNC_VAL nor SNC_TSTAT (R544). -/
def State.resultSeen (s : State) (k : ResultKind) (v n : Nat) : Bool × State :=
  let s := s.bumpPair F.SNC_CNT_CONV_LO_COUNT F.SNC_CNT_CONV_HI_COUNT n
  let s := if k.urgent then s.bump F.SNC_CNT_URG_COUNT 1 else s
  if k.test then (false, s.testPath k.chan v)
  else
    let s := s.latest k.chan v
    if k.thr then s.thresholds k.chan v else (false, s)

/-- A result completes (R530): it takes its count. -/
def State.sncResult (s : State) (k : ResultKind) (codes : List Nat) : State :=
  let codes := codes.map (· % 4096)
  let v := sncValue k.chan (s.fld F.SNC_OFS_OFS) codes
  let r := ({ s with snc := s.snc.counted, power := s.power.measured k v } : State).resultSeen k v codes.length
  let t : State := { r.2 with snc := s.snc.counted, power := s.power.measured k v }
  if k.queued then t.queueResult k v s.snc.results r.1 else t

/-- The sequencer goes on after a result of entry e (R535): further results of the pass, the next enabled entry, or the end
of the loop. -/
def State.seqAdvance (s : State) (e : Nat) : State :=
  let n := s.snc.done + 1
  if n ≤ bits (s.seqWord e 0) 15 8 then { s with snc := { s.snc with entry := e, done := n } }
  else
    let next := if bit (s.seqWord e 1) 11 then 48 else (s.seqEntry (e + 1)).getD 48
    { s with snc := { s.snc with entry := next, done := 0 } }

/-- The sequencer codes that may be under way as an urgent request comes: the pipeline's nine and that of the sample in progress
(R524, R540); none where the converter is not powered (R536). -/
def Sentinel.flight (q : Sentinel) : Nat := if q.powered then 10 else 0

/-- May a sequencer result of A codes complete (R540)? The oldest urgent request takes the period after the sample in progress, so
only codes of samples taken before then come ahead of its result. The last code alone of the first such result needs to. -/
def Sentinel.clearFor (q : Sentinel) (a : Nat) : Bool :=
  q.urgent.isEmpty || q.ahead.headD 10 == 10 || decide (a ≤ q.ahead.headD 10)

/-- A sequencer result of A codes has come ahead of the requests that wait. -/
def Sentinel.passed (q : Sentinel) (a : Nat) : Sentinel :=
  { q with ahead := q.ahead.map (fun b => if b = 10 then 9 else b - a) }

/-- The oldest request has its result; the longest waiting requester takes a place in the queue (R539). -/
def Sentinel.served (q : Sentinel) : Sentinel :=
  { q with urgent := q.urgent.drop 1 ++ q.waiting.take 1, waiting := q.waiting.drop 1,
           ahead := q.ahead.drop 1 ++ (q.waiting.take 1).map (fun _ => q.flight) }

/-- A request takes a place in the urgent queue. -/
def Sentinel.request (q : Sentinel) (chan : Nat) (who : UrgBy) : Sentinel :=
  { q with urgent := q.urgent ++ [(chan, who)], ahead := q.ahead ++ [q.flight] }

/-- SENTINEL_RESULT (R529, R530): the codes of the sequencer entry in progress, or of the oldest urgent request. -/
def execSentinelResult (urgent : Bool) (codes : List Nat) (s : State) : Outcome :=
  actWhole s fun s =>
    if !(s.snc.powered || s.snc.starting) then s
    else if urgent then
      match s.snc.urgent with
      | q :: _ =>
        if codes.length = 1 then
          ({ s with snc := s.snc.served } : State).sncResult { chan := q.1, queued := s.flag F.SNC_CTRL_UQ, urgent := true, host := q.2 == .host } codes
        else s
      | [] => s
    else
      match s.seqEntry s.snc.entry with
      | some e =>
        let w := s.seqWord e 1
        if codes.length = bits w 5 0 + 1 && s.snc.clearFor codes.length then
          let s := ({ s with snc := s.snc.passed codes.length } : State).seqAdvance e
          s.sncResult { chan := bits (s.seqWord e 0) 5 0, test := bit w 12, thr := bit w 10, queued := !bit w 9 } codes
        else s
      | none => s

/-- The shadow table becomes the active one where it is well-formed (R537). -/
def State.swapTable (s : State) : State :=
  let es := (List.range 48).map (fun i => (s.rd (R.SNC_SEQB_W0 i), s.rd (R.SNC_SEQB_W1 i)))
  if tableOk es then (s.setTable es).event F.SNC_EVT_SWAP else s.event F.SNC_EVT_TBLERR

/-- SENTINEL_LOOP_END (R535, R537): the loop returns to entry 0, with the shadow table where a swap is pending. -/
def execSentinelLoopEnd (s : State) : Outcome :=
  actWhole s fun s =>
    if s.snc.entry < 48 then s
    else { (if s.snc.swap then s.swapTable else s).withSupply s with snc := { s.snc with entry := 0, done := 0, swap := false } }

/-- Empty periods before the next sequencer sample (R534). -/
def State.nextDelay (s : State) : Nat :=
  match (s.seqEntry s.snc.entry).orElse (fun _ => s.seqEntry 0) with
  | some e => if s.snc.done = 0 then bits (s.seqWord e 0) 31 16 else 0
  | none => 34

/-- Empty periods that let the converter power down (R536): none of the next 25 holds a sequencer sample once no code is pending.
The last sample's code emerges nine periods after it (R524), so a delay counts from nine earlier, but for the first of all. -/
def State.idlePeriods (s : State) : Nat := if s.snc.results = 0 then 26 else 34

/-- SENTINEL_POWER_DOWN (R536): no urgent request waits and the next sequencer sample lies more than 25 periods away. -/
def execSentinelPowerDown (s : State) : Outcome :=
  actWhole s fun s =>
    if s.snc.powered && s.snc.urgent.isEmpty && decide (s.idlePeriods ≤ s.nextDelay) then
      { s with snc := { s.snc with powered := false } }
    else s

/-- SENTINEL_START_UP (R536): a sample falls due while the converter is powered down. -/
def execSentinelStartUp (s : State) : Outcome :=
  actWhole s fun s =>
    if s.snc.powered || s.snc.starting then s
    else ({ s with snc := { s.snc with starting := true } } : State).bump F.SNC_CNT_START_COUNT 1

/-! ### Urgent requests (R539 to R541) -/

/-- An urgent request: the host's is dropped where the queue is full, another requester waits (R539). -/
def State.urgentRequest (s : State) (chan : Nat) (who : UrgBy) : State :=
  let q := (chan % 64, who)
  if s.snc.urgent.length < 64 then { s with snc := s.snc.request q.1 q.2 }
  else if who = .host then s.event F.SNC_EVT_UDROP
  else ({ s with snc := { s.snc with waiting := s.snc.waiting ++ [q] } } : State).bump F.SNC_CNT_UWAIT_COUNT 1

/-- URGENT_REQUEST (R539). -/
def execUrgentRequest (chan : Nat) (who : UrgBy) (s : State) : Outcome :=
  actWhole s fun s => s.urgentRequest chan who

/-! ### Host accesses (R533, R537, R539, R542, R545) -/

/-- SNC_URG_WRITE (R539). -/
def execSncUrgWrite (chan : Nat) (s : State) : Outcome :=
  sncReg R.SNC_URG s fun s => s.urgentRequest chan .host

/-- The oldest result removed and latched (R533). What an empty queue's read returns beside VALID = 0 the spec does not
say: a free value (log 30). -/
def State.popResult (s : State) : W32 × State :=
  match s.snc.queue with
  | r :: rest =>
    let s : State := { s with snc := { s.snc with queue := rest } }
    let acc := 0xC000 * 2 ^ 48 + r.count
    (r.word, ((s.wr R.SNC_QSTAT r.word).setPair F.SNC_QACC_LO_ACC F.SNC_QACC_HI_ACC acc).setFld F.SNC_QTIME_TIME r.time)
  | [] =>
    let (n, s) := s.draw
    let w : W32 := BitVec.ofNat 32 (leNat ((List.range 4).map (Config.undefinedByte n))) &&& 0x783FFFFF
    (w, s.wr R.SNC_QSTAT w)

/-- SNC_QSTAT_READ (R533). -/
def execSncQstatRead (s : State) : Outcome := sncRead R.SNC_QSTAT s State.popResult

/-- SNC_THR_WRITE (R542). -/
def execSncThrWrite (chan : Nat) (v : W32) (s : State) : Outcome :=
  hostReg (R.SNC_THR (chan % 64)) s fun s => s.wr (R.SNC_THR (chan % 64)) v

/-- SHADOW_TABLE_WRITE (R537): word 0 or 1 of an entry. -/
def execShadowTableWrite (entry word : Nat) (v : W32) (s : State) : Outcome :=
  let off := if word % 2 = 0 then R.SNC_SEQB_W0 (entry % 48) else R.SNC_SEQB_W1 (entry % 48)
  sncReg off s fun s => if s.snc.swap then s.event F.SNC_EVT_TBLERR else s.wr off v

/-- SWAP (R537). -/
def execSwap (s : State) : Outcome :=
  sncReg R.SNC_CTRL s fun s => { s with snc := { s.snc with swap := true } }

/-- SNC_CNT_CLR (R545). -/
def execSncCntClr (s : State) : Outcome :=
  hostReg R.SNC_CTRL s fun s => s.clearRegs (fun o => R.SNC_CNT_CONV_LO ≤ o && o ≤ R.SNC_CNT_PATH)

end Sys2Proof.Machine
end

