-- ==== Sys2Proof/Machine/Folio.lean ====
section
/-! DEFINITION. Draining the folios (R628, R634 to R642).
-/

namespace Sys2Proof.Machine

/-- Bytes of the destination ring (R635). -/
def State.folSize (s : State) : Nat := 2 ^ s.fld F.FOL_SIZE_LOG2

/-- The destination is a ring that can be written: in a memory stack, or in host memory over a link that is up. -/
def State.folRing (s : State) : Bool :=
  s.flag F.FOL_CTRL_EN && ((s.fld F.FOL_CTRL_DEST == 0 && decide (s.fld F.FOL_CTRL_STACK < 8)) || (s.fld F.FOL_CTRL_DEST == 1 && s.linkUp))

/-- Bytes that the ring holds beyond FOL_CONS. -/
def State.folUsed (s : State) : Nat :=
  (s.pair F.FOL_PROD_LO_BYTES F.FOL_PROD_HI_BYTES + 2 ^ 64 - s.pair F.FOL_CONS_LO_BYTES F.FOL_CONS_HI_BYTES) % 2 ^ 64

/-- The address of a ring position in its memory. -/
def State.folAddr (s : State) (pos : Nat) : Nat :=
  let base := s.pair F.FOL_BASE_LO_ADDR F.FOL_BASE_HI_ADDR
  (if s.fld F.FOL_CTRL_DEST = 0 then stackBytes * s.fld F.FOL_CTRL_STACK + base else base) + pos % s.folSize

/-- A byte string written into the ring at a position, wrapping at its end. -/
def State.folWrite (s : State) (pos : Nat) (b : List Byte) : State :=
  let n := s.folSize - pos % s.folSize
  let put (s : State) (a : Nat) (b : List Byte) : State := if s.fld F.FOL_CTRL_DEST = 0 then s.putMem a b else s.putHost a b
  put (put s (s.folAddr pos) (b.take n)) (s.folAddr 0) (b.drop n)

/-- LENGTH of the record at a ring position (R629), as the memory ring holds it; a length that no record has counts as the
shortest (DESIGN CHOICE, log 31). -/
def State.folLength (s : State) (pos : Nat) : Nat := max 40 (leNat [lookup memReset s.mem (s.folAddr (pos + 2)), lookup memReset s.mem (s.folAddr (pos + 3))])

/-- Under WRAP the oldest whole records give way until n bytes fit, with fuel (R639). -/
def State.folMakeRoom (s : State) (n : Nat) : Nat → State
  | 0 => s
  | f + 1 =>
    if s.folUsed + n ≤ s.folSize then s
    else
      let cons := s.pair F.FOL_CONS_LO_BYTES F.FOL_CONS_HI_BYTES
      let s := s.setPair F.FOL_CONS_LO_BYTES F.FOL_CONS_HI_BYTES ((cons + s.folLength cons) % 2 ^ 64)
      State.folMakeRoom (s.bump F.FOL_CNT_WRAP_COUNT 1) n f

/-- A record appended to the ring, or none where it does not fit (R639). -/
def State.folAppend (s : State) (r : List Byte) : Option State :=
  let s := if s.fld F.FOL_CTRL_DEST = 0 && s.flag F.FOL_CTRL_WRAP then s.folMakeRoom r.length r.length else s
  if s.folUsed + r.length ≤ s.folSize then
    let prod := s.pair F.FOL_PROD_LO_BYTES F.FOL_PROD_HI_BYTES
    some (((s.folWrite prod r).setPair F.FOL_PROD_LO_BYTES F.FOL_PROD_HI_BYTES ((prod + r.length) % 2 ^ 64)).setFlag F.FOL_STAT_STOPPED false)
  else none

/-- What the drain's destination earns in 10 ns, in 1/10,240 of a byte: 60, 7.68 or 96 GB/s (R635). The host link counts
as trained at ×16 and 128 GT/s (DESIGN CHOICE, log 81: no event gives its width). -/
def State.drainRate (s : State) : Nat :=
  if s.fld F.FOL_CTRL_DEST = 0 then 600 * 10240 else if s.fld F.FOL_CTRL_DEST = 1 then 768 * 1024 else 960 * 10240

/-- The destination's credit, held up to 64 KiB (R637). -/
def State.drainCredit (s : State) : Nat := s.drain.credit.now 65536 s.drainRate s.osc

/-- The destination's credit pays for a record (R635, R637). -/
def State.drainPaid (s : State) (n : Nat) : State :=
  { s with drain := { s.drain with credit := s.drain.credit.spend 65536 s.drainRate s.osc n } }

/-- Both credits cover a tile's oldest record (R637). -/
def State.drainable (s : State) (t : Nat) : Bool :=
  match (s.tile t).folio with
  | [] => false
  | r :: _ => decide (10240 * r.length ≤ s.tileCredit t) && decide (10240 * r.length ≤ s.drainCredit)

/-- A tile's turn: of the tiles whose record can drain, it is the next in ascending number after the last one (R636). -/
def State.drainTurn (s : State) (t : Nat) : Bool :=
  !(List.range ((t + 511 - s.drain.last) % 512)).any (fun k => s.drainable ((s.drain.last + 1 + k) % 512))

/-- FOLIO_DRAIN (R636, R637, R639): the hub takes a tile's oldest record. -/
def execFolioDrain (t : Nat) (s : State) : Outcome :=
  act s fun s =>
    match (s.tile t).folio with
    | [] => s
    | r :: rest => if !s.drainable t || !s.drainTurn t then s else
      let taken (s : State) : State :=
        let s := s.drainPaid r.length
        let s : State := { s with drain := { s.drain with last := t } }
        ((s.putTileRec t (s.paid { s.tile t with folio := rest } r.length)).bump F.FOL_CNT_REC_COUNT 1).foldOcc t |>.dropRecord t
      if s.folRing then
        match s.folAppend r with
        | some s => taken s
        | none => s.event F.FOL_STAT_STOPPED
      else if s.flag F.FOL_CTRL_EN && s.fld F.FOL_CTRL_DEST == 2 then taken (s.sendOn (s.fld F.FOL_RDEV_DEV) 4 t r)
      else s

/-- The record that drains next: the oldest of the tile whose turn it is (R636). -/
def State.nextDrain (s : State) : Option (List Byte) :=
  (((List.range 512).map (fun k => (s.drain.last + 1 + k) % 512)).find? s.drainable).bind (fun t => (s.tile t).folio.head?)

/-- The ring still has too little space for the next record (R639). -/
def State.folStuck (s : State) : Bool := s.nextDrain.any (fun r => decide (s.folSize < s.folUsed + r.length))

/-- SYNC_RECORD (R634): the tile's count has crossed a multiple of 2^30. -/
def execSyncRecord (t : Nat) (s : State) : Outcome := act s fun s => s.syncRecord t

/-- The records of a byte string by their LENGTH, with fuel. -/
def splitRecords : Nat → List Byte → List (List Byte)
  | 0, _ => []
  | f + 1, b =>
    let n := leAt b 2 2
    if n = 0 || b.length < n then [] else b.take n :: splitRecords f (b.drop n)

/-- Received records appended to this device's own ring in order; from the first that does not fit, they are lost
(DESIGN CHOICE, log 31). -/
def State.traceIn (s : State) : List (List Byte) → State
  | [] => s
  | r :: rs =>
    match s.folAppend r with
    | some s => State.traceIn (s.drainPaid r.length) rs
    | none => s.event F.FOL_STAT_STOPPED

/-- TRACE_MESSAGE (R635). -/
def execTraceMessage (records : List Byte) (s : State) : Outcome :=
  act s fun s => if s.folRing then s.traceIn (splitRecords records.length records) else s

/-- FOL_CONS_WRITE (R639): a write of FOL_CONS_LO, with the held FOL_CONS_HI; the drain goes on once the next record fits. -/
def execFolConsWrite (v : W32) (s : State) : Outcome :=
  hostReg R.FOL_CONS_LO s fun s =>
    let s := s.writeLo R.FOL_CONS_LO v
    if s.folStuck then s else s.setFlag F.FOL_STAT_STOPPED false

/-- FOL_CNT_CLR (R642). -/
def execFolCntClr (s : State) : Outcome :=
  hostReg R.FOL_CTRL s fun s => s.clearRegs (fun o =>
    (R.FOL_CNT_DROP ≤ o && o ≤ R.FOL_CNT_WRAP) || (R.FOL_TDROP 0 ≤ o && o ≤ R.FOL_TDROP 511 && (o - R.FOL_TDROP 0) % 16 == 0))

end Sys2Proof.Machine
end

