-- ==== Sys2Proof/Machine/Access.lean ====
section
/-! DEFINITION. BAR0 accesses (R110, R288, R357, R386, R416, R495, R523, R618, R626, R673 to R684): what a host read
returns, latches, held writes, and writes of registers that have no row of their own.
-/

namespace Sys2Proof.Machine

/-! ### What a register shows (R16) -/

/-- HUB_ registers that follow other state (R682). -/
def State.hubView (s : State) (off : Nat) : Option W32 :=
  if off = R.HUB_ID then some (pack [(16, 0x4096), (8, 2), (0, Config.stepping.toNat)])
  else if off = R.HUB_ENSIGN then
    some (pack [(31, b2n (s.ens.epoch != 0)), (30, s.ens.half), (29, b2n (s.ens.standby == some s.record))])
  else if off = R.HUB_DEVSTAT then
    some (pack [(31, b2n (s.fld F.SEC_BOOT_STATE == 3)), (30, b2n (s.flag F.FAB_DEVNUM_VALID)), (29, b2n (s.fld F.HUB_CHSTAT_STATE == 2)),
      (28, b2n s.job.running), (27, b2n (s.fld F.RST_STAT_STATE == 6))])
  else if off = R.HUB_EVTSUM then some (BitVec.ofNat 32 s.evtSum)
  else if off = R.HUB_OSC_LO then some (lo32 s.osc)
  else if off = R.HUB_OSC_HI then some (hi32 s.osc)
  else if R.HUB_TEVT 0 ≤ off && off ≤ R.HUB_TEVT 15 then some (BitVec.ofNat 32 (s.tevt ((off - R.HUB_TEVT 0) / 4)))
  else none

/-- HAL_CKSTAT.STATE (R493): idle, staged, streaming, or stalled for want of a buffer or of the
link (R491). -/
def State.ckState (s : State) : Nat :=
  let free := s.linkUp && s.fld F.HAL_CKSIZE_LOG2 != 0 && s.fld F.HAL_CKCONS_COUNT != s.hal.ckProd
  if s.hal.ckStream.isSome then (if free then 2 else 3) else if s.hal.ckStaged.isSome then 1 else 0

/-- A root segment stays in its slot because its engine has not handled the outcome of the step before (R373). -/
def State.freHold (s : State) : Bool :=
  let l := clog2 s.chart.replicas
  s.fre.slots.any (fun x => x.own && x.level == l && s.shardDevice x.shard == s.devNum
    && decide ((s.engine (s.chart.shards.getD x.shard {}).engine).handled < x.step))

/-- An engine's returned parameters are still on their way out of the device (R347 step 6a, R382): messages of its shards that
the link has not acknowledged. -/
def State.returning (s : State) (n : Nat) : Bool :=
  let mine (m : Msg) : Bool := m.src == s.devNum && m.cls == 2 && s.shardDevice (leAt m.payload 8 4) == s.devNum
    && (s.chart.shards.getD (leAt m.payload 8 4) {}).engine == n
  s.fab.wait.any mine || (List.range 32).any (fun p => (s.port p).msgs.any mine)

/-- UPD_STAT (R356): the shards held, and STATE 0x6 while an idle engine's parameters leave. -/
def State.updView (s : State) (off n : Nat) : W32 :=
  let w := putBits (s.rd off) 8 0 (s.shardsAt n).length
  if s.fld (F.UPD_STAT_STATE n) = 0 && s.returning n then putBits w 31 28 6 else w

/-- Other hub registers that follow units' state (R385, R454, R493, R545, R669, R670). -/
def State.unitView (s : State) (off : Nat) : Option W32 :=
  if off = R.SNC_STAT then
    some (pack [(31, b2n s.snc.powered), (24, s.snc.urgent.length), (23, b2n s.snc.swap), (16, (s.seqEntry s.snc.entry).getD 0),
      (0, s.snc.queue.length)])
  else if off = R.FRE_STAT then
    let root := s.charter.isSome && s.devNum == s.chart.stepRoot
    let d := s.stageDevs.length
    some (pack [(31, b2n root), (30, b2n s.freHold), (16, clog2 d), (0, s.slotsUsed)])
  else if off = R.FRE_RANK then some (pack [(16, s.stageDevs.length - 1), (0, s.rank)])
  else if off = R.FAB_SERIAL_LO then some (lo32 mySerial)
  else if off = R.FAB_SERIAL_HI then some (hi32 mySerial)
  else if off = R.FAB_ACC_LO then some (lo32 s.fab.count)
  else if off = R.FAB_ACC_HI then some (hi32 s.fab.count)
  else if off = R.HAL_CKSTAT then some (putBits (s.rd off) 31 30 s.ckState)
  else if off = R.LDG_STAT then some (putBits (s.rd off) 8 0 s.ledger.queue.length)
  else if R.SEC_RWIN 0 ≤ off && off ≤ R.SEC_RWIN 16383 then
    some (if s.inRecovery then
      BitVec.ofNat 32 (leNat (readMany (fun _ => 0) s.sec.store (s.fld F.SEC_RWOFS_OFS + (off - R.SEC_RWIN 0)) 4)) else 0)
  else none

/-- The page that CNT_RDSEL selects on a tile (R626). -/
def State.pageRead (s : State) (t : Nat) : Nat :=
  if s.flag (F.CNT_RDSEL_CUR t) then s.fld (F.CNT_STAT_CUR t) else s.fld (F.CNT_RDSEL_PAGE t)

/-- A page has an owner. -/
def State.pageOwned (s : State) (t p : Nat) : Bool := if p = 0 then s.flag (F.CNT_STAT_AOWN t) else s.flag (F.CNT_STAT_BOWN t)

/-- What CNT_RDVAL and CNT_RDACC show: value, page, running, owner's accession number (R626, R627). -/
def State.countView (s : State) (t : Nat) : Nat × Nat × Bool × Nat :=
  let p := s.pageRead t
  let run := if p = 0 then s.flag (F.CNT_STAT_ARUN t) else s.flag (F.CNT_STAT_BRUN t)
  let acc := if p = 0 then s.pair (F.CNT_AOWN_LO_ACC t) (F.CNT_AOWN_HI_ACC t) else s.pair (F.CNT_BOWN_LO_ACC t) (F.CNT_BOWN_HI_ACC t)
  if s.pageOwned t p then (s.count t p (s.fld (F.CNT_RDSEL_INDEX t)), p, run, acc) else (0, p, run, 0)

/-- In digital forward mode the DPA computes every column of an array that the job uses (R256). -/
def State.dfwdCovers (s : State) (t a : Nat) : Bool := s.dfwd && s.myPlacements.any (fun p => p.tile == t && p.array == a)

/-- OPE_STAT (R242, R259): the lane mode, covered columns, digital forward mode. A command is atomic here: none of the busy
bits shows between two commands (log 11). -/
def State.opeStat (s : State) (t : Nat) : W32 :=
  pack [(11, b2n (s.tile t).laneMode), (4, b2n (s.covered t != 0 || (List.range 8).any (s.dfwdCovers t))), (3, b2n s.dfwd)]

/-- Tile registers that follow other state (R157, R200, R259, R575, R641). DESIGN CHOICE: ARR_WEARVAL of a column above 530,
which no column has, shows the bank's count at power-up (log 70). -/
def State.tileView (s : State) (t o : Nat) : Option W32 :=
  let a := (o - 0x2000) / 0x400
  let v := s.countView t
  if o = R.CNT_RDVAL_LO 0 % 0x4000 then some (lo32 v.1)
  else if o = R.CNT_RDVAL_HI 0 % 0x4000 then some (pack [(31, v.2.1), (30, b2n v.2.2.1), (0, v.1 / 2 ^ 32)])
  else if o = R.CNT_RDACC_LO 0 % 0x4000 then some (lo32 v.2.2.2)
  else if o = R.CNT_RDACC_HI 0 % 0x4000 then some (hi32 v.2.2.2)
  else if o = R.OPE_STAT 0 % 0x4000 then some (s.opeStat t)
  else if 0x2000 ≤ o && o % 0x400 == R.ARR_STAT 0 0 % 0x400 then
    some (if s.dfwdCovers t a then putBits (s.rd (R.ARR_STAT t a)) 4 4 1 else s.rd (R.ARR_STAT t a))
  else if 0x2000 ≤ o && o % 0x400 == R.ARR_BSTAT 0 0 % 0x400 then
    some (putBits (s.rd (R.ARR_BSTAT t a)) 6 6 (b2n s.badPrgcfg))
  else if 0x2000 ≤ o && o % 0x400 == R.ARR_WEARVAL 0 0 % 0x400 then
    some (BitVec.ofNat 32 (((s.arr t a).bank (s.fld (F.ARR_WEARSEL_BANK t a))).wearOf (s.fld (F.ARR_WEARSEL_COL t a))))
  else if 0x2000 ≤ o && o % 0x400 == R.ARR_TRIMVAL 0 0 % 0x400 then
    let x := s.arr t a
    let c := s.fld (F.ARR_TRIMSEL_COL t a)
    let (g, f) := if s.flag (F.ARR_TRIMSEL_SET t a) then (x.shadowGain, x.shadowOfs) else (x.gain, x.ofs)
    some (pack [(8, lookup (fun _ => 0) g c % 64), (0, lookup (fun _ => 0) f c % 64)])
  else none

/-- What a register shows now, before any latch. -/
def State.view (s : State) (off : Nat) : W32 :=
  if off < 0x10000 then (s.hubView off).getD (s.rd off)
  else if off < 0x80000 then (s.unitView off).getD (s.rd off)
  else if off < 0x1000000 then
    (if off % 0x400 = 0 && off < 0x82000 then s.updView off ((off - 0x80000) / 0x400) else s.rd off)
  else (s.tileView ((off - 0x1000000) / 0x4000) ((off - 0x1000000) % 0x4000)).getD (s.rd off)

/-- What a host read of a register returns: its latched copy where a read latched one. -/
def State.hostView (s : State) (off : Nat) : W32 := (lookup (fun _ => none) s.latch off).getD (s.view off)

/-- Registers latched (R676 and the latch rules of the chapters): until the next such read they return what they show now. -/
def State.latchAll (s : State) (offs : List Nat) : State :=
  { s with latch := forEach offs s.latch (fun m o => store (fun _ => none) m o (some (s.view o))) }

/-! ### Reads -/

/-- The registers that a read of a tile register latches (R110, R288, R626). -/
def tileLatched (t o : Nat) : Option (List Nat) :=
  if o = R.TIL_NSTAT 0 % 0x4000 then some [R.TIL_NROW t, R.TIL_NCOL t, R.TIL_NSAT t, R.TIL_NACC_LO t, R.TIL_NACC_HI t]
  else if o = R.TIL_RSE_LOSS_HI 0 % 0x4000 then some [R.TIL_RSE_LOSS_LO t]
  else if o = R.CNT_RDVAL_LO 0 % 0x4000 then some [R.CNT_RDVAL_HI t, R.CNT_RDACC_LO t, R.CNT_RDACC_HI t]
  else none

/-- The registers that a read latches by a rule of its chapter (R357, R386, R416, R495, R523, R618, R683). -/
def ruleLatched (off : Nat) : Option (List Nat) :=
  if off = R.FRE_OUTCOME then some [R.FRE_OUTSTEP_LO, R.FRE_OUTSTEP_HI, R.FRE_VETOSRC, R.FRE_VETOSHARD]
  else if off = R.RST_FLTCLS then some [R.RST_FLTACC_LO, R.RST_FLTACC_HI, R.RST_FLTSTEP_LO, R.RST_FLTSTEP_HI]
  else if off = R.HUB_ENSIGN then some [R.HUB_EPOCH]
  else if off = R.HUB_CHSTAT then
    some [R.HUB_CHSECT, R.HUB_CHENTRY, R.HUB_CHQTY_LO, R.HUB_CHQTY_HI, R.HUB_CHLIM_LO, R.HUB_CHLIM_HI]
  else if off = R.GOV_STAT then some [R.GOV_BEAT, R.GOV_PWR1, R.GOV_PWR100, R.GOV_CEIL, R.GOV_TJ]
  else if R.CTX_LASTERR 0 ≤ off && off ≤ R.CTX_LASTERR 15 && (off - R.CTX_LASTERR 0) % 0x40 == 0 then some [off + 4, off + 8]
  else if R.UPD_GNORM 0 ≤ off && off ≤ R.UPD_GNORM 7 && (off - R.UPD_GNORM 0) % 0x400 == 0 then some [off + 4]
  else if 0x1000000 ≤ off && off < 0x1800000 then tileLatched ((off - 0x1000000) / 0x4000) ((off - 0x1000000) % 0x4000)
  else none

/-- A _LO register of a pair that no latch rule of its chapter names (R676). -/
def isLo (off : Nat) : Bool := match findReg off with
  | some (r, _) => r.kind == 4
  | none => false

/-- The registers that a read of an offset latches. -/
def latchedBy (off : Nat) : List Nat := (ruleLatched off).getD (if isLo off then [off + 4] else [])

/-- A host read: what it returns, and its side effects. -/
def State.readReg (s : State) (off : Nat) : W32 × State := (s.hostView off, s.latchAll (latchedBy off))

/-- TIL_NSTAT_READ (R110). -/
def execTilNstatRead (t : Nat) (s : State) : Outcome :=
  hostRead (R.TIL_NSTAT t) s fun s => s.readReg (R.TIL_NSTAT t)

/-- TIL_RSE_LOSS_HI_READ (R288). -/
def execTilRseLossHiRead (t : Nat) (s : State) : Outcome :=
  hostRead (R.TIL_RSE_LOSS_HI t) s fun s => s.readReg (R.TIL_RSE_LOSS_HI t)

/-- FRE_OUTCOME_READ (R386). -/
def execFreOutcomeRead (s : State) : Outcome := hostRead R.FRE_OUTCOME s fun s => s.readReg R.FRE_OUTCOME

/-- UPD_GNORM_READ (R357). -/
def execUpdGnormRead (n : Nat) (s : State) : Outcome := hostRead (R.UPD_GNORM n) s fun s => s.readReg (R.UPD_GNORM n)

/-- RST_FLTCLS_READ (R618). -/
def execRstFltclsRead (s : State) : Outcome := hostRead R.RST_FLTCLS s fun s => s.readReg R.RST_FLTCLS

/-- CNT_RDVAL_LO_READ (R626). -/
def execCntRdvalLoRead (t : Nat) (s : State) : Outcome :=
  hostRead (R.CNT_RDVAL_LO t) s fun s => s.readReg (R.CNT_RDVAL_LO t)

/-- HUB_ENSIGN_READ (R683). -/
def execHubEnsignRead (s : State) : Outcome := hostRead R.HUB_ENSIGN s fun s => s.readReg R.HUB_ENSIGN

/-- HUB_CHSTAT_READ (R416). -/
def execHubChstatRead (s : State) : Outcome := hostRead R.HUB_CHSTAT s fun s => s.readReg R.HUB_CHSTAT

/-- GOV_STAT_READ (R523). -/
def execGovStatRead (s : State) : Outcome := hostRead R.GOV_STAT s fun s => s.readReg R.GOV_STAT

/-- CTX_LASTERR_READ (R495). -/
def execCtxLasterrRead (c : Nat) (s : State) : Outcome := hostRead (R.CTX_LASTERR c) s fun s => s.readReg (R.CTX_LASTERR c)

/-- LO_REGISTER_READ (R676): a _LO register without a latch rule of its own. -/
def execLoRegisterRead (off : Nat) (s : State) : Outcome :=
  if isLo off then hostRead off s fun s => s.readReg off else .next s

/-! ### Accesses that are not served (R673, R675, R679, R680) -/

/-- A host access that is refused: a read returns v. -/
def State.refuse (s : State) (f : Fld) (off : Nat) (write : Bool) (v : Nat) : State :=
  let s := s.badAccess f off
  if write then s else { s with readData := v }

/-- NARROW_ACCESS (R675): n bytes at a byte address, other than an aligned 4-byte access. A narrow read that crosses no
boundary acts as a 4-byte read and returns its bytes. -/
def execNarrowAccess (addr n : Nat) (write : Bool) (s : State) : Outcome :=
  let off := addr - addr % 4
  let cross := decide (addr % 4 != 0) && decide (4 < addr % 4 + n)
  if n = 0 || (4 ≤ n && addr % 4 = 0) then .next s
  else if write || cross then act s fun s => s.refuse F.HUB_ERR_NARROW addr write 0
  else if (findReg off).isNone || !s.served off then act s fun s => s.refuse F.HUB_ERR_UNMAPPED addr false 0
  else
    actWhole s fun s =>
      let (v, s) := if off = R.SNC_QSTAT then s.popResult else s.readReg off
      { s with readData := v.toNat / 2 ^ (8 * (addr % 4)) % 2 ^ (8 * n) }

/-- UNMAPPED_ACCESS (R673, R681). -/
def execUnmappedAccess (off : Nat) (write : Bool) (s : State) : Outcome :=
  act s fun s => if (findReg off).isSome && s.served off then s else s.refuse F.HUB_ERR_UNMAPPED off write 0

/-- REGISTER_NO_RESPONSE (R679). -/
def execRegisterNoResponse (off : Nat) (write : Bool) (s : State) : Outcome :=
  act s fun s => if (findReg off).isSome && s.served off then s.refuse F.HUB_ERR_NORESP off write 0xFFFFFFFF else s

/-- RESET_UNIT_ACCESS (R680): a register of a tile, an update engine or a memory controller that is held in reset. -/
def execResetUnitAccess (off : Nat) (write : Bool) (s : State) : Outcome :=
  act s fun s =>
    if (findReg off).isSome && s.served off && 0x80000 ≤ off then s.refuse F.HUB_ERR_RESET off write 0 else s

/-! ### Writes -/

/-- Registers whose writes have rows of their own. -/
def ownRow (off : Nat) : Bool :=
  [R.GOV_CTRL, R.GOV_SET, R.SNC_URG, R.INJ_CTRL, R.FOL_CONS_LO, R.HUB_EVTMASK, R.LDG_CMD].contains off
    || (R.SNC_THR 0 ≤ off && off ≤ R.SNC_THR 63)
    || (R.SNC_SEQB_W0 0 ≤ off && off ≤ R.SNC_SEQB_W1 47)
    || (R.FAB_PCTRL 0 ≤ off && off ≤ R.FAB_PCTRL 31 && (off - R.FAB_PCTRL 0) % 0x80 == 0)
    || (R.HAL_CTRL 0 ≤ off && off < R.HAL_CTRL 17
        && [R.HAL_CTRL 0, R.HAL_CQHEAD 0, R.HAL_IRQ 0].any (fun o => o - R.HAL_CTRL 0 == (off - R.HAL_CTRL 0) % 0x100))

/-- The _HI of an RW pair (R677). -/
def isRwHi (off : Nat) : Bool := match findReg (off - 4) with
  | some (r, _) => decide (4 ≤ off) && r.kind == 4 && r.rw != 0
  | none => false

/-- Address bits that stand at zero in a register (R493, R617, R642, R669). DESIGN CHOICE: the tables call these bits zero, and
a write of 1 to one of them is dropped (log 80). -/
def addrMask (off : Nat) : W32 :=
  if off = R.HAL_WIN_LO then 0xC0000000
  else if off = R.FOL_BASE_LO || off = R.SEC_UPDSRC_LO || off = R.HAL_CKBASE_LO || off = R.RST_DUMPBASE_LO then 0xFFFFF000
  else if R.HAL_FDBASE_LO 0 ≤ off && off < R.HAL_FDBASE_LO 64 && (off - R.HAL_FDBASE_LO 0) % 0x40 == 0 then 0xFFFFF000
  else if R.HAL_CTRL 0 ≤ off && off < R.HAL_CTRL 17
      && [R.HAL_SQBASE_LO 0, R.HAL_CQBASE_LO 0].any (fun o => o - R.HAL_CTRL 0 == (off - R.HAL_CTRL 0) % 0x100) then 0xFFFFF000
  else 0xFFFFFFFF

/-- A LOG2 field's listed range (R462, R635); true for other registers. -/
def inRange (off : Nat) (v : W32) : Bool :=
  let n := bits v 4 0
  if off = R.FOL_SIZE then 16 ≤ bits v 5 0 && bits v 5 0 ≤ 36
  else if off = R.HAL_CKSIZE then n == 0 || (4 ≤ n && n ≤ 16)
  else if R.HAL_SIZE 0 ≤ off && off ≤ R.HAL_SIZE 16 && (off - R.HAL_SIZE 0) % 0x100 == 0 then 6 ≤ n && n ≤ 16
  else if R.HAL_FDSIZE 0 ≤ off && off ≤ R.HAL_FDSIZE 63 && (off - R.HAL_FDSIZE 0) % 0x40 == 0 then n == 0 || (6 ≤ n && n ≤ 16)
  else true

/-- HAL_SIZE or a ring base of a halyard that stops: its writes are ignored (R475). -/
def State.ringFrozen (s : State) (off : Nat) : Bool :=
  let h := (off - R.HAL_CTRL 0) / 0x100
  decide (R.HAL_CTRL 0 ≤ off) && decide (h < 17) && s.flag (F.HAL_STAT_STOPPING h)
    && decide (R.HAL_SIZE h ≤ off) && decide (off ≤ R.HAL_CQBASE_HI h)

/-- A write by the fields' access kinds (R15): RW and RWS fields take the value, W1C fields are cleared where it is 1, and
all others keep theirs. -/
def RegRow.written (r : RegRow) (old v : W32) : W32 :=
  let rw : W32 := BitVec.ofNat 32 (r.rw ||| r.rws)
  let w1c : W32 := BitVec.ofNat 32 r.w1c
  ((old &&& ~~~rw) ||| (v &&& rw)) &&& ~~~(v &&& w1c)

/-- A write of a register without a row of its own takes effect. DESIGN CHOICE: SEC_RWIN beyond the reduction store's 128 MiB
drops writes and reads 0 (log 31). -/
def State.writeReg (s : State) (r : RegRow) (off : Nat) (v : W32) : State :=
  if R.INJ_CTRL ≤ off && off ≤ R.INJ_CNT && s.flag F.INJ_STAT_LOCKED then s
  else if (off = R.LDG_KEY || (R.LDG_BUF 0 ≤ off && off ≤ R.LDG_BUF 511)) && s.ledgerBusy then s.event F.LDG_EVT_BUSY
  else if !inRange off v || s.ringFrozen off then s
  else if off = R.SEC_RWOFS && !s.inRecovery then s
  else if R.SEC_RWIN 0 ≤ off && off ≤ R.SEC_RWIN 16383 then
    (if s.inRecovery && decide (s.fld F.SEC_RWOFS_OFS + (off - R.SEC_RWIN 0) + 4 ≤ 2 ^ 27) then
      { s with sec := { s.sec with store := writeMany (fun _ => 0) s.sec.store (s.fld F.SEC_RWOFS_OFS + (off - R.SEC_RWIN 0)) (leBytes 4 v.toNat) } }
     else s)
  else if r.kind = 4 && r.rw != 0 then s.writeLo off (v &&& addrMask off)
  else
    let s := if off = R.FOL_CTRL && bit v 31 && !s.flag F.FOL_CTRL_EN then s.setPair F.FOL_PROD_LO_BYTES F.FOL_PROD_HI_BYTES 0 else s
    let s := s.wr off (r.written (s.rd off) v)
    if off = R.HUB_PRGCFG then forEach s.myPlacements s (fun s p => s.budget p.tile p.array) else s

/-- Commands done one after the other. -/
def chain : List (State → Outcome) → State → Outcome
  | [], s => .next s
  | f :: fs, s =>
    match f s with
    | .next t => chain fs t
    | o => o

/-- The actions that the 1 bits of a write trigger (R15), each as the row of its own has it. A discovery that a write of
FAB_DCTRL.START begins hears other devices, and is the row DCTRL_START. -/
def writeActions (s : State) (off : Nat) (v : W32) : List (State → Outcome) :=
  let on (k : Nat) (f : State → Outcome) : List (State → Outcome) := if bit v k then [f] else []
  let t := (off - 0x1000000) / 0x4000
  let a := ((off - 0x1000000) % 0x4000 - 0x2000) / 0x400
  if off = R.HUB_PRGCMD then on 0 execRvnow
  else if off = R.FRE_CTRL then on 8 execFreCntClr
  else if off = R.FAB_DCTRL then on 8 execFabCntClr ++ (if s.fld F.HUB_CHSTAT_STATE = 2 then on 0 (execDctrlStart []) else [])
  else if off = R.SNC_CTRL then on 8 execSncCntClr ++ on 1 execSwap
  else if off = R.RST_CTRL then
    on 8 execRstCntClr ++ on 3 execRelease ++ on 2 execDump ++ (if bits v 7 4 = 0 then [] else [execPrst (bits v 7 4)]) ++ on 0 execCrst
  else if off = R.FOL_CTRL then on 8 execFolCntClr
  else if off = R.SEC_CTRL then on 2 (execRevoke (bits v 5 4)) ++ on 1 execUpdate ++ on 0 execSvncommit
  else if off = R.OPE_CTRL t then on 8 (execOpeCntClr t)
  else if off = R.ARR_CTRL t a then on 8 (execArrCntClr t a)
  else []

/-- REGISTER_WRITE (R15, R17, R678): a register with no row of its own; its fields take their values, then its 1 bits trigger
their actions. A write of LDG_CMD whose OP names no command clears LDG_RES.DONE alone (R670). -/
def execRegisterWrite (off : Nat) (v : W32) (s : State) : Outcome :=
  match findReg off with
  | none => act s fun s => s.badAccess F.HUB_ERR_UNMAPPED off
  | some (r, _) =>
    if off = R.LDG_CMD && bits v 31 30 = 0 then hostReg off s fun s => s.ledgerCmd [] id
    else if ownRow off || isRwHi off then .next s
    else chain ((hostReg off · fun s => s.writeReg r off v) :: (if s.served off then writeActions s off v else [])) s

/-- HI_REGISTER_WRITE (R677): held until the next write of the pair's _LO. -/
def execHiRegisterWrite (off : Nat) (v : W32) (s : State) : Outcome :=
  if isRwHi off then
    hostReg off s fun s => if s.ringFrozen off then s else { s with hiHold := store (fun _ => none) s.hiHold off (some v) }
  else .next s

/-- HUB_EVTMASK_WRITE (R684): one vector at once where the written mask lets a set bit through. -/
def execHubEvtmaskWrite (v : W32) (s : State) : Outcome :=
  if s.power.on && s.served R.HUB_EVTMASK then
    let s := s.setFld F.HUB_EVTMASK_MASK (bits v 13 0)
    .next (if s.masked = 0 then s else s.sendMsix (s.fld F.HAL_EVTVEC_VEC))
  else hostReg R.HUB_EVTMASK s id

end Sys2Proof.Machine
end

