-- ==== Sys2Proof/Machine/Dispatch.lean ====
section
/-! DEFINITION. The effect of each command: one arm per constructor.
-/

namespace Sys2Proof.Machine

/-- The effect of a command on everything but the queue. -/
def exec (i : Instr) (s : State) : Host.Outcome State Fault Refusal :=
  match i with
  | .powerUp h0fail strap => Sys2Proof.Machine.execPowerUp h0fail strap s
  | .inputQualify vin => Sys2Proof.Machine.execInputQualify vin s
  | .inputOvervoltage vin => Sys2Proof.Machine.execInputOvervoltage vin s
  | .inputAboveRange vin => Sys2Proof.Machine.execInputAboveRange vin s
  | .inputUndervoltageHold vin => Sys2Proof.Machine.execInputUndervoltageHold vin s
  | .inputUndervoltageOff vin => Sys2Proof.Machine.execInputUndervoltageOff vin s
  | .inputOvercurrent => Sys2Proof.Machine.execInputOvercurrent s
  | .studImbalance => Sys2Proof.Machine.execStudImbalance s
  | .efuseTrip rail => Sys2Proof.Machine.execEfuseTrip rail s
  | .phaseLoss rail droop => Sys2Proof.Machine.execPhaseLoss rail droop s
  | .railBackInBand rail => Sys2Proof.Machine.execRailBackInBand rail s
  | .oscillatorFault => Sys2Proof.Machine.execOscillatorFault s
  | .governorInterval power mean => Sys2Proof.Machine.execGovernorInterval power mean s
  | .beatMeasurement west east => Sys2Proof.Machine.execBeatMeasurement west east s
  | .paceWindowEnd mean idle => Sys2Proof.Machine.execPaceWindowEnd mean idle s
  | .flowInference power dt => Sys2Proof.Machine.execFlowInference power dt s
  | .throttle => Sys2Proof.Machine.execThrottle s
  | .thermalTrip => Sys2Proof.Machine.execThermalTrip s
  | .thermalTripClear => Sys2Proof.Machine.execThermalTripClear s
  | .thermalTripHalt => Sys2Proof.Machine.execThermalTripHalt s
  | .govCtrlWrite v => Sys2Proof.Machine.execGovCtrlWrite v s
  | .govSetWrite v => Sys2Proof.Machine.execGovSetWrite v s
  | .sentinelResult urgent codes => Sys2Proof.Machine.execSentinelResult urgent codes s
  | .sentinelPowerDown => Sys2Proof.Machine.execSentinelPowerDown s
  | .sentinelStartUp => Sys2Proof.Machine.execSentinelStartUp s
  | .sentinelLoopEnd => Sys2Proof.Machine.execSentinelLoopEnd s
  | .urgentRequest chan who => Sys2Proof.Machine.execUrgentRequest chan who s
  | .sncUrgWrite chan => Sys2Proof.Machine.execSncUrgWrite chan s
  | .sncQstatRead => Sys2Proof.Machine.execSncQstatRead s
  | .sncThrWrite chan v => Sys2Proof.Machine.execSncThrWrite chan v s
  | .shadowTableWrite entry word v => Sys2Proof.Machine.execShadowTableWrite entry word v s
  | .swap => Sys2Proof.Machine.execSwap s
  | .sncCntClr => Sys2Proof.Machine.execSncCntClr s
  | .perstNAssert => Sys2Proof.Machine.execPerstNAssert s
  | .flr => Sys2Proof.Machine.execFlr s
  | .hostLinkDown => Sys2Proof.Machine.execHostLinkDown s
  | .hostLinkRetrain => Sys2Proof.Machine.execHostLinkRetrain s
  | .hostMemoryFault acc => Sys2Proof.Machine.execHostMemoryFault acc s
  | .getVersion req => Sys2Proof.Machine.execGetVersion req s
  | .getCapabilities req => Sys2Proof.Machine.execGetCapabilities req s
  | .negotiateAlgorithms req => Sys2Proof.Machine.execNegotiateAlgorithms req s
  | .getDigests req => Sys2Proof.Machine.execGetDigests req s
  | .getCertificate req => Sys2Proof.Machine.execGetCertificate req s
  | .challenge req => Sys2Proof.Machine.execChallenge req s
  | .getMeasurements req => Sys2Proof.Machine.execGetMeasurements req s
  | .commandDoorbell h v => Sys2Proof.Machine.execCommandDoorbell h v s
  | .feedDoorbell f v => Sys2Proof.Machine.execFeedDoorbell f v s
  | .checkpointDoorbell v => Sys2Proof.Machine.execCheckpointDoorbell v s
  | .halEnable h => Sys2Proof.Machine.execHalEnable h s
  | .halStop h => Sys2Proof.Machine.execHalStop h s
  | .halyardStopped h => Sys2Proof.Machine.execHalyardStopped h s
  | .commandFetch h => Sys2Proof.Machine.execCommandFetch h s
  | .halCqheadWrite h v => Sys2Proof.Machine.execHalCqheadWrite h v s
  | .halIrqWrite h v => Sys2Proof.Machine.execHalIrqWrite h v s
  | .irqAgeTimeout h => Sys2Proof.Machine.execIrqAgeTimeout h s
  | .nop acc => Sys2Proof.Machine.execNop acc s
  | .load acc addr len => Sys2Proof.Machine.execLoad acc addr len s
  | .start acc ctx => Sys2Proof.Machine.execStart acc ctx s
  | .stop acc step => Sys2Proof.Machine.execStop acc step s
  | .unload acc => Sys2Proof.Machine.execUnload acc s
  | .abort acc target => Sys2Proof.Machine.execAbort acc target s
  | .checkpoint acc => Sys2Proof.Machine.execCheckpoint acc s
  | .restore acc list count => Sys2Proof.Machine.execRestore acc list count s
  | .copy acc src dst n ss ds => Sys2Proof.Machine.execCopy acc src dst n ss ds s
  | .retire acc tile array bank col => Sys2Proof.Machine.execRetire acc tile array bank col s
  | .test acc tile kind mode subject => Sys2Proof.Machine.execTest acc tile kind mode subject s
  | .tensor acc record => Sys2Proof.Machine.execTensor acc record s
  | .mvm c => Sys2Proof.Machine.execMvm c s
  | .opeProduct c => Sys2Proof.Machine.execOpeProduct c s
  | .dpaProduct c => Sys2Proof.Machine.execDpaProduct c s
  | .lnf c => Sys2Proof.Machine.execLnf c s
  | .rmsf c => Sys2Proof.Machine.execRmsf c s
  | .smf c => Sys2Proof.Machine.execSmf c s
  | .lnb c => Sys2Proof.Machine.execLnb c s
  | .rmsb c => Sys2Proof.Machine.execRmsb c s
  | .smb c => Sys2Proof.Machine.execSmb c s
  | .xent c => Sys2Proof.Machine.execXent c s
  | .convert c => Sys2Proof.Machine.execConvert c s
  | .amax c => Sys2Proof.Machine.execAmax c s
  | .stash c => Sys2Proof.Machine.execStash c s
  | .unstash c => Sys2Proof.Machine.execUnstash c s
  | .send c => Sys2Proof.Machine.execSend c s
  | .gradadd c => Sys2Proof.Machine.execGradadd c s
  | .tilNstatRead t => Sys2Proof.Machine.execTilNstatRead t s
  | .tilRseLossHiRead t => Sys2Proof.Machine.execTilRseLossHiRead t s
  | .arrayMvm t a acc index slice np e d => Sys2Proof.Machine.execArrayMvm t a acc index slice np e d s
  | .converterPowerDown t a => Sys2Proof.Machine.execConverterPowerDown t a s
  | .arrCntClr t a => Sys2Proof.Machine.execArrCntClr t a s
  | .residualCorrection t a np stalled => Sys2Proof.Machine.execResidualCorrection t a np stalled s
  | .cover t a np held => Sys2Proof.Machine.execCover t a np held s
  | .coverStaging t => Sys2Proof.Machine.execCoverStaging t s
  | .panelFetch t a panel => Sys2Proof.Machine.execPanelFetch t a panel s
  | .stationaryOperandFetch t tensor waited => Sys2Proof.Machine.execStationaryOperandFetch t tensor waited s
  | .opeCntClr t => Sys2Proof.Machine.execOpeCntClr t s
  | .rewriteStart t a => Sys2Proof.Machine.execRewriteStart t a s
  | .bankClear t a => Sys2Proof.Machine.execBankClear t a s
  | .programmingCycle t => Sys2Proof.Machine.execProgrammingCycle t s
  | .programmingSuspend t a => Sys2Proof.Machine.execProgrammingSuspend t a s
  | .refreshIntervalExpiry => Sys2Proof.Machine.execRefreshIntervalExpiry s
  | .rvnow => Sys2Proof.Machine.execRvnow s
  | .remap t a b j cause => Sys2Proof.Machine.execRemap t a b j cause s
  | .activeBankReverify t a => Sys2Proof.Machine.execActiveBankReverify t a s
  | .residualMeasurement t a => Sys2Proof.Machine.execResidualMeasurement t a s
  | .factorBuild t a => Sys2Proof.Machine.execFactorBuild t a s
  | .pn4ImageBuild t a b => Sys2Proof.Machine.execPn4ImageBuild t a b s
  | .groupSpill t => Sys2Proof.Machine.execGroupSpill t s
  | .groupReload t acc => Sys2Proof.Machine.execGroupReload t acc s
  | .itemSelect => Sys2Proof.Machine.execItemSelect s
  | .phaseChange => Sys2Proof.Machine.execPhaseChange s
  | .halfDrained half => Sys2Proof.Machine.execHalfDrained half s
  | .stepBoundary => Sys2Proof.Machine.execStepBoundary s
  | .feedDescriptorCopy ring => Sys2Proof.Machine.execFeedDescriptorCopy ring s
  | .bucketSend => Sys2Proof.Machine.execBucketSend s
  | .reductionSegment payload => Sys2Proof.Machine.execReductionSegment payload s
  | .segmentDelivery shard offset => Sys2Proof.Machine.execSegmentDelivery shard offset s
  | .contrib step span hi lo sat => Sys2Proof.Machine.execContrib step span hi lo sat s
  | .clipMessage gnorm kappa => Sys2Proof.Machine.execClipMessage gnorm kappa s
  | .updateApplyComplete n => Sys2Proof.Machine.execUpdateApplyComplete n s
  | .report step span status part layers => Sys2Proof.Machine.execReport step span status part layers s
  | .trust step down span part layers => Sys2Proof.Machine.execTrust step down span part layers s
  | .vreq step cause shard source => Sys2Proof.Machine.execVreq step cause shard source s
  | .outcome step veto cause ratios => Sys2Proof.Machine.execOutcome step veto cause ratios s
  | .ack step source => Sys2Proof.Machine.execAck step source s
  | .parameterMessage payload => Sys2Proof.Machine.execParameterMessage payload s
  | .ready id crc source => Sys2Proof.Machine.execReady id crc source s
  | .activationMessage back mb tensor off bytes => Sys2Proof.Machine.execActivationMessage back mb tensor off bytes s
  | .creditReturn back n => Sys2Proof.Machine.execCreditReturn back n s
  | .freCntClr => Sys2Proof.Machine.execFreCntClr s
  | .freOutcomeRead => Sys2Proof.Machine.execFreOutcomeRead s
  | .updGnormRead n => Sys2Proof.Machine.execUpdGnormRead n s
  | .linkTraining p t => Sys2Proof.Machine.execLinkTraining p t s
  | .trainingRetry p t => Sys2Proof.Machine.execTrainingRetry p t s
  | .linkFrame p b => Sys2Proof.Machine.execLinkFrame p b s
  | .retryTimeout p => Sys2Proof.Machine.execRetryTimeout p s
  | .laneLoss p lane uncorrectable => Sys2Proof.Machine.execLaneLoss p lane uncorrectable s
  | .portDown p => Sys2Proof.Machine.execPortDown p s
  | .fabricMessage p => Sys2Proof.Machine.execFabricMessage p s
  | .flowGapTimeout src cls => Sys2Proof.Machine.execFlowGapTimeout src cls s
  | .unreachableTimeout => Sys2Proof.Machine.execUnreachableTimeout s
  | .discovery others => Sys2Proof.Machine.execDiscovery others s
  | .discoveryAnnouncement p n => Sys2Proof.Machine.execDiscoveryAnnouncement p n s
  | .tableSet root num epoch grp mem => Sys2Proof.Machine.execTableSet root num epoch grp mem s
  | .dctrlStart others => Sys2Proof.Machine.execDctrlStart others s
  | .retrain p => Sys2Proof.Machine.execRetrain p s
  | .portEnableWrite p enable => Sys2Proof.Machine.execPortEnableWrite p enable s
  | .fabCntClr => Sys2Proof.Machine.execFabCntClr s
  | .checkpointStream => Sys2Proof.Machine.execCheckpointStream s
  | .checkpointBufferTimeout => Sys2Proof.Machine.execCheckpointBufferTimeout s
  | .calibration t a windows => Sys2Proof.Machine.execCalibration t a windows s
  | .calibrationSuspend t a => Sys2Proof.Machine.execCalibrationSuspend t a s
  | .redundancyCompare t partner third => Sys2Proof.Machine.execRedundancyCompare t partner third s
  | .testRequest t kind mode array col steps => Sys2Proof.Machine.execTestRequest t kind mode array col steps s
  | .testEnd t => Sys2Proof.Machine.execTestEnd t s
  | .injCtrlWrite v => Sys2Proof.Machine.execInjCtrlWrite v s
  | .memoryCorrectableError addr => Sys2Proof.Machine.execMemoryCorrectableError addr s
  | .memoryUncorrectableError addr => Sys2Proof.Machine.execMemoryUncorrectableError addr s
  | .watchdogExpiry ukind unit hung others => Sys2Proof.Machine.execWatchdogExpiry ukind unit hung others s
  | .suspectReplay hangs => Sys2Proof.Machine.execSuspectReplay hangs s
  | .stewardHeartbeatTimeout half => Sys2Proof.Machine.execStewardHeartbeatTimeout half s
  | .stewardRestartComplete half => Sys2Proof.Machine.execStewardRestartComplete half s
  | .stateRecord => Sys2Proof.Machine.execStateRecord s
  | .stateRecordConfirm => Sys2Proof.Machine.execStateRecordConfirm s
  | .ensignOnlyAction half epoch => Sys2Proof.Machine.execEnsignOnlyAction half epoch s
  | .arrayOutOfService t a => Sys2Proof.Machine.execArrayOutOfService t a s
  | .fault cls halt source => Sys2Proof.Machine.execFault cls halt source s
  | .rollback o recov => Sys2Proof.Machine.execRollback o recov s
  | .flushcnt source next1 next2 next3 => Sys2Proof.Machine.execFlushcnt source next1 next2 next3 s
  | .rback source localDone sent drained => Sys2Proof.Machine.execRback source localDone sent drained s
  | .resume => Sys2Proof.Machine.execResume s
  | .oreq step source => Sys2Proof.Machine.execOreq step source s
  | .halt => Sys2Proof.Machine.execHalt s
  | .rbackTimeout => Sys2Proof.Machine.execRbackTimeout s
  | .faultResendTimeout => Sys2Proof.Machine.execFaultResendTimeout s
  | .crst => Sys2Proof.Machine.execCrst s
  | .prst mask => Sys2Proof.Machine.execPrst mask s
  | .dump => Sys2Proof.Machine.execDump s
  | .dumpUnitTimeout unit => Sys2Proof.Machine.execDumpUnitTimeout unit s
  | .dumpStream => Sys2Proof.Machine.execDumpStream s
  | .release => Sys2Proof.Machine.execRelease s
  | .rstCntClr => Sys2Proof.Machine.execRstCntClr s
  | .rstFltclsRead => Sys2Proof.Machine.execRstFltclsRead s
  | .cntRdvalLoRead t => Sys2Proof.Machine.execCntRdvalLoRead t s
  | .folioDrain t => Sys2Proof.Machine.execFolioDrain t s
  | .syncRecord t => Sys2Proof.Machine.execSyncRecord t s
  | .traceMessage records => Sys2Proof.Machine.execTraceMessage records s
  | .folConsWrite v => Sys2Proof.Machine.execFolConsWrite v s
  | .folCntClr => Sys2Proof.Machine.execFolCntClr s
  | .ledgerRequest warden type key value delete => Sys2Proof.Machine.execLedgerRequest warden type key value delete s
  | .ledgerCommit n ok => Sys2Proof.Machine.execLedgerCommit n ok s
  | .append type len => Sys2Proof.Machine.execAppend type len s
  | .lookup type => Sys2Proof.Machine.execLookup type s
  | .delete type => Sys2Proof.Machine.execDelete type s
  | .update => Sys2Proof.Machine.execUpdate s
  | .svncommit => Sys2Proof.Machine.execSvncommit s
  | .revoke rkey => Sys2Proof.Machine.execRevoke rkey s
  | .hubEvtmaskWrite v => Sys2Proof.Machine.execHubEvtmaskWrite v s
  | .hubEnsignRead => Sys2Proof.Machine.execHubEnsignRead s
  | .hubChstatRead => Sys2Proof.Machine.execHubChstatRead s
  | .govStatRead => Sys2Proof.Machine.execGovStatRead s
  | .ctxLasterrRead c => Sys2Proof.Machine.execCtxLasterrRead c s
  | .loRegisterRead off => Sys2Proof.Machine.execLoRegisterRead off s
  | .hiRegisterWrite off v => Sys2Proof.Machine.execHiRegisterWrite off v s
  | .narrowAccess addr n write => Sys2Proof.Machine.execNarrowAccess addr n write s
  | .unmappedAccess off write => Sys2Proof.Machine.execUnmappedAccess off write s
  | .registerNoResponse off write => Sys2Proof.Machine.execRegisterNoResponse off write s
  | .resetUnitAccess off write => Sys2Proof.Machine.execResetUnitAccess off write s
  | .bar2OutOfRange offset n write => Sys2Proof.Machine.execBar2OutOfRange offset n write s
  | .registerWrite off v => Sys2Proof.Machine.execRegisterWrite off v s
  | .perstNDeassert => Sys2Proof.Machine.execPerstNDeassert s
  | .pkgFaultNRelease vin => Sys2Proof.Machine.execPkgFaultNRelease vin s
  | .bar2Write offset bytes => Sys2Proof.Machine.execBar2Write offset bytes s
  | .trustPassOneComplete n => Sys2Proof.Machine.execTrustPassOneComplete n s
  | .reductionCreditGrant granted lowest dev => Sys2Proof.Machine.execReductionCreditGrant granted lowest dev s
  | .portLossReport serial port => Sys2Proof.Machine.execPortLossReport serial port s

end Sys2Proof.Machine
end

