-- ==== Sys2Proof/Machine/Step.lean ====
section
/-! DEFINITION. One step of the block: the command at the front of the queue, or a tick of the oscillator.
-/

namespace Sys2Proof.Machine

/-- One 10 ns count of the hub oscillator (R682) while the package is powered (R4; DESIGN CHOICE, log 3). -/
def State.tick (s : State) : State := if s.power.on then { s with osc := s.osc + 1 } else s

/-- The command at the front of the queue takes effect on the state with the queue's rest; an empty queue lets one count
of the oscillator pass. -/
def step (s : State) : Host.Outcome State Fault Refusal :=
  match s.pending with
  | [] => .next s.tick
  | c :: rest => exec c { s with pending := rest }

/-- The command that a word spells put at the front of the queue; the state unchanged where it spells none. -/
def State.withFetchWord (s : State) (nbits w : Nat) : State :=
  match decodeTableWord nbits w with
  | some c => { s with pending := c :: s.pending }
  | none => s

end Sys2Proof.Machine
end

