-- ==== Sys2Proof/Safety.lean ====
section
/-! DEFINITION. What counts as a sound state of the block, and the words that the claims about commands use.
-/

namespace Sys2Proof

open Sys2Proof.Machine

/-- The events of the input and of the pins that an unpowered package still follows (R496, R497, R502, R690, R691). -/
def Instr.supply (c : Instr) : Bool :=
  match c with
  | .powerUp _ _ | .inputQualify _ | .inputOvervoltage _ | .inputUndervoltageOff _ | .perstNAssert | .perstNDeassert
  | .pkgFaultNRelease _ => true
  | _ => false

/-- Every field of a tile command fits its place in the 64 bytes (R468, R469). -/
def TileCmd.fits (c : TileCmd) : Bool :=
  decide (c.acc < 2 ^ 64) && [c.layer, c.oper, c.da, c.db, c.dc, c.dd, c.tile, c.ofs].all (fun v => decide (v < 2 ^ 16))
    && [c.flags, c.unitsel, c.mode].all (fun v => decide (v < 2 ^ 8))
    && [c.ta, c.tb, c.tc, c.td, c.r0, c.nr, c.k, c.p1, c.p2].all (fun v => decide (v < 2 ^ 32))

/-- The BAR0 offset of a host's 4-byte register access, and whether it writes; none for every other command. -/
def Instr.bar0 (c : Instr) : Option (Nat × Bool) :=
  match c with
  | .govCtrlWrite _ => some (R.GOV_CTRL, true)
  | .govSetWrite _ => some (R.GOV_SET, true)
  | .sncUrgWrite _ => some (R.SNC_URG, true)
  | .sncQstatRead => some (R.SNC_QSTAT, false)
  | .sncThrWrite chan _ => some (R.SNC_THR (chan % 64), true)
  | .shadowTableWrite e w _ => some (if w % 2 = 0 then R.SNC_SEQB_W0 (e % 48) else R.SNC_SEQB_W1 (e % 48), true)
  | .swap | .sncCntClr => some (R.SNC_CTRL, true)
  | .halEnable h | .halStop h => some (R.HAL_CTRL h, true)
  | .halCqheadWrite h _ => some (R.HAL_CQHEAD h, true)
  | .halIrqWrite h _ => some (R.HAL_IRQ h, true)
  | .tilNstatRead t => some (R.TIL_NSTAT t, false)
  | .tilRseLossHiRead t => some (R.TIL_RSE_LOSS_HI t, false)
  | .arrCntClr t a => some (R.ARR_CTRL t a, true)
  | .opeCntClr t => some (R.OPE_CTRL t, true)
  | .rvnow => some (R.HUB_PRGCMD, true)
  | .freCntClr => some (R.FRE_CTRL, true)
  | .freOutcomeRead => some (R.FRE_OUTCOME, false)
  | .updGnormRead n => some (R.UPD_GNORM n, false)
  | .dctrlStart _ | .fabCntClr => some (R.FAB_DCTRL, true)
  | .retrain p | .portEnableWrite p _ => some (R.FAB_PCTRL p, true)
  | .injCtrlWrite _ => some (R.INJ_CTRL, true)
  | .crst | .prst _ | .dump | .release | .rstCntClr => some (R.RST_CTRL, true)
  | .rstFltclsRead => some (R.RST_FLTCLS, false)
  | .cntRdvalLoRead t => some (R.CNT_RDVAL_LO t, false)
  | .folConsWrite _ => some (R.FOL_CONS_LO, true)
  | .folCntClr => some (R.FOL_CTRL, true)
  | .update | .svncommit | .revoke _ => some (R.SEC_CTRL, true)
  | .append _ _ | .lookup _ | .delete _ => some (R.LDG_CMD, true)
  | .hubEvtmaskWrite _ => some (R.HUB_EVTMASK, true)
  | .hubEnsignRead => some (R.HUB_ENSIGN, false)
  | .hubChstatRead => some (R.HUB_CHSTAT, false)
  | .govStatRead => some (R.GOV_STAT, false)
  | .ctxLasterrRead c => some (R.CTX_LASTERR c, false)
  | .loRegisterRead off => if isLo off then some (off, false) else none
  | .hiRegisterWrite off _ => if isRwHi off then some (off, true) else none
  | .registerWrite off _ => if ownRow off || isRwHi off then none else some (off, true)
  | .unmappedAccess off write => some (off, write)
  | _ => none

/-- The opcode of a tile command, and the command with the statistics op that its row names (R470). -/
def Instr.tileOp (i : Instr) : Option (Nat × TileCmd) :=
  match i with
  | .mvm c => some (0x40, c)
  | .opeProduct c => some (0x41, c)
  | .dpaProduct c => some (0x42, c)
  | .lnf c => some (0x43, withOp c 0)
  | .rmsf c => some (0x43, withOp c 1)
  | .smf c => some (0x43, withOp c 2)
  | .lnb c => some (0x43, withOp c 3)
  | .rmsb c => some (0x43, withOp c 4)
  | .smb c => some (0x43, withOp c 5)
  | .xent c => some (0x43, withOp c 6)
  | .convert c => some (0x44, c)
  | .amax c => some (0x45, c)
  | .stash c => some (0x48, c)
  | .unstash c => some (0x49, c)
  | .send c => some (0x4A, c)
  | .gradadd c => some (0x4B, c)
  | _ => none

/-- A host command's accession number, opcode and body, as (offset, length, value) in its 64 bytes (R472). -/
def Instr.hostOp (i : Instr) : Option (Nat × Nat × List (Nat × Nat × Nat)) :=
  match i with
  | .nop acc => some (acc, 0, [])
  | .load acc addr len => some (acc, 1, [(16, 8, addr), (24, 8, len)])
  | .start acc ctx => some (acc, 2, [(16, 1, ctx)])
  | .stop acc step => some (acc, 3, [(16, 8, step)])
  | .unload acc => some (acc, 4, [])
  | .abort acc target => some (acc, 5, [(16, 8, target)])
  | .checkpoint acc => some (acc, 6, [])
  | .restore acc list count => some (acc, 7, [(16, 8, list), (24, 4, count)])
  | .copy acc src dst n ss ds => some (acc, 8, [(16, 8, src), (24, 8, dst), (32, 8, n), (40, 1, ss), (41, 1, ds)])
  | .retire acc tile array bank col => some (acc, 9, [(16, 2, tile), (18, 1, array), (19, 1, bank), (20, 2, col)])
  | .test acc tile kind mode subject => some (acc, 10, [(16, 2, tile), (18, 1, kind), (19, 1, mode), (20, 4, subject)])
  | .tensor acc record => some (acc, 11, [(16, 48, leNat record)])
  | _ => none

end Sys2Proof

namespace Sys2Proof.Machine

/-! ### How a command leaves the block -/

/-- t is u but for the event vectors that the command's end sent (R684), with the queue that the command found in s. -/
def Ends (s u t : State) : Prop :=
  ∃ n, t = { u with msix := u.msix ++ List.replicate n (u.fld F.HAL_EVTVEC_VEC), pending := s.pending }

/-- As Ends, with the power supply and the Sentinel of s. -/
def Became (s u t : State) : Prop := Ends s (u.withSupply s) t

/-- Nothing but registers, and vectors sent, changed from s to t; of the registers only those listed. -/
def OnlyRegs (s t : State) (offs : List Nat) : Prop :=
  t = { s with regs := t.regs, msix := t.msix } ∧ ∀ o, o ∉ offs → t.rd o = s.rd o

/-- From s to t only registers changed, and the event vector was sent (R684): each listed field holds its value, and every field that
shares no bit with a listed one is as before. -/
def Changes (s t : State) (ws : List (Fld × Nat)) : Prop :=
  t = { s with regs := t.regs, msix := t.msix } ∧
    (∃ n, t.msix = s.msix ++ List.replicate n (t.fld F.HAL_EVTVEC_VEC)) ∧
    (∀ w ∈ ws, t.fld w.1 = w.2 % 2 ^ (w.1.hi + 1 - w.1.lo)) ∧
    ∀ f : Fld, (∀ w ∈ ws, f.off ≠ w.1.off ∨ f.hi < w.1.lo ∨ w.1.hi < f.lo) → t.fld f = s.fld f

/-- A block's counters are cleared from s to t (R158, R260, R385, R454, R545, R617, R642): those listed hold their reset values, no
register outside the counters' offsets lo to hi changes, and nothing but registers and their latched copies does. -/
def CountersCleared (s t : State) (lo hi : Nat) (os : List Nat) : Prop :=
  (∀ o ∈ os, t.rd o = regReset o) ∧ (∀ o, o < lo ∨ hi < o → t.rd o = s.rd o) ∧
    t = { s with regs := t.regs, latch := t.latch, hiHold := t.hiHold, msix := t.msix }

/-- No injection is armed (R573). -/
def Unarmed (s : State) : Prop := s.flag F.INJ_CTRL_ARM = false

/-- The host reaches a register: the package is powered, and the offset is served (R4, R681). -/
def Reach (s : State) (off : Nat) : Prop := s.power.on = true ∧ s.served off = true

/-! ### The unpowered package (R4) -/

/-- Everything that the package loses with its power is as right after power-up. The queue, the flash, the fuses, the cells
of the arrays and the outside world are not part of it. -/
def State.dark (s : State) : Prop :=
  (s.regs = [] ∧ s.latch = [] ∧ s.hiHold = [] ∧ s.readData = 0 ∧ s.osc = 0 ∧ s.mem = [] ∧ s.tstore = []) ∧
  (s.gov = {} ∧ s.snc = {} ∧ s.tiles = [] ∧ s.charter = none ∧ s.job = {} ∧ s.engines = [] ∧ s.fre = {}) ∧
  (s.treeC = {} ∧ s.treeR = {} ∧ s.treeT = {} ∧ s.root = {} ∧ s.fab = {} ∧ s.ens = {} ∧ s.injSeen = 0) ∧
  (s.ledger = {} ∧ s.dump = {} ∧ s.hang = {} ∧ s.hal = { bar2 := s.hal.bar2 } ∧
    s.drain = {} ∧ s.sec = { svn := s.sec.svn, revoked := s.sec.revoked })

/-- An unpowered package holds nothing volatile. -/
def State.lossSound (s : State) : Prop := s.power.on = false → s.dark

/-- t is the unpowered package that the loss of power in s leaves: the queue, host memory, the flash and the vectors sent
stay. -/
def PowerLost (s t : State) : Prop :=
  t.power.on = false ∧ t.dark ∧ t.pending = s.pending ∧ t.host = s.host ∧ t.flash = s.flash ∧ t.msix = s.msix

/-! ### The supply (R496 to R503, R693) -/

/-- A legal state of the supply: what is powered was qualified and is not locked out, VHUB and VPHY (rails 6 and 2) are up
with it, and VIO18 follows VHUB; nothing is up without power; a lock-out asserts PKG_FAULT_N. -/
def Power.legal (p : Power) : Bool :=
  (if p.on then p.qualified && !p.locked && p.rails.testBit 2 && p.rails.testBit 6 && p.vio18
   else p.rails == 0 && !p.vio18 && p.droop == 0)
  && (!p.locked || p.pkgFault)

/-! ### The Sentinel (R530 to R539) -/

/-- The bounds of the Sentinel's queues and counts: 512 results, 64 urgent requests, waiters only behind a full urgent
queue, at most ten sequencer codes ahead of each request, 48 entries of up to 256 results each, a 48-bit count. -/
def Sentinel.bounded (q : Sentinel) : Bool :=
  decide (q.queue.length ≤ 512) && decide (q.urgent.length ≤ 64) && (q.waiting.isEmpty || q.urgent.length == 64)
    && q.ahead.length == q.urgent.length && q.ahead.all (fun b => decide (b ≤ 10))
    && decide (q.entry ≤ 48) && decide (q.done ≤ 255) && decide (q.results < 2 ^ 48)

/-! ### Completions (R473, R474, R491) -/

/-- Where a halyard's next completion goes. -/
def State.cplSlot (s : State) (h : Nat) : Nat :=
  s.pair (F.HAL_CQBASE_LO_ADDR h) (F.HAL_CQBASE_HI_ADDR h) + 32 * (s.fld (F.HAL_CQTAIL_COUNT h) % s.ringSize h)

/-- A completion of a halyard is written at once: the link is up, none is held back, and its ring has room. -/
def State.canComplete (s : State) (h : Nat) : Prop :=
  s.linkUp = true ∧ (s.halyard h).held = [] ∧ s.cqDepth h < s.ringSize h

/-- A powered package has fetched a host command, operands and all, and may start it now (R465, R472). -/
def State.asked (s : State) (c : Instr) (acc : Nat) : Prop :=
  ∃ op body, c.hostOp = some (acc, op, body) ∧ s.power.on = true ∧ accSource acc < 17 ∧ s.hostMay acc op body = true

/-- A host command may run now, and its completion can be written. -/
def State.hostReady (s : State) (c : Instr) (acc : Nat) : Prop := s.asked c acc ∧ s.canComplete (accSource acc)

/-- From s to t the command with accession number acc completed with a status, without numeric flags: its 32 bytes stand
in the ring's next entry with the PHASE of the pass, HAL_CQTAIL has advanced, and the command is fetched no more. -/
def Completed (s t : State) (acc status ref : Nat) : Prop :=
  let h := accSource acc
  let tail := s.fld (F.HAL_CQTAIL_COUNT h)
  t.hostBytes (s.cplSlot h) 32 = leBytes 8 acc ++ leBytes 2 status ++
      leBytes 1 (if tail / s.ringSize h % 2 = 0 then 128 else 0) ++ zeros 13 ++ leBytes 8 ref ∧
    t.fld (F.HAL_CQTAIL_COUNT h) = (tail + 1) % 2 ^ 32 ∧ ∀ f ∈ (t.halyard h).fetched, f.acc ≠ acc

/-- Of host memory only the completion's 32 bytes changed, and beside registers, host memory and the halyards nothing. -/
def OnlyCompletion (s t : State) (acc : Nat) : Prop :=
  t = { s with regs := t.regs, host := t.host, hal := { s.hal with halyards := t.hal.halyards }, msix := t.msix } ∧
    ∀ a, a < s.cplSlot (accSource acc) ∨ s.cplSlot (accSource acc) + 32 ≤ a →
      lookup memReset t.host a = lookup memReset s.host a

/-! ### Resets and records (R598 to R600, R636, R637) -/

/-- Every array keeps its cells and its active bank from s to t. -/
def CellsKept (s t : State) : Prop :=
  ∀ x a, x < 512 → a < 8 → (t.arr x a).bank0.cells = (s.arr x a).bank0.cells ∧
    (t.arr x a).bank1.cells = (s.arr x a).bank1.cells ∧ t.active x a = s.active x a

/-- Where a job runs and no recovery is under way, t has asked the step root for a rollback, as long as a Steward is up. -/
def RollbackAsked (s t : State) : Prop :=
  s.job.running = true → s.job.fault = none → s.job.rolling = none → s.ens.up ≠ 0 →
    t.job.stopItems = true ∧ t.job.fault.isSome = true

/-- What a compute reset keeps and clears. -/
def ComputeReset (s t : State) : Prop :=
  t.fld F.RST_EVT_CRST = 1 ∧ t.fld F.RST_CNT_CRST_COUNT = satAdd 32 (s.fld F.RST_CNT_CRST_COUNT) 1 ∧
    (∀ z < 512 * tstoreBytes, lookup memReset t.tstore z = 0) ∧ t.fre = { credit := s.fre.credit } ∧
    t.treeC = [] ∧ t.treeR = [] ∧ t.treeT = [] ∧ t.mem = s.mem ∧ t.charter = s.charter ∧ CellsKept s t ∧ RollbackAsked s t

/-- The hub has taken tile x's oldest record r: its turn has passed, both credits have paid, and the rest stands in its
folio, behind which a drop record may follow. -/
def RecordTaken (s t : State) (x : Nat) (r : List Byte) (rest : List (List Byte)) : Prop :=
  t.drain.last = x ∧ t.drain.credit = s.drain.credit.spend 65536 s.drainRate s.osc r.length ∧
    t.fld F.FOL_CNT_REC_COUNT = satAdd 32 (s.fld F.FOL_CNT_REC_COUNT) 1 ∧ rest <+: (t.tile x).folio ∧
    ((s.tile x).dropRecs = 0 → (t.tile x).folio = rest ∧
      (t.tile x).credit = (s.tile x).credit.spend 4096 s.tileRate s.osc r.length)

/-! ### Tile commands (R24, R25, R471) -/

/-- The status with which a tile's sequencer refuses a command of an opcode; 0 for one that it runs (R472, R702). -/
def State.tileRefusal (s : State) (op : Nat) (c : TileCmd) : Nat :=
  if op = 0x40 then s.mvmRefusal c
  else if op = 0x41 ∨ op = 0x42 then s.productRefusal op c
  else if op = 0x43 then s.rseRefusal c
  else if op = 0x44 then s.convertRefusal c
  else if op = 0x45 then s.amaxRefusal c
  else if op = 0x48 then s.stashRefusal c
  else if op = 0x49 then s.unstashRefusal c
  else if op = 0x4A then s.sendRefusal c
  else s.gradRefusal c

/-- A tile's sequencer takes a command now: the package and its rails are powered, the command is one that may start, and
a job command is one that was issued (R465, R466, R503). -/
def State.takes (s : State) (op : Nat) (c : TileCmd) : Prop :=
  s.power.on = true ∧ s.power.short = none ∧ s.mayStart c.acc = true ∧ s.issuedCmd op c = true ∧ c.tile < 512 ∧
    (accKind c.acc = 0 ∧ accSource c.acc < 17 ∨ accKind c.acc = 1)

/-- A command that the sequencer takes runs at once: it is not refused, its phase is open, no bucket of the buffer is in
the way, and no earlier command of its context waits on the tile (R24, R293, R303); an MVM's array is in service with its
windows free, or covered (R194, R407); a backward statistics op's group is resident (R283); a job command's result keeps its scale (R312); its tile is not
duplicated (R563), and no injection is armed. -/
def State.canRun (s : State) (op : Nat) (c : TileCmd) : Prop :=
  s.takes op c ∧ s.tileRefusal op c = 0 ∧ Unarmed s ∧ s.phaseOpen c = true ∧ s.bufferBusy op c = false ∧
    s.behind op c = false ∧
    (op = 0x40 → s.dfwd = true ∨ (s.arr c.tile c.sel).out = true ∨
      s.flag (F.ARR_STAT_INSVC c.tile c.sel) = true ∧ s.windowHeld c.tile c.sel = false) ∧
    (op = 0x43 → 3 ≤ c.sel → c.sel ≤ 5 → ∀ g, s.group c = some g → g.spilled = false) ∧
    (c.job = true → ∀ x, s.target c = some x → s.scaleLost x = false) ∧
    s.flag (F.TIL_REDSTAT_ON c.tile) = false

/-- A tile command has left its queue (R466, R473): a host command its halyard, a job command the running item. -/
def LeftQueue (t : State) (c : TileCmd) : Prop :=
  (accKind c.acc = 0 → ∀ f ∈ (t.halyard (accSource c.acc)).fetched, f.acc ≠ c.acc) ∧
    (accKind c.acc = 1 → ∀ q ∈ t.job.left, q.2.acc ≠ c.acc)

/-- A tile command has completed with status success (R109, R466): TIL_NSTAT is valid, TIL_NACC holds its accession
number, and the command waits nowhere. -/
def TileCompleted (t : State) (c : TileCmd) : Prop :=
  t.fld (F.TIL_NSTAT_VALID c.tile) = 1 ∧ t.fld (F.TIL_NSTAT_CTX c.tile) = accSource c.acc % 16 ∧
    t.fld (F.TIL_NSTAT_NP c.tile) = b2n c.np ∧
    t.pair (F.TIL_NACC_LO_ACC_LO c.tile) (F.TIL_NACC_HI_ACC_HI c.tile) = c.acc % 2 ^ 64 ∧ LeftQueue t c

/-- Where a row of a tensor begins in device memory, or for place 15 in the tile stores. -/
def Tensor.rowAt (x : Tensor) (tile r : Nat) : Nat :=
  (if x.place = 15 then tstoreBytes * tile else stackBytes * x.place) + x.base + r * x.pitch

/-- From s to t device memory and tile stores changed nowhere but in rows of a tensor. -/
def OnlyRows (s t : State) (x : Tensor) (tile : Nat) (rows : List Nat) : Prop :=
  (∀ a, (x.place ≠ 15 → ∀ r ∈ rows, a < x.rowAt tile r ∨ x.rowAt tile r + x.rowBytes ≤ a) →
    lookup memReset t.mem a = lookup memReset s.mem a) ∧
  ∀ a, (x.place = 15 → ∀ r ∈ rows, a < x.rowAt tile r ∨ x.rowAt tile r + x.rowBytes ≤ a) →
    lookup memReset t.tstore a = lookup memReset s.tstore a

end Sys2Proof.Machine
end

