-- ==== Sys2Proof/Certificates/Slice0/Obligations.lean ====
section
/-! DEFINITION. The statements for the provers. A statement about a command says which next state it answers: for every
state and operands that meet its hypotheses.
-/

open Sys2Proof Sys2Proof.Machine

/-! ### The whole block -/

/-- A step runs the command at the front of the queue on the state with the queue's rest (R678). -/
def Obligations.StepRunsFront : Prop :=
  ∀ (s : State) (c : Instr) (rest : List Instr), s.pending = c :: rest → step s = exec c { s with pending := rest }

/-- On an empty queue a step lets 10 ns of the hub oscillator pass in a powered package, and nothing in one that is not
powered (R4, R682; the model's choice, log 3). -/
def Obligations.EmptyQueueTicks : Prop :=
  ∀ s : State, s.pending = [] → step s = .next (if s.power.on then { s with osc := s.osc + 1 } else s)

/-- Every command answers a next state from every state, with the queue as it found it: the block has no stop.
Where the spec gives an event no effect in a state, the next state is the model's choice (log 4). -/
def Obligations.EveryCommandAnswers : Prop :=
  ∀ (c : Instr) (s : State), ∃ t, exec c s = .next t ∧ t.pending = s.pending

/-- An unpowered package does nothing but follow its input and its pins (R4).
That the other commands have no effect is the model's choice (log 4). -/
def Obligations.UnpoweredInert : Prop :=
  ∀ (c : Instr) (s : State), s.power.on = false → c.supply = false → exec c s = .next s

/-- The state after reset is an unpowered package that holds nothing volatile, with a legal supply, an empty Sentinel and
empty memories.
Emptiness of the model's own fields and of the memories is its choice (logs 1 and 2). -/
def Obligations.ResetSound : Prop :=
  State.reset.power.on = false ∧ State.reset.pending = [] ∧ State.reset.lossSound ∧ State.reset.power.legal = true ∧
    State.reset.snc.bounded = true ∧ Memory.wf State.reset.mem = true ∧ Memory.wf State.reset.host = true ∧
    Memory.wf State.reset.tstore = true

/-- In every step of every state, a package that is unpowered holds nothing volatile (R4): what loses power loses all of
its registers, memories and units but the flash, the fuses and the arrays' cells.
That cells keep their levels is presumed (log 28). -/
def Obligations.LossSoundStep : Prop :=
  ∀ s t : State, s.lossSound → step s = .next t → t.lossSound

/-- Every step keeps the supply legal (R496 to R503, R693). -/
def Obligations.SupplyLegalStep : Prop :=
  ∀ s t : State, s.power.legal = true → step s = .next t → t.power.legal = true

/-- Every step keeps the Sentinel's queues and counts in their bounds (R531, R532, R534, R539). -/
def Obligations.SentinelBoundedStep : Prop :=
  ∀ s t : State, s.snc.bounded = true → step s = .next t → t.snc.bounded = true

/-- Only POWER_UP powers the package, and only where the input is qualified and nothing holds the package off (R497, R498,
R502). Only seven events take the package's power away: the input's overvoltage, undervoltage and overcurrent, its removal, a
rail's trip, a third lost phase and an injected rail fault in a governor interval (R496, R498, R503, R505, R691). -/
def Obligations.PowerComesAndGoes : Prop :=
  (∀ (c : Instr) (s t : State), exec c s = .next t → s.power.on = false → t.power.on = true →
      (∃ h0fail strap, c = .powerUp h0fail strap) ∧ s.power.qualified = true ∧ s.power.locked = false) ∧
  (∀ (c : Instr) (s t : State), exec c s = .next t → s.power.on = true → t.power.on = false →
      (∃ vin, c = .inputOvervoltage vin ∧ 62000 < vin) ∨ (∃ vin, c = .inputUndervoltageOff vin ∧ vin < 38000) ∨
      c = .inputOvercurrent ∨ (∃ vin, c = .pkgFaultNRelease vin ∧ vin < 10000) ∨
      (∃ rail, c = .efuseTrip rail ∧ (rail = 2 ∨ rail = 6)) ∨
      (∃ rail droop, c = .phaseLoss rail droop ∧ (rail = 2 ∨ rail = 6) ∧ 2 ≤ s.phasesLost rail) ∨
      (∃ power mean, c = .governorInterval power mean))

/-! ### Encodings -/

/-- A tile command's 64 bytes give back its opcode and every one of its fields (R468, R469). -/
def Obligations.TileCommandRoundTrip : Prop :=
  ∀ (op : Nat) (c : TileCmd), op < 256 → c.fits = true →
    (c.bytes op).length = 64 ∧ tileOfBytes (c.bytes op) = (op, c)

/-! ### Input, rails and pins -/

/-- The input qualifies inside 39 to 61 V where nothing holds the package off, and only there (R497, R498); PERST_N's end
lets the link of a powered package train (R690); a rail that is back in its band droops no more (R504). Nothing else
changes where no command waits on a tile.
That nothing changes where the event cannot occur is the model's choice (log 4). -/
def Obligations.InputAndPins : Prop :=
  (∀ (s : State) (vin : Nat), 39000 ≤ vin → vin ≤ 61000 → s.power.locked = false →
    exec (.inputQualify vin) s = .next { s with power := { s.power with vin := 4 * vin, qualified := true } }) ∧
  (∀ (s : State) (vin : Nat), vin < 39000 ∨ 61000 < vin ∨ s.power.locked = true → exec (.inputQualify vin) s = .next s) ∧
  (∀ s : State, exec .perstNDeassert s =
    .next { s with power := { s.power with perst := false }, hal := { s.hal with linkUp := s.power.on } }) ∧
  (∀ (s : State) (rail : Nat), s.power.on = true → s.power.droop.testBit rail = true → (∀ e ∈ s.tiles, e.2.seqWait = []) →
    exec (.railBackInBand rail) s = .next { s with power := { s.power with droop := s.power.droop - 2 ^ rail } })

/-- Overvoltage, undervoltage, overcurrent, the input's removal and a trip of VHUB or VPHY take the package's power (R496,
R498, R503, R691): PKG_FAULT_N is asserted by overvoltage, overcurrent and trip, and released below 10 V; overcurrent and
trip hold the package off until then. Host memory, the flash, the vectors sent and the queue stay. -/
def Obligations.InputLossPowersDown : Prop :=
  (∀ (s : State) (vin : Nat), 62000 < vin → ∃ t, exec (.inputOvervoltage vin) s = .next t ∧ PowerLost s t ∧
    t.power.vin = 4 * vin ∧ t.power.pkgFault = true ∧ t.power.qualified = false ∧ t.power.locked = s.power.locked) ∧
  (∀ (s : State) (vin : Nat), vin < 38000 → ∃ t, exec (.inputUndervoltageOff vin) s = .next t ∧ PowerLost s t ∧
    t.power.vin = 4 * vin ∧ t.power.pkgFault = s.power.pkgFault ∧ t.power.qualified = false ∧
    t.power.locked = s.power.locked) ∧
  (∀ s : State, s.power.on = true → ∃ t, exec .inputOvercurrent s = .next t ∧ PowerLost s t ∧
    t.power.locked = true ∧ t.power.pkgFault = true ∧ t.power.qualified = false) ∧
  (∀ (s : State) (vin : Nat), vin < 10000 → ∃ t, exec (.pkgFaultNRelease vin) s = .next t ∧ PowerLost s t ∧
    t.power.vin = 4 * vin ∧ t.power.pkgFault = false ∧ t.power.locked = false ∧ t.power.qualified = false) ∧
  (∀ (s : State) (rail : Nat), s.power.on = true → rail = 2 ∨ rail = 6 → s.power.rails.testBit rail = true →
    ∃ t, exec (.efuseTrip rail) s = .next t ∧ PowerLost s t ∧ t.power.locked = true ∧ t.power.pkgFault = true)

/-- A trip of any other rail leaves VAUX and VIO up and every other rail down (R503): the package stays powered. With no
job and no port up, GOV_EVT.SHORT is set, the fault is recorded, and device memory and the tile stores are lost.
The unit that the fault names is the rail's number (R579). -/
def Obligations.RailTrips : Prop :=
  (∀ (s : State) (rail : Nat), s.power.on = true → rail < 8 → rail ≠ 2 → rail ≠ 6 → s.power.rails.testBit rail = true →
    ∃ t, exec (.efuseTrip rail) s = .next t ∧ t.pending = s.pending ∧ t.snc = s.snc ∧
      t.power = { s.power with rails := 2 ^ 2 + 2 ^ 6, droop := 0, short := some rail }) ∧
  (∀ (s : State) (rail : Nat), s.power.on = true → rail < 8 → rail ≠ 2 → rail ≠ 6 → s.power.rails.testBit rail = true →
    s.job.running = false → (∀ p < 32, s.portUp p = false) →
    ∃ t, exec (.efuseTrip rail) s = .next t ∧ t.mem = [] ∧ t.tstore = [] ∧ t.fld F.GOV_EVT_SHORT = 1 ∧
      t.fld F.RST_FLTCLS_CLASS = 0x16 ∧ t.fld F.RST_FLTCLS_UNIT = rail)

/-- The input's two soft limits (R496, R516) and an open stud (R499) set their bit of GOV_EVT; under 40 V and with an open stud
the governor's ceiling follows at once. Nothing but registers, the input voltage and the stud changes. A lost phase is counted
on its rail and no other (R504, R505, R522): GOV_PHASE_LOST goes up by one there, GOV_EVT.PHASE is set, and a droop of VCAL or
VPGM is noted. Nothing but registers and the supply changes. -/
def Obligations.InputLimitsAndPhases : Prop :=
  ((∀ (s : State) (vin : Nat), s.power.on = true → 60000 < vin → vin ≤ 62000 → ∃ t, exec (.inputAboveRange vin) s = .next t ∧
      Changes { s with power := { s.power with vin := 4 * vin } } t [(F.GOV_EVT_OVIN, 1)]) ∧
    (∀ (s : State) (vin : Nat), s.power.on = true → 38000 ≤ vin → vin < 40000 → ∃ t, exec (.inputUndervoltageHold vin) s = .next t ∧
      Changes { s with power := { s.power with vin := 4 * vin } } t
        [(F.GOV_EVT_UVIN, 1), (F.GOV_CEIL_WATTS, inUnits t.ceiling.2), (F.GOV_STAT_LIMIT, if t.coreWeak then 5 else t.ceiling.1)] ∧
      t.ceiling.2 ≤ 9 * ((vin : ℚ) - 38000) / 10) ∧
    (∀ s : State, s.power.on = true → ∃ t, exec .studImbalance s = .next t ∧
      Changes { s with gov := { s.gov with stud := true } } t
        [(F.GOV_EVT_STUD, 1), (F.GOV_CEIL_WATTS, inUnits t.ceiling.2), (F.GOV_STAT_LIMIT, if t.coreWeak then 5 else t.ceiling.1)] ∧
      t.ceiling.2 ≤ 1000)) ∧
  (∀ (s : State) (rail : Nat) (droop : Bool), s.power.on = true → rail < 8 → s.power.rails.testBit rail = true →
      s.phasesLost rail < 2 →
      ∃ t, exec (.phaseLoss rail droop) s = .next t ∧ t.phasesLost rail = s.phasesLost rail + 1 ∧
        (∀ n < 8, n ≠ rail → t.phasesLost n = s.phasesLost n) ∧ t.fld F.GOV_EVT_PHASE = 1 ∧
        t.power = s.power.drooped rail droop ∧ t = { s with regs := t.regs, msix := t.msix, power := t.power })

/-- POWER_UP of a qualified package starts every rail and the Sentinel anew, and boots (R502, R650, R651, R692): the Warden's
boot ends in the running state or in recovery mode, with STRAP_RECOV always in recovery mode; the link trains unless PERST_N
holds it. -/
def Obligations.PowerUpBoots : Prop :=
  ∀ (s : State) (h0fail strap : Bool), s.power.on = false → s.power.qualified = true → s.power.locked = false →
    ∃ t, exec (.powerUp h0fail strap) s = .next t ∧ t.power = s.power.started strap ∧ t.snc = {} ∧
      t.hal.linkUp = !s.power.perst ∧ (t.fld F.SEC_BOOT_STATE = 3 ∨ t.inRecovery = true) ∧
      (strap = true → t.inRecovery = true) ∧ t.pending = s.pending

/-- PERST_N takes the link down and leaves the supply and the Sentinel (R690): before boot has ended and in recovery mode
it does nothing else; after boot it is a conventional reset, which ends every halyard and forgets the tensors that the host
stored (R459).
What PERST_N does in recovery mode is the model's reading (log 28). -/
def Obligations.PerstResets : Prop :=
  (∀ s : State, s.power.on = true → s.fld F.SEC_BOOT_STATE ≠ 3 →
    exec .perstNAssert s =
      .next { s with power := { s.power with perst := true }, hal := { s.hal with linkUp := false } }) ∧
  (∀ s : State, s.power.on = true → s.fld F.SEC_BOOT_STATE = 3 →
    ∃ t, exec .perstNAssert s = .next t ∧ t.power = { s.power with perst := true } ∧ t.snc = s.snc ∧
      t.hal.linkUp = false ∧ t.hal.halyards = [] ∧ t.hal.tensors = [] ∧ t.pending = s.pending)

/-! ### The governor and the junctions -/

/-- The host's governor registers (R515, R517): GOV_SET is clamped to 500 to 1,800 W, and a clamp sets its event; MODE is
kept for the next interval. -/
def Obligations.GovernorWrites : Prop :=
  (∀ (s : State) (v : W32), Reach s R.GOV_SET → ∃ t, exec (.govSetWrite v) s = .next t ∧
    Changes s t ((F.GOV_SET_WATTS, max 500 (min 1800 (bits v 10 0))) ::
      if bits v 10 0 < 500 ∨ 1800 < bits v 10 0 then [(F.GOV_EVT_SETCLAMP, 1)] else [])) ∧
  (∀ (s : State) (v : W32), Reach s R.GOV_CTRL → ∃ t, exec (.govCtrlWrite v) s = .next t ∧
    Changes s t [(F.GOV_CTRL_MODE, bits v 1 0)])

/-- What the governor measures: the slower half's beats (R509); the coolant flow with its ceiling and event, and none below 2 K
(R513; p in W and d in K); a PACE window's mean, counted outside the band of ±3 % of GOV_SET unless an idle span or a lower
ceiling excuses it, and always where throttling happened (R519, R520). A governor interval with no injection armed (R517, R518):
GOV_CTRL.MODE (reserved 3 counts as 0) and GOV_SET take effect, VCORE moves by at most 10 mV and not while throttling runs, and
the supply and the Sentinel stay. How far VCORE moves is a free value. -/
def Obligations.GovernorMeasuresAndActs : Prop :=
  ((∀ (s : State) (west east : Nat), s.power.on = true → ∃ t, exec (.beatMeasurement west east) s = .next t ∧
      Changes s t [(F.GOV_BEAT_RATE, inUnits ((min west east : ℚ) * 1024 / 10000))]) ∧
    (∀ (s : State) (power dt : Nat), s.power.on = true → dt < 32 → ∃ t, exec (.flowInference power dt) s = .next t ∧
      t.fld F.GOV_FLOW_FLOW = 0xFFFF ∧ t.gov = { s.gov with flowCeil := none } ∧
      t.fld F.GOV_EVT_FLOWLOW = s.fld F.GOV_EVT_FLOWLOW) ∧
    (∀ (s : State) (power dt : Nat) (q : ℚ), s.power.on = true → 32 ≤ dt →
      q = 97 / 100 * ((power : ℚ) / 10) / (683 / 10 * ((dt : ℚ) / 16)) →
      ∃ t, exec (.flowInference power dt) s = .next t ∧
        t.gov.flowCeil = (if q < (power : ℚ) / 10 / 900 then some (900 * q) else none) ∧
        t.fld F.GOV_FLOW_FLOW = min 0xFFFE (inUnits (256 * q)) ∧
        (q < (power : ℚ) / 10 / 900 → t.fld F.GOV_EVT_FLOWLOW = 1 ∧ t.ceiling.2 ≤ 900 * q)) ∧
    (∀ (s : State) (mean : Nat) (idle : Bool), s.power.on = true → ∃ t, exec (.paceWindowEnd mean idle) s = .next t ∧
      Changes { s with gov := { s.gov with paceLow := false, paceThrot := s.flag F.GOV_STAT_THROT } } t
        ((F.GOV_PWR100_PWR, mean) ::
          if s.gov.mode = 1 ∧ (s.gov.paceThrot = true ∨
              (((mean : ℚ) / 10 < s.gov.watts * 97 / 100 ∨ (s.gov.watts : ℚ) * 103 / 100 < (mean : ℚ) / 10) ∧
                idle = false ∧ s.gov.paceLow = false)) then
            [(F.GOV_CNT_BANDOUT_COUNT, satAdd (F.GOV_CNT_BANDOUT_COUNT.hi + 1 - F.GOV_CNT_BANDOUT_COUNT.lo)
              (s.fld F.GOV_CNT_BANDOUT_COUNT) 1)]
          else []))) ∧
  (∀ (s : State) (power mean : Nat), s.power.on = true → Unarmed s → 600 ≤ s.fld F.GOV_STAT_VCORE →
      ∃ t, exec (.governorInterval power mean) s = .next t ∧
        t.gov.mode = (if s.fld F.GOV_CTRL_MODE = 3 then 0 else s.fld F.GOV_CTRL_MODE) ∧
        t.gov.watts = s.fld F.GOV_SET_WATTS ∧ t.fld F.GOV_PWR1_PWR = mean % 2 ^ 16 ∧
        s.fld F.GOV_STAT_VCORE ≤ t.fld F.GOV_STAT_VCORE + 10 ∧ t.fld F.GOV_STAT_VCORE ≤ s.fld F.GOV_STAT_VCORE + 10 ∧
        600 ≤ t.fld F.GOV_STAT_VCORE ∧
        (s.flag F.GOV_STAT_THROT = true → t.fld F.GOV_STAT_VCORE = s.fld F.GOV_STAT_VCORE) ∧
        t = { s with regs := t.regs, msix := t.msix, gov := t.gov, free := t.free })

/-- Throttle and trip (R520, R521), temperatures as 256 × (°C + 64): above 105 °C VCORE falls by 5 mV and THROT is set; once no
diode reads above 104 °C THROT clears; at 110 °C a trip is raised and recorded; once every diode reads below 100 °C it clears,
and where no command waits on a tile nothing else changes.
The ceiling in force is the lowest of the mode's and those that apply, and of equal ones the one with the lower code is named
(R516). -/
def Obligations.ThrottleTripAndCeiling : Prop :=
  ((∀ (s : State) (d : Nat × Nat), s.power.on = true → d ∈ s.diodes → 256 * (105 + 64) < d.2 →
      ∃ t, exec .throttle s = .next t ∧ t.fld F.GOV_STAT_VCORE = max 600 (s.fld F.GOV_STAT_VCORE - 5) ∧
        t.fld F.GOV_STAT_THROT = 1 ∧ (s.flag F.GOV_STAT_THROT = false → t.fld F.GOV_EVT_THROT = 1) ∧
        OnlyRegs { s with gov := { s.gov with paceThrot := true } } t [R.GOV_STAT, R.GOV_EVT]) ∧
    (∀ s : State, s.power.on = true → (∀ d ∈ s.diodes, d.2 ≤ 256 * (104 + 64)) → s.flag F.GOV_STAT_THROT = true →
      ∃ t, exec .throttle s = .next t ∧ Changes s t [(F.GOV_STAT_THROT, 0)]) ∧
    (∀ (s : State) (d : Nat × Nat), s.power.on = true → d ∈ s.diodes → 256 * (110 + 64) ≤ d.2 →
      s.flag F.GOV_STAT_TRIP = false →
      ∃ t, exec .thermalTrip s = .next t ∧ t.fld F.GOV_STAT_TRIP = 1 ∧ t.fld F.GOV_EVT_TRIP = 1 ∧
        t.fld F.RST_FLTCLS_CLASS = 0x15 ∧ t = { s with regs := t.regs, msix := t.msix }) ∧
    (∀ s : State, s.power.on = true → (∀ d ∈ s.diodes, d.2 < 256 * (100 + 64)) → (∀ e ∈ s.tiles, e.2.seqWait = []) →
      ∃ t, exec .thermalTripClear s = .next t ∧ Changes s t [(F.GOV_STAT_TRIP, 0)])) ∧
  (∀ s : State, s.ceiling ∈ (0, s.modeCeil) :: s.outerCeils ∧
      ∀ c ∈ (0, s.modeCeil) :: s.outerCeils, s.ceiling.2 ≤ c.2 ∧ (c.2 = s.ceiling.2 → s.ceiling.1 ≤ c.1))

/-- A fault that halts (R33, R579, R589): an oscillator fault has class 0x13, a trip that lasted 10 s class 0x15. With no
job only the fault record changes; in a running job the ensign starts no more items and asks the step root for a halt. -/
def Obligations.HaltingFaults : Prop :=
  ∀ (s : State) (c : Instr) (cls : Nat), s.power.on = true →
    (c = .oscillatorFault ∧ cls = 0x13 ∨ c = .thermalTripHalt ∧ cls = 0x15 ∧ s.flag F.GOV_STAT_TRIP = true) →
    ∃ t, exec c s = .next t ∧
      (s.job.running = false → t.fld F.RST_FLTCLS_CLASS = cls ∧ t.fld F.RST_FLTCLS_UKIND = 9 ∧
        t.fld F.RST_FLTCLS_UNIT = 0 ∧
        OnlyRegs s t [R.RST_FLTCLS, R.RST_FLTACC_LO, R.RST_FLTACC_HI, R.RST_FLTSTEP_LO, R.RST_FLTSTEP_HI]) ∧
      (s.job.running = true →
        t.job = { s.job with stopItems := true, fault := some (cls, true), faultSends := 1 } ∧ t.mem = s.mem ∧
        t.host = s.host ∧ t.tiles = s.tiles ∧ t.arrs = s.arrs)

/-! ### The Sentinel -/

/-- A result of the sequencer completes (R530, R531, R532): it takes its count, powers the converter, and, where the entry
offers it, enters the queue with that count; a full queue does not store it, and SNC_EVT.QDROP is set. The latest value of a
channel that no other unit follows is updated unless it is a test's. No urgent request may be waiting whose own sample comes first
(R540). A read of SNC_QSTAT (R533) removes the oldest result and
latches its three parts; on an empty queue it returns VALID = 0 and removes nothing.
What an empty queue's read returns beside VALID is free (log 30). -/
def Obligations.SequencerResultsAndReads : Prop :=
  (∀ (s : State) (codes : List Nat) (e : Nat), s.power.on = true → s.snc.powered = true ∨ s.snc.starting = true →
      s.seqEntry s.snc.entry = some e → codes.length = bits (s.seqWord e 1) 5 0 + 1 → s.snc.clearFor codes.length = true →
      ∃ t, exec (.sentinelResult false codes) s = .next t ∧ t.snc.results = (s.snc.results + 1) % 2 ^ 48 ∧
        t.snc.powered = true ∧ t.snc.starting = false ∧ t.snc.urgent = s.snc.urgent ∧
        (bit (s.seqWord e 1) 9 = true → t.snc.queue = s.snc.queue) ∧
        (bit (s.seqWord e 1) 9 = false → s.snc.queue.length < 512 →
          ∃ r, t.snc.queue = s.snc.queue ++ [r] ∧ r.count = s.snc.results ∧ bit r.word 31 = true ∧
            bits r.word 21 16 = bits (s.seqWord e 0) 5 0) ∧
        (bit (s.seqWord e 1) 9 = false → 512 ≤ s.snc.queue.length →
          t.snc.queue = s.snc.queue ∧ t.fld F.SNC_EVT_QDROP = 1) ∧
        (bit (s.seqWord e 1) 12 = false → bits (s.seqWord e 0) 5 0 < 16 → Unarmed s →
          t.fld (F.SNC_VAL_VALID (bits (s.seqWord e 0) 5 0)) = 1 ∧
          t.fld (F.SNC_VAL_VALUE (bits (s.seqWord e 0) 5 0)) =
            sncValue (bits (s.seqWord e 0) 5 0) (s.fld F.SNC_OFS_OFS) (codes.map (· % 4096)))) ∧
  ((∀ (s : State) (r : SncResult) (rest : List SncResult), Reach s R.SNC_QSTAT → s.snc.queue = r :: rest →
      r.count < 2 ^ 48 →
      ∃ t, exec .sncQstatRead s = .next t ∧ t.readData = r.word.toNat ∧ t.rd R.SNC_QSTAT = r.word ∧
        t.pair F.SNC_QACC_LO_ACC F.SNC_QACC_HI_ACC = 0xC000 * 2 ^ 48 + r.count ∧ t.rd R.SNC_QTIME = BitVec.ofNat 32 r.time ∧
        t.snc = { s.snc with queue := rest }) ∧
    (∀ s : State, Reach s R.SNC_QSTAT → s.snc.queue = [] →
      ∃ t, exec .sncQstatRead s = .next t ∧ t.readData < 2 ^ 31 ∧ t.snc = s.snc))

/-- The result of the oldest urgent request (R539, R530): the request leaves the urgent queue, the longest waiting requester
takes a place, and the result takes its count. Requests of urgent samples (R539): they queue while there is room; in a full
queue the governor and the Warden wait and are counted, and the host's request is dropped with SNC_EVT.UDROP. -/
def Obligations.UrgentConversions : Prop :=
  (∀ (s : State) (code : Nat) (q : Nat × UrgBy) (rest : List (Nat × UrgBy)), s.power.on = true →
      s.snc.powered = true ∨ s.snc.starting = true → s.snc.urgent = q :: rest →
      ∃ t, exec (.sentinelResult true [code]) s = .next t ∧ t.snc.urgent = rest ++ s.snc.waiting.take 1 ∧
        t.snc.waiting = s.snc.waiting.drop 1 ∧ t.snc.ahead = s.snc.served.ahead ∧ t.snc.results = (s.snc.results + 1) % 2 ^ 48 ∧
        t.snc.entry = s.snc.entry ∧ t.snc.done = s.snc.done ∧ t.snc.powered = true) ∧
  ((∀ (s : State) (chan : Nat) (who : UrgBy), s.power.on = true → chan < 64 → s.snc.urgent.length < 64 →
      exec (.urgentRequest chan who) s = .next 
        { s with snc := { s.snc with urgent := s.snc.urgent ++ [(chan, who)], ahead := s.snc.ahead ++ [s.snc.flight] } }) ∧
    (∀ (s : State) (chan : Nat), Reach s R.SNC_URG → chan < 64 → s.snc.urgent.length < 64 →
      exec (.sncUrgWrite chan) s = .next 
        { s with snc := { s.snc with urgent := s.snc.urgent ++ [(chan, .host)], ahead := s.snc.ahead ++ [s.snc.flight] } }) ∧
    (∀ (s : State) (chan : Nat) (who : UrgBy), s.power.on = true → chan < 64 → 64 ≤ s.snc.urgent.length → who ≠ .host →
      ∃ t, exec (.urgentRequest chan who) s = .next t ∧
        Changes { s with snc := { s.snc with waiting := s.snc.waiting ++ [(chan, who)] } } t
          [(F.SNC_CNT_UWAIT_COUNT, satAdd (F.SNC_CNT_UWAIT_COUNT.hi + 1 - F.SNC_CNT_UWAIT_COUNT.lo)
            (s.fld F.SNC_CNT_UWAIT_COUNT) 1)]) ∧
    (∀ (s : State) (chan : Nat) (c : Instr), Reach s R.SNC_URG → 64 ≤ s.snc.urgent.length →
      c = .sncUrgWrite chan ∨ c = .urgentRequest chan .host →
      ∃ t, exec c s = .next t ∧ Changes s t [(F.SNC_EVT_UDROP, 1)]))

/-- The converter and its sequencer (R536, R537): power-down and start-up, a swap request, writes of the shadow table, which
a pending swap turns away, and the end of the loop, at which a table that meets R537 replaces the active one whole. -/
def Obligations.SequencerControl : Prop :=
  (∀ s : State, s.power.on = true → s.snc.powered = true → s.snc.urgent = [] → s.idlePeriods ≤ s.nextDelay →
    exec .sentinelPowerDown s = .next { s with snc := { s.snc with powered := false } }) ∧
  (∀ s : State, s.power.on = true → s.snc.powered = false → s.snc.starting = false →
    ∃ t, exec .sentinelStartUp s = .next t ∧ Changes { s with snc := { s.snc with starting := true } } t
      [(F.SNC_CNT_START_COUNT, satAdd (F.SNC_CNT_START_COUNT.hi + 1 - F.SNC_CNT_START_COUNT.lo)
        (s.fld F.SNC_CNT_START_COUNT) 1)]) ∧
  (∀ s : State, Reach s R.SNC_CTRL → exec .swap s = .next { s with snc := { s.snc with swap := true } }) ∧
  (∀ (s : State) (entry word : Nat) (v : W32), entry < 48 → word < 2 →
    Reach s (if word = 0 then R.SNC_SEQB_W0 entry else R.SNC_SEQB_W1 entry) →
    ∃ t, exec (.shadowTableWrite entry word v) s = .next t ∧ Changes s t [if s.snc.swap then (F.SNC_EVT_TBLERR, 1)
      else (⟨if word = 0 then R.SNC_SEQB_W0 entry else R.SNC_SEQB_W1 entry, 31, 0⟩, v.toNat)]) ∧
  (∀ s : State, s.power.on = true → 48 ≤ s.snc.entry → s.snc.swap = false →
    exec .sentinelLoopEnd s = .next { s with snc := { s.snc with entry := 0, done := 0 } }) ∧
  (∀ s : State, s.power.on = true → 48 ≤ s.snc.entry → s.snc.swap = true →
    ∃ t, exec .sentinelLoopEnd s = .next t ∧ t.snc = { s.snc with entry := 0, done := 0, swap := false } ∧
      (if tableOk ((List.range 48).map (fun i => (s.rd (R.SNC_SEQB_W0 i), s.rd (R.SNC_SEQB_W1 i)))) then
        t.fld F.SNC_EVT_SWAP = 1 ∧ ∀ i < 48, t.rd (R.SNC_SEQA_W0 i) = s.rd (R.SNC_SEQB_W0 i) ∧
          t.rd (R.SNC_SEQA_W1 i) = s.rd (R.SNC_SEQB_W1 i)
      else Changes { s with snc := t.snc } t [(F.SNC_EVT_TBLERR, 1)])) ∧
  (∀ (s : State) (chan : Nat) (v : W32), chan < 64 → Reach s (R.SNC_THR chan) →
    ∃ t, exec (.sncThrWrite chan v) s = .next t ∧ Changes s t [(⟨R.SNC_THR chan, 31, 0⟩, v.toNat)])

/-! ### Accesses of BAR0 and BAR2 -/

/-- Outside recovery mode each read with a latch rule returns what its register shows to the host, and until the next such read
its companions return what they show now (R110, R288, R357, R386, R416, R495, R523, R618, R626, R683). Nothing but the latched
copies changes. A read of a _LO register that no latch rule names returns it and latches its _HI; a _HI write of an RW pair is
held and changes no register; a _LO write takes the held half with it, or the one in effect (R676, R677; here for HAL_WIN, the
base of the memory window, whose low bits stand at zero). -/
def Obligations.LatchesAndPairs : Prop :=
  (∀ (s : State) (c : Instr) (off : Nat) (os : List Nat), s.power.on = true → s.inRecovery = false → c.wf = true →
      ((∃ n, c = .tilNstatRead n ∧ off = R.TIL_NSTAT n ∧
          os = [R.TIL_NROW n, R.TIL_NCOL n, R.TIL_NSAT n, R.TIL_NACC_LO n, R.TIL_NACC_HI n]) ∨
        (∃ n, c = .tilRseLossHiRead n ∧ off = R.TIL_RSE_LOSS_HI n ∧ os = [R.TIL_RSE_LOSS_LO n]) ∨
        (∃ n, c = .cntRdvalLoRead n ∧ off = R.CNT_RDVAL_LO n ∧
          os = [R.CNT_RDVAL_HI n, R.CNT_RDACC_LO n, R.CNT_RDACC_HI n]) ∨
        (∃ n, c = .updGnormRead n ∧ off = R.UPD_GNORM n ∧ os = [R.UPD_KAPPA n]) ∨
        (∃ n, c = .ctxLasterrRead n ∧ off = R.CTX_LASTERR n ∧ os = [R.CTX_LASTACC_LO n, R.CTX_LASTACC_HI n]) ∨
        c = .freOutcomeRead ∧ off = R.FRE_OUTCOME ∧
          os = [R.FRE_OUTSTEP_LO, R.FRE_OUTSTEP_HI, R.FRE_VETOSRC, R.FRE_VETOSHARD] ∨
        c = .rstFltclsRead ∧ off = R.RST_FLTCLS ∧
          os = [R.RST_FLTACC_LO, R.RST_FLTACC_HI, R.RST_FLTSTEP_LO, R.RST_FLTSTEP_HI] ∨
        c = .hubEnsignRead ∧ off = R.HUB_ENSIGN ∧ os = [R.HUB_EPOCH] ∨
        c = .hubChstatRead ∧ off = R.HUB_CHSTAT ∧
          os = [R.HUB_CHSECT, R.HUB_CHENTRY, R.HUB_CHQTY_LO, R.HUB_CHQTY_HI, R.HUB_CHLIM_LO, R.HUB_CHLIM_HI] ∨
        c = .govStatRead ∧ off = R.GOV_STAT ∧ os = [R.GOV_BEAT, R.GOV_PWR1, R.GOV_PWR100, R.GOV_CEIL, R.GOV_TJ]) →
      ∃ t, exec c s = .next t ∧ t.readData = (s.hostView off).toNat ∧ (∀ o ∈ os, t.hostView o = s.view o) ∧
        (∀ o ∉ os, lookup (fun _ => none) t.latch o = lookup (fun _ => none) s.latch o) ∧
        t = { s with latch := t.latch, readData := t.readData }) ∧
  ((∀ (s : State) (off : Nat), Reach s off → isLo off = true → ruleLatched off = none →
      ∃ t, exec (.loRegisterRead off) s = .next t ∧ t.readData = (s.hostView off).toNat ∧
        t.hostView (off + 4) = s.view (off + 4) ∧ t = { s with latch := t.latch, readData := t.readData }) ∧
    (∀ (s : State) (off : Nat) (v : W32), Reach s off → isRwHi off = true → s.ringFrozen off = false →
      ∃ t, exec (.hiRegisterWrite off v) s = .next t ∧ t = { s with hiHold := t.hiHold } ∧
        lookup (fun _ => none) t.hiHold off = some v ∧
        ∀ o, o ≠ off → lookup (fun _ => none) t.hiHold o = lookup (fun _ => none) s.hiHold o) ∧
    (∀ (s : State) (v : W32), Reach s R.HAL_WIN_LO →
      ∃ t, exec (.registerWrite R.HAL_WIN_LO v) s = .next t ∧ t.rd R.HAL_WIN_LO = v &&& 0xC0000000 ∧
        t.rd R.HAL_WIN_HI = (lookup (fun _ => none) s.hiHold R.HAL_WIN_HI).getD (s.rd R.HAL_WIN_HI) ∧
        lookup (fun _ => none) t.hiHold R.HAL_WIN_HI = none ∧ ∀ o, o ≠ R.HAL_WIN_LO → o ≠ R.HAL_WIN_HI → t.rd o = s.rd o))

/-- Accesses of unallocated offsets (R673): a read returns 0, a write is dropped, and both set HUB_ERR.UNMAPPED; no other
bit of any register but the recorded offset changes. -/
def Obligations.UnallocatedAccess : Prop :=
  ∀ (s : State) (off : Nat) (write : Bool) (v : W32) (c : Instr), s.power.on = true → findReg off = none →
    c = .unmappedAccess off write ∨ c = .registerWrite off v ∧ write = true →
    ∃ t, exec c s = .next t ∧ t.fld F.HUB_ERR_UNMAPPED = 1 ∧ t.readData = (if write then s.readData else 0) ∧
      OnlyRegs { s with readData := t.readData } t [R.HUB_ERR, R.HUB_ERRADDR]

/-- In recovery mode an access of BAR0 outside the SEC_ block, HUB_ID and HUB_ERR acts as one of an unallocated offset
(R681): whatever command makes it, a read returns 0, a write is dropped, and HUB_ERR.UNMAPPED is set. -/
def Obligations.RecoveryServesSecurityOnly : Prop :=
  ∀ (s : State) (c : Instr) (off : Nat) (write : Bool), s.power.on = true → s.inRecovery = true →
    c.bar0 = some (off, write) → ¬(0x40000 ≤ off ∧ off < 0x60000) → off ≠ R.HUB_ID → off ≠ R.HUB_ERR →
    ∃ t, exec c s = .next t ∧ t.fld F.HUB_ERR_UNMAPPED = 1 ∧ t.readData = (if write then s.readData else 0) ∧
      OnlyRegs { s with readData := t.readData } t [R.HUB_ERR, R.HUB_ERRADDR]

/-- Accesses that cannot be served (R675, R679, R680): a narrow or crossing write and a crossing read are dropped and set
HUB_ERR.NARROW; a unit that does not answer reads all ones and sets NORESP; one held in reset reads 0 and sets RESET. Where no
bit was set before, HUB_ERRADDR records the offset (R682). A narrow read inside one register returns its bytes and acts as the
read of the register. The memory window (R12, R457): a write through BAR2 inside the device's memory lands at HAL_WIN plus the
offset and nowhere else; beyond 640 GiB a write is dropped, a read returns all ones, and both set HAL_GEVT.WINRANGE. In
recovery mode the window does nothing (R651). -/
def Obligations.UnservedAccessAndWindow : Prop :=
  ((∀ (s : State) (off n : Nat) (write : Bool) (c : Instr) (f : Fld) (v : Nat), s.power.on = true → s.inRecovery = false →
      (c = .narrowAccess off n write ∧ f = F.HUB_ERR_NARROW ∧ v = 0 ∧ 0 < n ∧ n ≤ 4 ∧
          (write = true ∧ n < 4 ∨ off % 4 ≠ 0 ∧ 4 < off % 4 + n) ∨
        c = .registerNoResponse off write ∧ f = F.HUB_ERR_NORESP ∧ v = 0xFFFFFFFF ∧ (findReg off).isSome = true ∨
        c = .resetUnitAccess off write ∧ f = F.HUB_ERR_RESET ∧ v = 0 ∧ (findReg off).isSome = true ∧ 0x80000 ≤ off) →
      ∃ t, exec c s = .next t ∧ t.fld f = 1 ∧ t.readData = (if write then s.readData else v) ∧
        (s.rd R.HUB_ERR = 0 → t.fld F.HUB_ERRADDR_OFFSET = off % 2 ^ 26) ∧
        OnlyRegs { s with readData := t.readData } t [R.HUB_ERR, R.HUB_ERRADDR]) ∧
    (∀ (s : State) (addr n : Nat), s.power.on = true → 0 < n → n < 4 → addr % 4 + n ≤ 4 →
      s.served (addr - addr % 4) = true → (findReg (addr - addr % 4)).isSome = true → addr - addr % 4 ≠ R.SNC_QSTAT →
      ∃ t, exec (.narrowAccess addr n false) s = .next t ∧ t.latch = (s.latchAll (latchedBy (addr - addr % 4))).latch ∧
        t.readData = (s.hostView (addr - addr % 4)).toNat / 2 ^ (8 * (addr % 4)) % 2 ^ (8 * n) ∧
        t = { s with latch := t.latch, readData := t.readData })) ∧
  ((∀ (s : State) (offset : Nat) (bytes : List Byte), s.power.on = true → s.linkUp = true → s.inRecovery = false →
      offset + bytes.length ≤ 2 ^ (30 + s.hal.bar2) → s.window offset + bytes.length ≤ 640 * 2 ^ 30 →
      ∃ t, exec (.bar2Write offset bytes) s = .next t ∧ t.memBytes (s.window offset) bytes.length = bytes ∧
        (∀ a, a < s.window offset ∨ s.window offset + bytes.length ≤ a → lookup memReset t.mem a = lookup memReset s.mem a) ∧
        t = { s with mem := t.mem }) ∧
    (∀ (s : State) (offset n : Nat) (bytes : List Byte) (write : Bool) (c : Instr), s.power.on = true → s.inRecovery = true →
      c = .bar2Write offset bytes ∨ c = .bar2OutOfRange offset n write → exec c s = .next s) ∧
    (∀ (s : State) (offset n : Nat) (write : Bool), s.power.on = true → s.linkUp = true → s.inRecovery = false →
      640 * 2 ^ 30 < s.window offset + n →
      ∃ t, exec (.bar2OutOfRange offset n write) s = .next t ∧
        Changes { s with readData := if write then s.readData else 2 ^ (8 * n) - 1 } t [(F.HAL_GEVT_WINRANGE, 1)]))

/-- Writes of registers without a rule of their own (R15, R678): RW bits take the value written, W1C bits are cleared where it
is 1, and all others keep theirs. Here for HUB_SCRATCH, whose field is RWS, HUB_PRGCFG, all of whose fields are RW (and whose
write moves no register but the budgets of the arrays placed), and GOV_EVT, all of whose fields are W1C; no other register changes. A write of 1 to a block's CNT_CLR returns its counters to their reset values and no register outside its
counters' offsets changes (R158, R260, R385, R454, R545, R617, R642). -/
def Obligations.RegisterWritesAndClears : Prop :=
  ((∀ (s : State) (v : W32), Reach s R.HUB_SCRATCH → ∃ t, exec (.registerWrite R.HUB_SCRATCH v) s = .next t ∧
      t.rd R.HUB_SCRATCH = v ∧ OnlyRegs s t [R.HUB_SCRATCH]) ∧
    (∀ (s : State) (v : W32), Reach s R.HUB_PRGCFG → ∃ t, exec (.registerWrite R.HUB_PRGCFG v) s = .next t ∧
      t.fld F.HUB_PRGCFG_RVINT = bits v F.HUB_PRGCFG_RVINT.hi F.HUB_PRGCFG_RVINT.lo ∧
      t.fld F.HUB_PRGCFG_RVTEMP = bits v F.HUB_PRGCFG_RVTEMP.hi F.HUB_PRGCFG_RVTEMP.lo ∧
      (s.myPlacements = [] → OnlyRegs s t [R.HUB_PRGCFG])) ∧
    (∀ (s : State) (v : W32), Reach s R.GOV_EVT → ∃ t, exec (.registerWrite R.GOV_EVT v) s = .next t ∧
      t.rd R.GOV_EVT = s.rd R.GOV_EVT &&& ~~~(v &&& 0x3FF) ∧ OnlyRegs s t [R.GOV_EVT])) ∧
  ((∀ s : State, Reach s R.SNC_CTRL → ∃ t, exec .sncCntClr s = .next t ∧
      CountersCleared s t R.SNC_CNT_CONV_LO R.SNC_CNT_PATH
        [R.SNC_CNT_CONV_LO, R.SNC_CNT_CONV_HI, R.SNC_CNT_QDROP, R.SNC_CNT_URG, R.SNC_CNT_UWAIT, R.SNC_CNT_START,
          R.SNC_CNT_THR, R.SNC_CNT_PATH]) ∧
    (∀ s : State, Reach s R.FRE_CTRL → ∃ t, exec .freCntClr s = .next t ∧
      CountersCleared s t R.FRE_CNT_SEG_LO R.FRE_CNT_DUP
        [R.FRE_CNT_SEG_LO, R.FRE_CNT_SEG_HI, R.FRE_CNT_SVF, R.FRE_CNT_SAT, R.FRE_CNT_SLOTWAIT, R.FRE_CNT_CRC,
          R.FRE_CNT_COMMIT, R.FRE_CNT_VETO, R.FRE_CNT_LATE, R.FRE_CNT_DUP]) ∧
    (∀ s : State, Reach s R.RST_CTRL → ∃ t, exec .rstCntClr s = .next t ∧
      CountersCleared s t R.RST_CNT_CRST R.RST_CNT_DUMP
        [R.RST_CNT_CRST, R.RST_CNT_PRST, R.RST_CNT_ROLLBACK, R.RST_CNT_HANG, R.RST_CNT_REPLAY, R.RST_CNT_TERM,
          R.RST_CNT_MEMCE, R.RST_CNT_MEMUE, R.RST_CNT_STEWARD, R.RST_CNT_CONFLICT, R.RST_CNT_ARRFAIL, R.RST_CNT_DUMP]) ∧
    (∀ (s : State) (n : Nat), n < 512 → Reach s (R.OPE_CTRL n) → ∃ t, exec (.opeCntClr n) s = .next t ∧
      CountersCleared s t (R.OPE_CNT_BUSY_LO n) (R.OPE_DPA_CNT_HOLD n)
        [R.OPE_CNT_BUSY_LO n, R.OPE_CNT_BUSY_HI n, R.OPE_CNT_LOAD n, R.OPE_CNT_LSTALL n, R.OPE_CNT_KEEPMISS n,
          R.OPE_DPA_CNT_PANEL n, R.OPE_DPA_CNT_COVER n, R.OPE_DPA_CNT_HOLD n]) ∧
    (∀ (s : State) (n a : Nat), n < 512 → a < 8 → Reach s (R.ARR_CTRL n a) → ∃ t, exec (.arrCntClr n a) s = .next t ∧
      CountersCleared s t (R.ARR_CNT_MVM_LO n a) (R.ARR_CNT_CALFAIL n a)
        [R.ARR_CNT_MVM_LO n a, R.ARR_CNT_MVM_HI n a, R.ARR_CNT_ZSKIP n a, R.ARR_CNT_CLIP n a, R.ARR_CNT_CHK n a,
          R.ARR_CNT_PULSE_LO n a, R.ARR_CNT_SUSP n a, R.ARR_CNT_REMAP n a, R.ARR_CNT_CORRSTALL n a, R.ARR_CNT_CAL n a,
          R.ARR_CNT_CALFAIL n a]) ∧
    (∀ s : State, Reach s R.FAB_DCTRL → ∃ t, exec .fabCntClr s = .next t ∧
      CountersCleared s t R.FAB_CNT_HOPDROP (R.FAB_PCNT_RX_HI 31)
        [R.FAB_CNT_HOPDROP, R.FAB_CNT_DUP, R.FAB_CNT_REORDER, R.FAB_CNT_TABLE, R.FAB_CNT_PCRC, R.FAB_PCNT_RETRY 0,
          R.FAB_PCNT_DOWN 7, R.FAB_PCNT_TX_LO 31, R.FAB_PCNT_RX_HI 31]) ∧
    (∀ s : State, Reach s R.FOL_CTRL → ∃ t, exec .folCntClr s = .next t ∧
      CountersCleared s t R.FOL_CNT_DROP (R.FOL_TDROP 511)
        [R.FOL_CNT_DROP, R.FOL_CNT_REC, R.FOL_CNT_WRAP, R.FOL_TDROP 0, R.FOL_TDROP 511]))

/-- A write of HUB_EVTMASK sends the event vector at once where the written mask lets a set bit of the summary through, and no
vector otherwise (R684). A command that raises no masked bit of the summary sends no event vector, and one that raises k of them
sends it k times (R684); while the host link is down none is sent (R490).
Once a bit, and none later for one that the link kept back, are the model's readings (logs 42 and 84). -/
def Obligations.EventVector : Prop :=
  (∀ (s : State) (v : W32), Reach s R.HUB_EVTMASK → ∃ t, exec (.hubEvtmaskWrite v) s = .next t ∧
      t.fld F.HUB_EVTMASK_MASK = bits v 13 0 ∧
      t.msix = s.msix ++ (if s.evtSum &&& bits v 13 0 = 0 ∨ s.linkUp = false then [] else [s.fld F.HAL_EVTVEC_VEC]) ∧
      OnlyRegs s t [R.HUB_EVTMASK]) ∧
  (∀ s u : State, ∃ t, finish s u = .next t ∧ t.pending = s.pending ∧ t.regs = u.regs ∧
      t.msix = u.msix ++ List.replicate (if u.linkUp = false then 0 else
        ((List.range 14).filter (fun b => u.masked.testBit b && !s.masked.testBit b)).length) (u.fld F.HAL_EVTVEC_VEC))

/-! ### Rings, doorbells and halyards -/

/-- A doorbell value is taken when it lies, modulo 2^32, from the ring's producer count up to its consumer count plus its
entries, and otherwise ignored (R464). A command ring's doorbell outside that range, or while EN is 0 or the halyard stops,
sets HAL_EVT.DBERR; a feed ring's outside the range, or while LOG2 is 0, sets HAL_FDEVT.DBERR, HAL_FDREL standing for its
consumer count; a checkpoint ring's is ignored without a bit. Setting EN starts the counts from zero. -/
def Obligations.DoorbellRange : Prop :=
  (∀ (s : State) (h : Nat) (v : W32), s.power.on = true → Unarmed s → h < 17 →
    ∃ t, exec (.commandDoorbell h v) s = .next t ∧
      Changes s t [if s.fld (F.HAL_CTRL_EN h) = 1 ∧ s.fld (F.HAL_STAT_STOPPING h) = 0 ∧
          v - s.rd (R.HAL_SQPROD h) ≤ s.rd (R.HAL_SQCONS h) + BitVec.ofNat 32 (2 ^ s.fld (F.HAL_SIZE_LOG2 h)) - s.rd (R.HAL_SQPROD h)
        then (F.HAL_SQPROD_COUNT h, v.toNat) else (F.HAL_EVT_DBERR h, 1)]) ∧
  (∀ (s : State) (f : Nat) (v : W32), s.power.on = true → f < 64 →
    ∃ t, exec (.feedDoorbell f v) s = .next t ∧
      Changes { s with hal := { s.hal with feedErr := s.hal.feedErr.filter (· != f) } } t
        [if s.fld (F.HAL_FDSIZE_LOG2 f) ≠ 0 ∧
          v - s.rd (R.HAL_FDPROD f) ≤ s.rd (R.HAL_FDREL f) + BitVec.ofNat 32 (2 ^ s.fld (F.HAL_FDSIZE_LOG2 f)) - s.rd (R.HAL_FDPROD f)
        then (F.HAL_FDPROD_COUNT f, v.toNat) else (F.HAL_FDEVT_DBERR f, 1)]) ∧
  (∀ (s : State) (v : W32), s.power.on = true → s.hal.ckProd < 2 ^ 32 →
    exec (.checkpointDoorbell v) s = .next (if s.fld F.HAL_CKSIZE_LOG2 ≠ 0 ∧
        v - BitVec.ofNat 32 s.hal.ckProd ≤
          s.rd R.HAL_CKCONS + BitVec.ofNat 32 (2 ^ s.fld F.HAL_CKSIZE_LOG2) - BitVec.ofNat 32 s.hal.ckProd
      then { s with hal := { s.hal with ckProd := v.toNat } } else s)) ∧
  ∀ (s : State) (h : Nat), Reach s (R.HAL_CTRL h) → h < 17 → s.fld (F.HAL_CTRL_EN h) = 0 → s.fld (F.HAL_STAT_STOPPING h) = 0 →
    ∃ t, exec (.halEnable h) s = .next t ∧ t.fld (F.HAL_CTRL_EN h) = 1 ∧ t.rd (R.HAL_SQPROD h) = 0 ∧ t.rd (R.HAL_SQCONS h) = 0

/-- A halyard is enabled with its counts from zero (R462, R464), a second enabling or one while it stops changes nothing (R475),
and its context becomes active; the other halyards keep theirs. A halyard stops (R475): STOPPING is set at once and every
fetched command that has not started completes; once none runs and no completion waits, EN, STOPPING and the counts return to
zero.
That nothing changes where the event cannot occur is the model's choice (log 4). -/
def Obligations.HalyardEnableAndStop : Prop :=
  ((∀ (s : State) (h : Nat), Reach s (R.HAL_CTRL h) → h < 17 → s.fld (F.HAL_CTRL_EN h) = 0 → s.fld (F.HAL_STAT_STOPPING h) = 0 →
      ∃ t, exec (.halEnable h) s = .next t ∧ t.fld (F.HAL_CTRL_EN h) = 1 ∧ t.rd (R.HAL_SQPROD h) = 0 ∧
        t.rd (R.HAL_SQCONS h) = 0 ∧ t.rd (R.HAL_CQTAIL h) = 0 ∧ t.rd (R.HAL_CQHEAD h) = 0 ∧ t.fld (F.HAL_STAT_CQFULL h) = 0 ∧
        t.halyard h = {} ∧ (∀ k, k ≠ h → t.halyard k = s.halyard k) ∧ (h < 16 → s.fld (F.CTX_STAT_STATE h) = 0 → t.fld (F.CTX_STAT_STATE h) = 1) ∧
        t = { s with regs := t.regs, msix := t.msix, hal := { s.hal with halyards := t.hal.halyards } } ∧
        ∀ o, o ∉ [R.HAL_CTRL h, R.HAL_SQPROD h, R.HAL_SQCONS h, R.HAL_CQTAIL h, R.HAL_CQHEAD h, R.HAL_STAT h, R.CTX_STAT h] →
          t.rd o = s.rd o) ∧
    (∀ (s : State) (h : Nat), Reach s (R.HAL_CTRL h) → s.fld (F.HAL_CTRL_EN h) = 1 ∨ s.fld (F.HAL_STAT_STOPPING h) = 1 →
      exec (.halEnable h) s = .next s)) ∧
  ((∀ (s : State) (h : Nat), Reach s (R.HAL_CTRL h) → h < 17 → s.fld (F.HAL_CTRL_EN h) = 1 → s.fld (F.HAL_STAT_STOPPING h) = 0 →
      (∀ f ∈ (s.halyard h).fetched, f.running = true) →
      ∃ t, exec (.halStop h) s = .next t ∧ Changes s t [(F.HAL_STAT_STOPPING h, 1)]) ∧
    (∀ (s : State) (h : Nat), Reach s (R.HAL_CTRL h) → h < 17 → s.fld (F.HAL_CTRL_EN h) = 1 → s.fld (F.HAL_STAT_STOPPING h) = 0 →
      (∀ f ∈ (s.halyard h).fetched, accKind f.acc = 0 ∧ accSource f.acc = h) →
      ∃ t, exec (.halStop h) s = .next t ∧ t.fld (F.HAL_STAT_STOPPING h) = 1 ∧
        (t.halyard h).fetched = (s.halyard h).fetched.filter
          (fun f => !(s.halyard h).fetched.any (fun g => g.acc == f.acc && !s.started g))) ∧
    (∀ (s : State) (h : Nat), s.power.on = true → h < 17 → s.fld (F.HAL_STAT_STOPPING h) = 1 → (s.halyard h).fetched = [] →
      (s.halyard h).held = [] →
      ∃ t, exec (.halyardStopped h) s = .next t ∧ t.fld (F.HAL_CTRL_EN h) = 0 ∧ t.fld (F.HAL_STAT_STOPPING h) = 0 ∧
        t.rd (R.HAL_SQPROD h) = 0 ∧ t.rd (R.HAL_SQCONS h) = 0 ∧ t.rd (R.HAL_CQTAIL h) = 0 ∧ t.rd (R.HAL_CQHEAD h) = 0 ∧
        t.fld (F.HAL_STAT_CQFULL h) = 0 ∧ t.halyard h = {} ∧ t = { s with regs := t.regs, msix := t.msix, hal := { s.hal with halyards := t.hal.halyards } }))

/-- The completion ring's head and vector (R474, R477): a write of HAL_CQHEAD moves the head, and where no completion is held
CQFULL says whether the ring is full; a write of HAL_IRQ that sets ARM sends the vector at once where completions are pending, and so does the age limit of
an armed halyard; ARM then clears. A command is fetched in ring order (R465 to R468): the 64 bytes at the consumer count join
the halyard's fetched commands under the next accession number, and the count advances. Bytes that carry another accession
number set HAL_EVT.ACCMIS and complete at once, and so does a command that is refused as it is fetched. -/
def Obligations.CompletionRingAndFetch : Prop :=
  ((∀ (s : State) (h : Nat) (v : W32), Reach s (R.HAL_CQHEAD h) → h < 17 → (s.halyard h).held = [] →
      ∃ t, exec (.halCqheadWrite h v) s = .next t ∧
        Changes { s with hal := { s.hal with halyards := t.hal.halyards } } t
          [(F.HAL_CQHEAD_COUNT h, v.toNat), (F.HAL_STAT_CQFULL h, b2n (decide (2 ^ s.fld (F.HAL_SIZE_LOG2 h) ≤
            (s.fld (F.HAL_CQTAIL_COUNT h) + 2 ^ 32 - v.toNat) % 2 ^ 32)))] ∧ (t.halyard h).held = [] ∧
        (t.halyard h).fetched = (s.halyard h).fetched ∧ ∀ k, k ≠ h → t.halyard k = s.halyard k) ∧
    (∀ (s : State) (h : Nat) (v : W32), Reach s (R.HAL_IRQ h) → h < 17 → bit v 31 = true →
      s.rd (R.HAL_CQTAIL h) ≠ s.rd (R.HAL_CQHEAD h) →
      ∃ t, exec (.halIrqWrite h v) s = .next t ∧ t.rd (R.HAL_IRQ h) = v &&& 0x3FFFFF ∧
        t.msix = s.msix ++ (if s.linkUp then [bits v 21 16] else []) ∧ OnlyRegs s t [R.HAL_IRQ h]) ∧
    (∀ (s : State) (h : Nat) (v : W32), Reach s (R.HAL_IRQ h) → h < 17 →
      bit v 31 = false ∨ s.rd (R.HAL_CQTAIL h) = s.rd (R.HAL_CQHEAD h) →
      ∃ t, exec (.halIrqWrite h v) s = .next t ∧ t.rd (R.HAL_IRQ h) = v &&& 0x803FFFFF ∧ t.msix = s.msix ∧
        OnlyRegs s t [R.HAL_IRQ h]) ∧
    (∀ (s : State) (h w : Nat), s.linkUp = true → h < 17 → s.fld (F.HAL_IRQ_ARM h) = 1 → s.fld (F.HAL_IRQ_TIME h) ≠ 0 →
      (s.halyard h).stamps.head? = some w → w + 100 * s.fld (F.HAL_IRQ_TIME h) ≤ s.osc →
      ∃ t, exec (.irqAgeTimeout h) s = .next t ∧ t.msix = s.msix ++ [s.fld (F.HAL_IRQ_VEC h)] ∧
        Changes { s with msix := t.msix } t [(F.HAL_IRQ_ARM h, 0)])) ∧
  (∀ (s : State) (h : Nat) (b : List Byte) (acc : Nat), s.power.on = true → Unarmed s → h < 17 → s.mayFetch h = true →
      b = s.hostBytes (s.pair (F.HAL_SQBASE_LO_ADDR h) (F.HAL_SQBASE_HI_ADDR h)
        + 64 * (s.fld (F.HAL_SQCONS_COUNT h) % 2 ^ s.fld (F.HAL_SIZE_LOG2 h))) 64 →
      acc = h * 2 ^ 48 + (s.halyard h).pos % 2 ^ 48 →
      ∃ t, exec (.commandFetch h) s = .next t ∧ (t.halyard h).pos = (s.halyard h).pos + 1 ∧
        t.fld (F.HAL_SQCONS_COUNT h) = (s.fld (F.HAL_SQCONS_COUNT h) + 1) % 2 ^ 32 ∧
        (leNat (b.take 8) = acc → fetchRefusal h b = 0 →
          (∃ f : Fetched, f.acc = acc ∧ f.bytes = b ∧ f.running = false ∧
            (t.halyard h).fetched = (s.halyard h).fetched ++ [f]) ∧
          t = { s with regs := t.regs, msix := t.msix, hal := { s.hal with halyards := t.hal.halyards } }) ∧
        (leNat (b.take 8) = acc → fetchRefusal h b ≠ 0 → s.canComplete h → ∀ f ∈ (t.halyard h).fetched, f.acc ≠ acc) ∧
        (leNat (b.take 8) ≠ acc → t.fld (F.HAL_EVT_ACCMIS h) = 1 ∧ ∀ f ∈ (t.halyard h).fetched, f.acc ≠ acc))

/-! ### Host commands -/

/-- Host commands that complete at once (R472, R473, R474): NOP; COPY, whose bytes stand at the destination; TENSOR, whose
layout is stored; UNLOAD, which discards the charter; STOP without a job. Each ends with a completion of status success in
the ring's next entry. NOP changes nothing else.
That STOP without a job succeeds at once is the model's choice (log 21). -/
def Obligations.HostCommandsComplete : Prop :=
  (∀ (s : State) (acc : Nat), s.hostReady (.nop acc) acc → ∃ t, exec (.nop acc) s = .next t ∧ Completed s t acc 0 0 ∧
    OnlyCompletion s t acc) ∧
  (∀ (s : State) (acc step : Nat), s.hostReady (.stop acc step) acc → s.job.running = false →
    ∃ t, exec (.stop acc step) s = .next t ∧ Completed s t acc 0 0 ∧ OnlyCompletion s t acc) ∧
  (∀ (s : State) (acc src dst n : Nat), s.hostReady (.copy acc src dst n 1 1) acc → s.copyRefusal src dst n 1 1 = 0 →
    ∃ t, exec (.copy acc src dst n 1 1) s = .next t ∧ Completed s t acc 0 0 ∧
      t.memBytes dst n = s.memBytes src n ∧
      (∀ a, a < dst ∨ dst + n ≤ a → lookup memReset t.mem a = lookup memReset s.mem a) ∧
      OnlyCompletion { s with mem := t.mem } t acc) ∧
  (∀ (s : State) (acc src dst n : Nat), s.hostReady (.copy acc src dst n 0 1) acc → s.copyRefusal src dst n 0 1 = 0 →
    ∃ t, exec (.copy acc src dst n 0 1) s = .next t ∧ Completed s t acc 0 0 ∧
      t.memBytes dst n = s.hostBytes src n ∧
      (∀ a, a < dst ∨ dst + n ≤ a → lookup memReset t.mem a = lookup memReset s.mem a) ∧
      OnlyCompletion { s with mem := t.mem } t acc) ∧
  (∀ (s : State) (acc src dst n : Nat), s.hostReady (.copy acc src dst n 1 0) acc → s.copyRefusal src dst n 1 0 = 0 →
    dst + n ≤ s.cplSlot (accSource acc) ∨ s.cplSlot (accSource acc) + 32 ≤ dst →
    ∃ t, exec (.copy acc src dst n 1 0) s = .next t ∧ Completed s t acc 0 0 ∧
      t.hostBytes dst n = s.memBytes src n ∧ t.mem = s.mem ∧
      ∀ a, (a < dst ∨ dst + n ≤ a) → (a < s.cplSlot (accSource acc) ∨ s.cplSlot (accSource acc) + 32 ≤ a) →
        lookup memReset t.host a = lookup memReset s.host a) ∧
  (∀ (s : State) (acc : Nat) (record : List Byte), s.hostReady (.tensor acc record) acc → tensorRefusal record = 0 →
    ∃ t, exec (.tensor acc record) s = .next t ∧ Completed s t acc 0 0 ∧
      t.hal.tensors = s.hal.tensors.filter (fun y => y.id != (tensorOf record).id) ++ [tensorOf record] ∧
      OnlyCompletion { s with hal := { s.hal with tensors := t.hal.tensors } } t acc) ∧
  (∀ (s : State) (acc : Nat), s.hostReady (.unload acc) acc → s.job.running = false →
    ∃ t, exec (.unload acc) s = .next t ∧ Completed s t acc 0 0 ∧ t.charter = none ∧ t.job = {} ∧ t.engines = [] ∧
      t.fld F.HUB_CHSTAT_STATE = 0 ∧ t.mem = s.mem ∧
      ∀ x a, x < 512 → a < 8 → t.fld (F.ARR_STAT_INSVC x a) = 0)

/-- Host commands that work on the job and the arrays, when they may run (R195, R404 to R408, R472, R482, R487, R567): START
begins the job in its context, and completes once the READY exchange is over; STOP waits for its boundary; CHECKPOINT waits for
the next commit; TEST starts on a tile without one, and completes with its verdict; RETIRE remaps the column; LOAD takes a
charter that passes every check of R406, and refuses another with its first reason; RESTORE of a stream that passes its checks
moves HUB_STEP behind it. RETIRE, LOAD and RESTORE complete with success, LOAD's refusal with status 0x30, and RESTORE's with
0x34 and no other effect. -/
def Obligations.JobCommandsTakeEffect : Prop :=
  (∀ (s : State) (acc ctx : Nat), s.asked (.start acc ctx) acc →
    s.startRefusal ctx = 0 →
    ∃ t, exec (.start acc ctx) s = .next t ∧ t.job.running = true ∧ t.job.ctx = ctx ∧ t.job.first = s.step ∧
      t.job.handled = s.step ∧ t.job.item = none ∧ t.job.nextF = 0 ∧ t.job.nextB = 0 ∧ t.fld (F.CTX_STAT_STATE ctx) = 2 ∧
      t.fld F.HUB_STEPSTAT_PHASE = 2 ∧ t.fld F.HUB_STEPSTAT_GBUF = b2n s.chart.gbuf * (s.step % 2) ∧ t.charter = s.charter ∧
      (∀ n ∈ s.ownEngines, t.engine n = { handled := s.step } ∧ t.fld (F.UPD_STAT_STATE n) = 0) ∧
      (s.root.started = false → t.job.starting = some acc ∧ t.mem = s.mem ∧ t.arrs = s.arrs) ∧
      (s.root.started = true → t.job.starting = none ∧ t.job.begun = true ∧
        ∀ f ∈ (t.halyard (accSource acc)).fetched, f.acc ≠ acc)) ∧
  (∀ (s : State) (acc step : Nat), s.asked (.stop acc step) acc → s.job.running = true → s.job.stop = none →
    ∃ t, exec (.stop acc step) s = .next t ∧
      t.job = { s.job with stop := some (acc, if step = 0 then none else some step) } ∧
      t = { s with regs := t.regs, msix := t.msix, job := t.job, hal := { s.hal with halyards := t.hal.halyards } }) ∧
  (∀ (s : State) (acc : Nat), s.asked (.checkpoint acc) acc →
    ∃ t, exec (.checkpoint acc) s = .next t ∧ t.hal.ckWant = s.hal.ckWant ++ [acc] ∧
      (∀ f ∈ (t.halyard (accSource acc)).fetched, f.acc = acc → f.running = true) ∧
      t = { s with regs := t.regs, msix := t.msix,
                   hal := { s.hal with halyards := t.hal.halyards, ckWant := t.hal.ckWant } }) ∧
  (∀ (s : State) (acc tile kind mode subject m : Nat), s.asked (.test acc tile kind mode subject) acc →
    testRefusal tile kind mode subject = 0 → (s.tile tile).test = none →
    m = (if mode = 0 then (if s.job.running then 1 else 2) else mode) →
    ∃ t r, exec (.test acc tile kind mode subject) s = .next t ∧ (t.tile tile).test = some r ∧ r.kind = kind ∧
      r.hosts = [acc] ∧ r.mode = m ∧ (∀ k, k ≠ tile → t.tile k = s.tile k) ∧
      t.fld (F.TIL_TESTSTAT_STATE tile) = (if m = 2 ∧ s.job.running = true then 1 else 2) ∧
      t.fld (F.TIL_TESTSTAT_KIND tile) = kind ∧ t.fld (F.TIL_TESTSTAT_VERDICT tile) = 0 ∧
      (∀ f ∈ (t.halyard (accSource acc)).fetched, f.acc = acc → f.running = true) ∧
      t = { s with regs := t.regs, msix := t.msix, tiles := t.tiles, hal := { s.hal with halyards := t.hal.halyards } }) ∧
  (∀ (s : State) (acc addr len : Nat) (c : Charter), s.hostReady (.load acc addr len) acc → s.ens.up ≠ 0 → s.job.running = false → Unarmed s →
    s.fld F.HUB_CHSTAT_STATE ∉ [1, 2] → firstReason (s.charterChecks (s.memBytes addr len)) = none →
    c = parseCharter (s.memBytes addr len) →
    ∃ t, exec (.load acc addr len) s = .next t ∧ Completed s t acc 0 0 ∧ t.charter = some c ∧ t.job.running = false ∧
      t.job.first = s.step ∧ t.fld F.HUB_CHSTAT_STATE = 2 ∧
      t.pair F.HUB_CHID_LO_ID F.HUB_CHID_HI_ID = c.id ∧ t.fld F.HUB_PRGSTAT_POLICY = b2n c.lag1 ∧
      ∀ p ∈ t.myPlacements, (t.arr p.tile p.array).startup = true) ∧
  (∀ (s : State) (acc addr len reason : Nat) (v : Viol), s.hostReady (.load acc addr len) acc → s.ens.up ≠ 0 → s.job.running = false → Unarmed s →
    s.fld F.HUB_CHSTAT_STATE ∈ [1, 2] ∧ reason = 3 ∨
      s.fld F.HUB_CHSTAT_STATE ∉ [1, 2] ∧ firstReason (s.charterChecks (s.memBytes addr len)) = some (reason, v) →
    ∃ t, exec (.load acc addr len) s = .next t ∧ Completed s t acc 0x30 0 ∧ OnlyCompletion s t acc ∧
      t.fld F.HUB_CHSTAT_REASON = reason % 2 ^ 16 ∧
      t.fld F.HUB_CHSTAT_STATE = (if s.fld F.HUB_CHSTAT_STATE ∈ [1, 2] then s.fld F.HUB_CHSTAT_STATE else 3) ∧
      t.fld F.HUB_CNT_REFUSE_COUNT = satAdd 32 (s.fld F.HUB_CNT_REFUSE_COUNT) 1) ∧
  (∀ (s : State) (acc list count : Nat) (rs : List (List Byte)), s.hostReady (.restore acc list count) acc → Unarmed s → s.job.running = false →
    rs = s.streamRecords list count 0 →
    (s.charter.isSome = true → s.streamOk rs = true → ∃ t, exec (.restore acc list count) s = .next t ∧
      Completed s t acc 0 0 ∧ t.step = (leAt (recData (rs.headD [])) 8 8 + 1) % 2 ^ 64 ∧
      t.job.first = leAt (recData (rs.headD [])) 8 8 + 1 ∧ t.job.begun = false ∧ t.charter = s.charter ∧
      ∀ p ∈ s.myPlacements, (t.arr p.tile p.array).startup = true) ∧
    (s.charter = none ∨ s.streamOk rs = false → ∃ t, exec (.restore acc list count) s = .next t ∧
      Completed s t acc 0x34 0 ∧ OnlyCompletion s t acc)) ∧
  (∀ (s : State) (acc tile array bank col n : Nat), s.hostReady (.retire acc tile array bank col) acc → tile < 512 → array < 8 → bank < 2 → col < 512 → n < 16 →
    bit (s.remapEntry tile array bank n) 31 = false → (∀ m < n, bit (s.remapEntry tile array bank m) 31 = true) →
    ∃ t, exec (.retire acc tile array bank col) s = .next t ∧ Completed s t acc 0 0 ∧
      t.remapEntry tile array bank n = BitVec.ofNat 32 (2 ^ 31 + 4 * 2 ^ 20 + col) ∧ t.mem = s.mem ∧ t.arrs = s.arrs ∧
      t.fld (F.ARR_CNT_REMAP_COUNT tile array) = satAdd 32 (s.fld (F.ARR_CNT_REMAP_COUNT tile array)) 1)

/-- Statuses of host commands that are turned away (R472, R488, R489): ABORT of a command that has completed (0x2, naming it) or
that was never issued (0x3); LOAD, UNLOAD and RESTORE in a running job (0x32); COPY that fails a check. An ABORT of a fetched command
that has not started and waits on no tile (R489): the target and then the ABORT leave their halyards' fetched commands, the
target completed as aborted and the ABORT after it with success. -/
def Obligations.HostCommandsRefusedOrAborted : Prop :=
  ((∀ (s : State) (acc target : Nat), s.hostReady (.abort acc target) acc → accKind target = 0 → accSource target = accSource acc →
      target % 2 ^ 48 < (s.halyard (accSource target)).pos →
      (∀ f ∈ (s.halyard (accSource target)).fetched, f.acc ≠ target) →
      ∃ t, exec (.abort acc target) s = .next t ∧ Completed s t acc 2 target ∧ OnlyCompletion s t acc) ∧
    (∀ (s : State) (acc target : Nat), s.hostReady (.abort acc target) acc → accKind target = 0 → accSource target = accSource acc →
      (s.halyard (accSource target)).pos ≤ target % 2 ^ 48 →
      ∃ t, exec (.abort acc target) s = .next t ∧ Completed s t acc 3 0 ∧ OnlyCompletion s t acc) ∧
    (∀ (s : State) (acc : Nat) (c : Instr), s.hostReady c acc → s.job.running = true →
      c = .unload acc ∨ (∃ addr len, c = .load acc addr len ∧ s.ens.up ≠ 0) ∨ (∃ list count, c = .restore acc list count) →
      ∃ t, exec c s = .next t ∧ Completed s t acc 0x32 0 ∧ OnlyCompletion s t acc) ∧
    (∀ (s : State) (acc src dst n ss ds : Nat), s.hostReady (.copy acc src dst n ss ds) acc → s.copyRefusal src dst n ss ds ≠ 0 →
      ∃ t, exec (.copy acc src dst n ss ds) s = .next t ∧ Completed s t acc (s.copyRefusal src dst n ss ds) 0 ∧
        OnlyCompletion s t acc)) ∧
  (∀ (s : State) (acc target : Nat) (f : Fetched), s.asked (.abort acc target) acc →
      accKind target = 0 → accSource target < 17 → accSource acc = accSource target → target % 2 ^ 48 < (s.halyard (accSource target)).pos →
      (s.halyard (accSource target)).fetched.find? (fun g => g.acc == target) = some f → f.running = false →
      leAt f.bytes 12 1 ∉ [2, 3, 5] → (∀ e ∈ s.tiles, (∀ p ∈ e.2.redPend, p.cmd.acc ≠ target) ∧ ∀ q ∈ e.2.seqWait, q.2.acc ≠ target) →
      ∃ t, exec (.abort acc target) s = .next t ∧
        (∀ h n tail, h = accSource target → n = s.ringSize h → tail = s.fld (F.HAL_CQTAIL_COUNT h) → s.canComplete h →
          s.cqDepth h + 1 < n → t.fld (F.HAL_CQTAIL_COUNT h) = (tail + 2) % 2 ^ 32 ∧
            t.hostBytes (s.cplSlot h) 10 = leBytes 8 target ++ leBytes 2 1 ∧
            t.hostBytes (s.pair (F.HAL_CQBASE_LO_ADDR h) (F.HAL_CQBASE_HI_ADDR h) + 32 * ((tail + 1) % n)) 10 =
              leBytes 8 acc ++ leBytes 2 0) ∧
        (∀ g ∈ (t.halyard (accSource target)).fetched, g.acc ≠ target ∧ g.acc ≠ acc) ∧
        (accSource target < 16 → t.fld (F.CTX_LASTERR_STATUS (accSource target)) = 1) ∧ t.mem = s.mem ∧ t.tiles = s.tiles)

/-- The host link (R460, R490, R492): it goes down, which holds every halyard; it trains again, unless PERST_N holds it,
and releases them; a read that failed, for a CHECKPOINT, a RESTORE or a
COPY, is reported to AER and completes its command with status 0x40, and no checkpoint keeps it (here with none in progress). -/
def Obligations.HostLink : Prop :=
  (∀ s : State, s.power.on = true → s.hal.linkUp = true → ∃ t, exec .hostLinkDown s = .next t ∧
    t.hal = { s.hal with linkUp := false } ∧ t.fld F.HAL_GEVT_LINKDOWN = 1 ∧
    (∀ h < 17, t.fld (F.HAL_STAT_LINKHOLD h) = 1) ∧ t = { s with regs := t.regs, msix := t.msix, hal := t.hal }) ∧
  (∀ s : State, s.power.on = true → s.power.perst = false → (∀ h < 17, (s.halyard h).held = []) →
    ∃ t, exec .hostLinkRetrain s = .next t ∧ t.hal = { s.hal with linkUp := true } ∧
      (∀ h < 17, t.fld (F.HAL_STAT_LINKHOLD h) = 0) ∧ t = { s with regs := t.regs, msix := t.msix, hal := t.hal }) ∧
  (∀ (s : State) (acc : Nat), s.power.on = true → accKind acc = 0 → accSource acc < 17 → s.canComplete (accSource acc) →
    (∃ f ∈ (s.halyard (accSource acc)).fetched, f.acc = acc ∧ leAt f.bytes 12 1 ∈ [6, 7, 8]) → s.hal.ckStream = none →
    ∃ t, exec (.hostMemoryFault acc) s = .next t ∧ Completed s t acc 0x40 0 ∧
      t.fld (F.HAL_EVT_HOSTFAULT (accSource acc)) = 1 ∧ t.hal.aer = s.hal.aer + 1 ∧ acc ∉ t.hal.ckWant ∧
      (∀ c ∈ t.hal.ckStaged.toList ++ t.hal.ckQueue, acc ∉ c.accs) ∧ t.mem = s.mem ∧ t.arrs = s.arrs ∧
      ∀ a, a < s.cplSlot (accSource acc) ∨ s.cplSlot (accSource acc) + 32 ≤ a →
        lookup memReset t.host a = lookup memReset s.host a)

/-- The DOE mailbox (R461, R656, R657): a request of its code that is long enough and of SPDM 1.2 (GET_VERSION: 1.0) is
answered, each with its response code; another is answered ERROR, and one of another version with the version mismatch.
Digests and certificates come from the slot 0 chain. Only the mailbox's transcript and the draw of free values change. The
layouts and codes of SPDM 1.2 are the standard's (log 8). -/
def Obligations.SpdmAnswers : Prop :=
  (∀ (s : State) (c : Instr) (code n answer : Nat) (req : List Byte), s.power.on = true → s.linkUp = true →
    (c, code, n, answer) ∈ ([(.getVersion req, 0x84, 4, 0x04), (.getCapabilities req, 0xE1, 4, 0x61),
      (.negotiateAlgorithms req, 0xE3, 32, 0x63), (.getDigests req, 0x81, 4, 0x01), (.getCertificate req, 0x82, 8, 0x02),
      (.challenge req, 0x83, 36, 0x03), (.getMeasurements req, 0xE0, 4, 0x60)] : List (Instr × Nat × Nat × Nat)) →
    ∃ t, exec c s = .next t ∧ t = { s with sec := t.sec, free := t.free } ∧
      (n ≤ req.length → leAt req 1 1 = code → leAt t.sec.response 1 1 = answer ∨ leAt t.sec.response 1 1 = 0x7F) ∧
      (n ≤ req.length → leAt req 1 1 = code → leAt req 0 1 ≠ (if code = 0x84 then 0x10 else 0x12) →
        t.sec.response = [0x12, 0x7F, 0x41, 0]) ∧
      (req.length < n ∨ leAt req 1 1 ≠ code → t.sec.response = [0x12, 0x7F, 1, 0])) ∧
  (∀ (s : State) (req : List Byte), s.power.on = true → s.linkUp = true → 4 ≤ req.length → leAt req 1 1 = 0x84 → leAt req 0 1 = 0x10 →
    ∃ t, exec (.getVersion req) s = .next t ∧ t.sec.response = [0x10, 0x04, 0, 0, 0, 1, 0x00, 0x12]) ∧
  (∀ (s : State) (req : List Byte), s.power.on = true → s.linkUp = true → 4 ≤ req.length → leAt req 1 1 = 0xE1 → leAt req 0 1 = 0x12 →
    ∃ t, exec (.getCapabilities req) s = .next t ∧ t.sec.response.take 4 = [0x12, 0x61, 0, 0] ∧ t.sec.response.length = 20) ∧
  (∀ (s : State) (req : List Byte), s.power.on = true → s.linkUp = true → 32 ≤ req.length → leAt req 1 1 = 0xE3 → leAt req 0 1 = 0x12 →
    ∃ t, exec (.negotiateAlgorithms req) s = .next t ∧ leAt t.sec.response 12 4 = leAt req 8 4 &&& 0x400 ∧
      leAt t.sec.response 16 4 = leAt req 12 4 &&& 2) ∧
  (∀ (s : State) (req : List Byte), s.power.on = true → s.linkUp = true → 4 ≤ req.length → leAt req 1 1 = 0x81 → leAt req 0 1 = 0x12 →
    ∃ t, exec (.getDigests req) s = .next t ∧ t.sec.response = [0x12, 0x01, 0, 1] ++ leBytes 48 (Config.sha384 chainBytes).toNat) ∧
  (∀ (s : State) (req : List Byte), s.power.on = true → s.linkUp = true → 8 ≤ req.length → leAt req 1 1 = 0x82 → leAt req 0 1 = 0x12 →
    leAt req 2 1 % 16 = 0 → leAt req 4 2 ≤ chainBytes.length →
    ∃ t, exec (.getCertificate req) s = .next t ∧
      t.sec.response.drop 8 = (chainBytes.drop (leAt req 4 2)).take (leAt req 6 2)) ∧
  (∀ (s : State) (req : List Byte), s.power.on = true → s.linkUp = true → 36 ≤ req.length → leAt req 1 1 = 0x83 → leAt req 0 1 = 0x12 →
    leAt req 2 1 = 0 →
    ∃ t, exec (.challenge req) s = .next t ∧
      t.sec.response.take 52 = [0x12, 0x03, 0, 1] ++ leBytes 48 (Config.sha384 chainBytes).toNat) ∧
  (∀ (s : State) (req : List Byte), s.power.on = true → s.linkUp = true → 4 ≤ req.length → leAt req 1 1 = 0xE0 → leAt req 0 1 = 0x12 →
    leAt req 2 1 % 2 = 0 → leAt req 3 1 = 0 →
    ∃ t, exec (.getMeasurements req) s = .next t ∧ t.sec.response.take 8 = [0x12, 0x60, 7, 0, 0, 0, 0, 0])

/-! ### Tile commands -/

/-- Every tile command that a sequencer takes, does not refuse and need not hold completes in the step (R24, R109, R466):
MVM, the products of the OPE and the DPA, the seven statistics ops, CONVERT, AMAX, STASH, UNSTASH, SEND and GRADADD. The
tile's numeric status becomes that command's. One that is refused completes with its status and writes neither device
memory nor tile stores nor arrays (R258, R472); one whose phase is not open, or that stands behind one that waits, waits in
its tile's queue (R24, R293).
That a command of an array out of service waits is the model's reading (log 37). -/
def Obligations.TileCommandsComplete : Prop :=
  (∀ (s : State) (i : Instr) (op : Nat) (c d : TileCmd),
    (i, op, d) ∈ ([(.mvm c, 0x40, c), (.opeProduct c, 0x41, c), (.dpaProduct c, 0x42, c), (.lnf c, 0x43, withOp c 0),
      (.rmsf c, 0x43, withOp c 1), (.smf c, 0x43, withOp c 2), (.lnb c, 0x43, withOp c 3), (.rmsb c, 0x43, withOp c 4),
      (.smb c, 0x43, withOp c 5), (.xent c, 0x43, withOp c 6), (.convert c, 0x44, c), (.amax c, 0x45, c),
      (.stash c, 0x48, c), (.unstash c, 0x49, c), (.send c, 0x4A, c), (.gradadd c, 0x4B, c)] : List (Instr × Nat × TileCmd)) →
    s.canRun op d → ∃ t, exec i s = .next t ∧ TileCompleted t d) ∧
  (∀ (s : State) (i : Instr) (op : Nat) (c : TileCmd), i.tileOp = some (op, c) → s.takes op c → s.tileRefusal op c ≠ 0 →
    ∃ t, exec i s = .next t ∧ LeftQueue t c ∧ t.mem = s.mem ∧ t.tstore = s.tstore ∧ t.arrs = s.arrs ∧
      t.charter = s.charter ∧ (∀ k, k ≠ c.tile → t.tile k = s.tile k) ∧
      ∀ f ∈ [F.TIL_NSTAT_VALID c.tile, F.TIL_NSTAT_CTX c.tile, F.TIL_NSTAT_SVF c.tile, F.TIL_NSAT_COUNT c.tile,
        F.TIL_NACC_LO_ACC_LO c.tile, F.TIL_NACC_HI_ACC_HI c.tile], t.fld f = s.fld f) ∧
  (∀ (s : State) (i : Instr) (op : Nat) (c : TileCmd), i.tileOp = some (op, c) → s.takes op c →
    s.tileRefusal op c = 0 → s.phaseOpen c = false ∨ s.behind op c = true → s.bufferBusy op c = false →
    exec i s = .next (if (op, c) ∈ (s.tile c.tile).seqWait then s
      else s.putTileRec c.tile { s.tile c.tile with seqWait := (s.tile c.tile).seqWait ++ [(op, c)] }))

/-- What the tile commands store. Of a host's MVM, products, CONVERT, AMAX and forward statistics op without ADD, device
memory and the tile stores change nowhere but in the rows R0 to R0 + NR − 1 of TC (for AMAX in row 0; R98, R471). CONVERT of
one row leaves there the row's values times K, each rounded once to TC's format (R75). LNF, RMSF and SMF leave a group of NR
records under their accession number (R280, here where the record area has room); LNB, RMSB and SMB release the group that
they name (R284), and a host's SMB writes TC's rows of the group alone; XENT counts the rows it ignores and those whose label
is out of range, and leaves its loss record in its registers and in row 0 of TD (R276, R277).
The job's own: STASH puts its rows, compressed, behind what the running micro-batch has stashed on the tile's half, and keeps
their place (R296); UNSTASH of one row brings it back, and writes nothing but TC's rows; SEND hands its rows to the fabric
in messages of up to 64 KiB; those of the reduction class wait for a store slot's credit (R371), and those of activations that
find no credit stand in the item's outbound queue in ascending order (R388, R410, R411); GRADADD writes nothing but TC's rows in the step's gradient buffer (R300).
That CONVERT reads its source exactly, where a label lies in its row, which name a stashed tensor goes by and how a message is
laid out are the model's readings (logs 35, 15, 17 and 18). -/
def Obligations.TileCommandStores : Prop :=
  (∀ (s : State) (i : Instr) (op : Nat) (c : TileCmd) (x : Tensor), i.tileOp = some (op, c) → op ∈ [0x40, 0x41, 0x42, 0x44] →
    s.canRun op c → accKind c.acc = 0 → c.add = false → s.layout c.acc c.tc = some x →
    ∃ t, exec i s = .next t ∧ OnlyRows s t x c.tile (tileRows c)) ∧
  (∀ (s : State) (c : TileCmd) (x : Tensor), s.canRun 0x45 c → accKind c.acc = 0 → c.add = false →
    s.layout c.acc c.tc = some x → ∃ t, exec (.amax c) s = .next t ∧ OnlyRows s t x c.tile [0]) ∧
  (∀ (s : State) (c : TileCmd) (a x : Tensor) (k : FVal), s.canRun 0x44 c → accKind c.acc = 0 → c.add = false →
    c.nr = 1 → s.layout c.acc c.ta = some a → s.layout c.acc c.tc = some x → s.ratio c (some a) none (some x) = some k →
    ∃ t, exec (.convert c) s = .next t ∧
      t.placeBytes x.place c.tile (x.base + c.r0 * x.pitch) x.rowBytes = ((encodeRow x.desc c.policy
        ((List.range a.rowlen).map (fun i => (mulExact (s.elem c.tile a c.r0 i) k, false)))).run 0).1.1) ∧
  (∀ (s : State) (i : Instr) (c : TileCmd), i.tileOp = some (0x43, c) → c.sel ≤ 2 → s.canRun 0x43 c →
    (s.tile c.tile).records false + c.nr ≤ 28672 →
    ∃ t, exec i s = .next t ∧
      (∃ g ∈ (t.tile c.tile).groups, g.acc = c.acc ∧ g.first = c.r0 ∧ g.count = c.nr ∧ g.recs.length = c.nr ∧
        g.spilled = false) ∧
      ∀ x, accKind c.acc = 0 → c.add = false → s.layout c.acc c.tc = some x → OnlyRows s t x c.tile (tileRows c)) ∧
  (∀ (s : State) (i : Instr) (c : TileCmd), i.tileOp = some (0x43, c) → c.sel = 3 ∨ c.sel = 4 ∨ c.sel = 5 → s.canRun 0x43 c →
    ∃ t, exec i s = .next t ∧ (t.tile c.tile).groups = (s.tile c.tile).groups.filter (fun g => g.acc != c.group) ∧
      ∀ x g, c.sel = 5 → accKind c.acc = 0 → c.add = false → s.layout c.acc c.tc = some x → s.group c = some g →
        OnlyRows s t x c.tile (spanRows g.first g.recs.length)) ∧
  (∀ (s : State) (i : Instr) (c : TileCmd) (b x d : Tensor), i.tileOp = some (0x43, c) → c.sel = 6 → s.canRun 0x43 c →
    accKind c.acc = 0 → s.layout c.acc c.tb = some b → s.layout c.acc c.tc = some x → s.layout c.acc c.td = some d →
    ∃ t, exec i s = .next t ∧
      t.fld (F.TIL_RSE_CNT_IGNORE_COUNT c.tile) = satAdd 32 (s.fld (F.TIL_RSE_CNT_IGNORE_COUNT c.tile))
        ((tileRows c).filter (fun r => s.labelOf c.tile b r == 0xFFFFFFFF)).length ∧
      t.fld (F.TIL_RSE_CNT_BADLBL_COUNT c.tile) = satAdd 32 (s.fld (F.TIL_RSE_CNT_BADLBL_COUNT c.tile))
        ((tileRows c).filter (fun r => s.labelOf c.tile b r != 0xFFFFFFFF &&
          decide ((rseArgs c).valid x.rowlen r ≤ s.labelOf c.tile b r))).length ∧
      (d.place = 15 → x.place ≠ 15 → t.placeBytes 15 c.tile d.base 8 =
        leBytes 4 (t.rd (R.TIL_RSE_LOSS_HI c.tile)).toNat ++ leBytes 4 (t.rd (R.TIL_RSE_LOSS_LO c.tile)).toNat)) ∧
  (∀ (s : State) (c : TileCmd) (x : Tensor) (g : Region) (r : StashRes) (bs : List Byte), s.canRun 0x48 c →
    (s.layout c.acc c.ta).map (s.fed c) = some x → s.region 1 (halfOf c.tile) = some g →
    (s.stashRing (halfOf c.tile)).find? (fun r => r.mb == s.itemMb) = some r →
    bs = compress x.desc (s.rowsBytes c.tile x c.r0 c.nr) → bs.length ≤ g.length → 0 < g.length →
    ∃ t, exec (.stash c) s = .next t ∧ t.ringBytes g (r.tail + r.used) bs.length = bs ∧
      t.stashRing (halfOf c.tile) = (s.stashRing (halfOf c.tile)).map (fun y => if y.mb = r.mb then
        { r with used := r.used + roundUp bs.length 16,
                 items := r.items ++ [(stashKey c.ta c.r0, c.tile, r.tail + r.used, bs.length)] } else y)) ∧
  (∀ (s : State) (c : TileCmd) (x : Tensor) (g : Region) (r : StashRes) (i : Nat × Nat × Nat × Nat) (bs : List Byte),
    s.canRun 0x49 c → s.layout c.acc c.tc = some x → s.region 1 (halfOf c.tile) = some g →
    (s.stashRing (halfOf c.tile)).find? (fun r => r.mb == s.itemMb) = some r →
    r.items.find? (fun i => i.1 == stashKey c.tc c.r0 && (x.place != 15 || i.2.1 == c.tile)) = some i →
    bs = (decompress x.desc (pageCount x.desc (c.nr * x.rowBytes)) (s.ringBytes g i.2.2.1 i.2.2.2)).take (c.nr * x.rowBytes) →
    ∃ t, exec (.unstash c) s = .next t ∧ OnlyRows s t x c.tile (tileRows c) ∧
      (c.nr = 1 → bs.length = x.rowBytes → t.placeBytes x.place c.tile (x.base + c.r0 * x.pitch) x.rowBytes = bs)) ∧
  (∀ (s : State) (c : TileCmd) (x : Tensor), s.canRun 0x4A c → (s.layout c.acc c.ta).map (s.fed c) = some x →
    ∃ t, exec (.send c) s = .next t ∧
      (c.p2 ∉ [1, 3] → s.flag F.FAB_DEVNUM_VALID = true → ∃ ms : List Msg, t.sent = s.sent ++ ms ∧
        ms.map (·.payload) = chunks 65536 (s.rowsBytes c.tile x c.r0 c.nr) ∧
        ∀ m ∈ ms, m.dest = c.p1 ∧ m.src = s.devNum ∧ m.cls = c.p2) ∧
      (c.p2 = 1 → lookup (fun _ => 0) s.fre.credit c.p1 = 0 → t.sent = s.sent ∧
        t.fre.out = s.fre.out ++ (chunks 65536 (s.rowsBytes c.tile x c.r0 c.nr)).map (fun b =>
          { dest := c.p1, payload := b, stream := some (s.shardStream c x) })) ∧
      (c.p2 = 3 → s.hasOut s.itemBack = true → s.credit s.itemBack = 0 → t.sent = s.sent ∧
        ((t.outbound s.itemBack).map (fun m => (m.dest, m.key, m.tensor, m.bytes))).Perm
          ((s.outbound s.itemBack ++ sendMessages (s.peer c.p1) s.itemMb c.ta (s.sendOffset c)
            (s.rowsBytes c.tile x c.r0 c.nr)).map (fun m => (m.dest, m.key, m.tensor, m.bytes))) ∧
        ((s.outbound s.itemBack).Pairwise (fun m n => m.key ≤ n.key) →
          (t.outbound s.itemBack).Pairwise (fun m n => m.key ≤ n.key)))) ∧
  ∀ (s : State) (c : TileCmd) (x : Tensor), s.canRun 0x4B c → s.target c = some x →
    ∃ t, exec (.gradadd c) s = .next t ∧ OnlyRows s t x c.tile (tileRows c)

/-! ### Arrays and engines -/

/-- The array's slices and the vectors at its edge. A slice of zeros is skipped and only counted; another counts one MVM
(R141, R157); either way a one-slice vector joins the edge. The cover (R251) works on the oldest vector that awaits it and
replaces the covered columns alone; the correction (R213) works on the oldest that awaits it, and leaves a vector whose covered
columns are not there yet (R254). The converters power down where PDEN lets them (R142). -/
def Obligations.ArrayVectors : Prop :=
  (∀ (s : State) (x a acc index : Nat) (np : Bool) (e : Int) (d : List Int), s.power.on = true → x < 512 → a < 8 →
    s.fld (F.ARR_STAT_INSVC x a) = 1 → (s.arr x a).out = false → s.windowHeld x a = false →
    ∃ t v, exec (.arrayMvm x a acc index 0 np e d) s = .next t ∧ (t.arr x a).edge = (s.arr x a).edge ++ [v] ∧
      v.acc = acc ∧ v.index = index ∧ v.m = d ∧ v.e = e ∧ v.full = true ∧ v.covered = false ∧ v.done = false ∧ v.qavg = s.fld (F.ARR_QAVG_QAVG x a) ∧
      (d.all (· = 0) = true → v.n = List.replicate 512 0 ∧
        t.fld (F.ARR_CNT_ZSKIP_COUNT x a) = satAdd 32 (s.fld (F.ARR_CNT_ZSKIP_COUNT x a)) 1 ∧
        t.fld (F.ARR_QAVG_QAVG x a) = s.fld (F.ARR_QAVG_QAVG x a)) ∧
      (d.all (· = 0) = false →
        t.pair (F.ARR_CNT_MVM_LO_COUNT x a) (F.ARR_CNT_MVM_HI_COUNT x a) =
          satAdd 48 (s.pair (F.ARR_CNT_MVM_LO_COUNT x a) (F.ARR_CNT_MVM_HI_COUNT x a)) 1 ∧
        t.fld (F.ARR_STAT_CONV_ON x a) = 1) ∧ t.mem = s.mem) ∧
  (∀ (s : State) (x a : Nat) (np stalled : Bool) (v : EdgeVec), s.power.on = true → x < 512 → a < 8 →
    (s.arr x a).edge.find? (fun v => !v.done) = some v →
    ∃ t y, exec (.residualCorrection x a np stalled) s = .next t ∧ t.mem = s.mem ∧
      t.fld (F.ARR_CNT_CORRSTALL_COUNT x a) = satAdd 32 (s.fld (F.ARR_CNT_CORRSTALL_COUNT x a)) (b2n stalled) ∧
      y = ((s.correct x a (policyOf np) (s.coveredCols x a) (v.y.map (fun w => { val := ofFP32 w })) v.m v.e).run 0).1.map
        (fun r => fp32Bits r.val) ∧
      (t.arr x a).edge = (if v.full = true ∧ (v.covered = true ∨ s.coveredCols x a = []) then
        updFirst (fun v => !v.done) (fun v => { v with y, done := true }) (s.arr x a).edge else (s.arr x a).edge)) ∧
  (∀ (s : State) (x a : Nat) (np held : Bool) (v : EdgeVec), s.power.on = true → Unarmed s → x < 512 → a < 8 →
    (s.arr x a).edge.find? (fun v => v.full && !v.covered && !v.done) = some v → s.coveredCols x a ≠ [] →
    ∃ t y, exec (.cover x a np held) s = .next t ∧ t.mem = s.mem ∧
      (t.arr x a).edge =
        updFirst (fun v => v.full && !v.covered && !v.done) (fun v => { v with y, covered := true }) (s.arr x a).edge ∧
      ∀ j < 512, y.getD j 0 = if (s.coveredCols x a).contains j then
          fp32Bits ((do
            let w ← (List.range 512).mapM (fun i => readOperand (policyOf np) 1 (s.copyWeight (s.active x a) x a i j))
            let r ← coverRun (policyOf np) w v.m
            elemOf (fldexp (policyOf np) r.val v.e) : Cnt Elem).run 0).1.val
        else fp32Bits (ofFP32 (v.y.getD j 0))) ∧
  (∀ (s : State) (x a : Nat), s.power.on = true → x < 512 → a < 8 →
    ∃ t, exec (.converterPowerDown x a) s = .next t ∧
      Changes s t (if s.fld (F.ARR_CTRL_PDEN x a) = 1 then [(F.ARR_STAT_CONV_ON x a, 0)] else []))

/-- What the engines fetch and spill. A cover's columns are staged, 1 KiB each, within the tile's store, once their copies are
written (R166, R252); a panel of digital forward mode arrives in the half of the cover region that is not in use (R704); a
stationary operand is in the tile store, its wait counted (R236). The oldest resident statistics group is spilled while the
spill region has room, 8 bytes a record in slots of their own, and comes back while the record area has (R280, R282, R283).
Which slots a group takes is the model's choice (log 74). -/
def Obligations.EngineMemoryEvents : Prop :=
  (∀ (s : State) (x : Nat) (r : Region), s.power.on = true → x < 512 → s.region 0x21 x = some r →
    ((∃ a < 8, (s.arr x a).cover ≠ [] ∧ ((s.arr x a).bank (s.active x a)).copied = false) →
      exec (.coverStaging x) s = .next s) ∧
    ((∀ a < 8, (s.arr x a).cover ≠ [] → ((s.arr x a).bank (s.active x a)).copied = true) →
      ∃ t, exec (.coverStaging x) s = .next t ∧ (t.tile x).staged = ceilDiv (s.covered x) 64 ∧
        (∀ k, k ≠ x → t.tile k = s.tile k) ∧
        (∀ i a j base, ((List.range 8).flatMap (fun a => (s.arr x a).cover.map (fun j => (a, j))))[i]? = some (a, j) →
          s.copyAddr (s.active x a) x a = some base →
          t.placeBytes 15 x (r.base + 1024 * i) 1024 = s.memBytes (base + 1024 * j) 1024) ∧
        (∀ z, z < tstoreBytes * x + r.base ∨ tstoreBytes * x + r.base + 1024 * s.covered x ≤ z →
          lookup memReset t.tstore z = lookup memReset s.tstore z) ∧
        t = { s with tstore := t.tstore, tiles := t.tiles })) ∧
  (∀ (s : State) (x a panel base : Nat) (r : Region), s.power.on = true → x < 512 → a < 8 → s.dfwd = true →
    s.region 0x21 x = some r → s.copyAddr (s.active x a) x a = some base →
    ∃ t, exec (.panelFetch x a panel) s = .next t ∧
      t.placeBytes 15 x (r.base + 65536 * ((s.tile x).staged % 8)) 65536 = s.memBytes (base + 65536 * panel) 65536 ∧
      (t.tile x).staged = (s.tile x).staged + 1 ∧ t = { s with tstore := t.tstore, tiles := t.tiles }) ∧
  (∀ (s : State) (x tensor waited : Nat), s.power.on = true → x < 512 →
    ∃ t, exec (.stationaryOperandFetch x tensor waited) s = .next t ∧ (t.tile x).fetched = some tensor ∧
      t.fld (F.OPE_CNT_LSTALL_COUNT x) = satAdd 32 (s.fld (F.OPE_CNT_LSTALL_COUNT x)) waited ∧
      t = { s with regs := t.regs, tiles := t.tiles, msix := t.msix }) ∧
  (∀ (s : State) (x : Nat) (g : StatGroup) (r : Region), s.power.on = true → x < 512 → s.region 0x08 x = some r →
    (s.tile x).groups.find? (fun g => !g.spilled) = some g → (s.tile x).records true + g.count ≤ s.spillRoom x →
    ∃ t, exec (.groupSpill x) s = .next t ∧ (t.tile x).groups = (s.tile x).groups.map (fun h => if h.acc == g.acc then
        { h with spilled := true, recs := [], slots := s.freeSlots x g.count } else h) ∧
      (∀ (i k : Nat) (q : W32 × W32), (s.freeSlots x g.count)[i]? = some k → g.recs[i]? = some q →
        t.memBytes (r.addr + 8 * k) 8 = leBytes 4 q.1.toNat ++ leBytes 4 q.2.toNat) ∧
      (∀ z, z < r.addr ∨ r.addr + r.length ≤ z → lookup memReset t.mem z = lookup memReset s.mem z) ∧
      t.fld (F.TIL_RSE_CNT_SPILL_COUNT x) = satAdd 32 (s.fld (F.TIL_RSE_CNT_SPILL_COUNT x)) 1 ∧
      t = { s with mem := t.mem, regs := t.regs, tiles := t.tiles, msix := t.msix }) ∧
  ∀ (s : State) (x acc : Nat) (g : StatGroup), s.power.on = true → x < 512 → (s.tile x).seqWait = [] →
    (s.tile x).groups.find? (fun g => g.acc == acc && g.spilled) = some g →
    (s.tile x).records false + g.count ≤ 28672 →
    ∃ t, exec (.groupReload x acc) s = .next t ∧ (t.tile x).groups = (s.tile x).groups.map (fun h => if h.acc == acc then
        { h with spilled := false, recs := s.spilledRecs x g, slots := [] } else h) ∧
      t.fld (F.TIL_RSE_CNT_RELOAD_COUNT x) = satAdd 32 (s.fld (F.TIL_RSE_CNT_RELOAD_COUNT x)) 1 ∧
      t = { s with regs := t.regs, tiles := t.tiles, msix := t.msix }

/-! ### Programming, measurement and calibration -/

/-- The steps of a rewrite of the idle bank (R166, R175, R176, R179, R194). A full rewrite starts in STATE 0x1 once its copy holds
every target; the clear leaves every pair of the input rows at level 0, in array time (R178); a cycle turns the converters of
the arrays that program on, brings a row that closes one readback further, leaves alone the banks that do not program and
admits at most three arrays to the charge pump; a suspension is counted; a re-verify takes the active bank in STATE 0x5. A refresh is owed by both banks of
every array, and ARR_BSTAT.RVDUE shows it, once the interval expires where HUB_PRGCFG.RVINT is not 0, and at once on RVNOW
(R192, R193). A logical column that is retired turns the spares that served it DEAD and takes the lowest free remap entry, VALID
and not yet LIVE, with its cause (R195 to R198, R200). That a spare which is VALID and not yet LIVE turns DEAD too is the model's
choice (log 70). -/
def Obligations.RewriteRefreshAndRemap : Prop :=
  ((∀ (s : State) (x a b : Nat), s.power.on = true → x < 512 → a < 8 →
      b = (if (s.arr x a).startup then 0 else 1 - s.active x a) → ((s.arr x a).bank b).copied = true →
      ((s.arr x a).bank b).awaited = false → ((s.arr x a).bank b).oweFull = true → s.dfwd = false → s.arrayTime = true →
      s.calibrating x a = false → s.prgState x a = 0 ∨ s.prgState x a = 4 →
      ∃ t, exec (.rewriteStart x a) s = .next t ∧ t.fld (F.ARR_PRGSTAT_STATE x a) = 1 ∧ t.fld (F.ARR_PRGSTAT_FULL x a) = 1 ∧
        t.fld (F.ARR_PRGSTAT_SUSP x a) = 0 ∧ t.fld (F.ARR_PRGSTAT_ROW x a) = 0 ∧ t.fld (F.ARR_STAT_IDLEBUSY x a) = 1 ∧
        (t.arr x a).rew.bank = b ∧ t = { s with regs := t.regs, arrs := t.arrs, msix := t.msix }) ∧
    (∀ (s : State) (x a : Nat), s.power.on = true → x < 512 → a < 8 → s.prgState x a = 1 → s.arrayTime = true →
      s.dfwd = false → s.arrayHeld = false → s.calibrating x a = false →
      s.fld (F.ARR_PRGSTAT_SUSP x a) = 0 → (s.arr x a).rew.bank < 2 →
      ∃ t, exec (.bankClear x a) s = .next t ∧ t.prgState x a ≠ 1 ∧
        ∀ i < 512, ∀ c < 529, ((t.arr x a).bank (s.arr x a).rew.bank).pairLevel x a (s.arr x a).rew.bank i c = 0) ∧
    (∀ (s : State) (x : Nat), s.power.on = true → x < 512 →
      ∃ t, exec (.programmingCycle x) s = .next t ∧ (s.admissions x).length ≤ 3 ∧
        (∀ a, (s.admissions x).getLast? = some a → (t.tile x).pump = a) ∧
        (∀ a < 8, s.programming x a = true → t.fld (F.ARR_STAT_CONV_ON x a) = 1 ∧
          ∀ n < 3, (s.arr x a).rew.phase = .closing n → (t.arr x a).rew.phase = .closing (n + 1)) ∧
        (∀ y a, y < 512 → a < 8 → (y ≠ x ∨ s.programming x a = false) →
          (t.arr y a).bank0 = (s.arr y a).bank0 ∧ (t.arr y a).bank1 = (s.arr y a).bank1) ∧ t.mem = s.mem) ∧
    (∀ (s : State) (x a : Nat), s.power.on = true → x < 512 → a < 8 → s.fld (F.ARR_STAT_IDLEBUSY x a) = 1 →
      s.fld (F.ARR_PRGSTAT_SUSP x a) = 0 →
      ∃ t, exec (.programmingSuspend x a) s = .next t ∧
        Changes s t [(F.ARR_PRGSTAT_SUSP x a, 1), (F.ARR_CNT_SUSP_COUNT x a, satAdd 32 (s.fld (F.ARR_CNT_SUSP_COUNT x a)) 1)]) ∧
    (∀ (s : State) (x a : Nat), s.power.on = true → x < 512 → a < 8 → (s.arr x a).reverify = true → s.arrayTime = true →
      s.dfwd = false → s.calibrating x a = false → ∃ t, exec (.activeBankReverify x a) s = .next t ∧ t.fld (F.ARR_PRGSTAT_STATE x a) = 5 ∧
        t.fld (F.ARR_PRGSTAT_REFRESH x a) = 1 ∧ t.fld (F.ARR_PRGSTAT_FULL x a) = 0 ∧ t.fld (F.ARR_STAT_IDLEBUSY x a) = 1 ∧
        (t.arr x a).rew.bank = s.active x a ∧ t = { s with regs := t.regs, arrs := t.arrs, msix := t.msix })) ∧
  ((∀ (s : State) (c : Instr), c = .refreshIntervalExpiry ∧ s.power.on = true ∧ s.fld F.HUB_PRGCFG_RVINT ≠ 0 ∨
        c = .rvnow ∧ Reach s R.HUB_PRGCMD →
      ∃ t, exec c s = .next t ∧ ∀ x a, x < 512 → a < 8 → (t.arr x a).refresh = true ∧ (t.arr x a).bank0.oweRefresh = true ∧
        (t.arr x a).bank1.oweRefresh = true ∧ t.fld (F.ARR_BSTAT_RVDUE x a) = 1 ∧ (t.tile x).calWant = true ∧
        t.fld (F.ARR_PRGSTAT_STATE x a) = s.fld (F.ARR_PRGSTAT_STATE x a)) ∧
    (∀ s : State, s.fld F.HUB_PRGCFG_RVINT = 0 → exec .refreshIntervalExpiry s = .next s) ∧
    ∀ (s : State) (x a b j cause n : Nat), s.power.on = true → x < 512 → a < 8 → b < 2 → j < 512 → cause < 8 → n < 16 →
      bit (s.remapEntry x a b n) 31 = false → (∀ m < n, bit (s.remapEntry x a b m) 31 = true) →
      ∃ t, exec (.remap x a b j cause) s = .next t ∧
        t.remapEntry x a b n = BitVec.ofNat 32 (2 ^ 31 + cause * 2 ^ 20 + j) ∧
        (∀ m < 16, m ≠ n → t.remapEntry x a b m =
          if bit (s.remapEntry x a b m) 31 && !bit (s.remapEntry x a b m) 29 && bits (s.remapEntry x a b m) 8 0 == j then
            putBits (s.remapEntry x a b m) 30 29 1
          else s.remapEntry x a b m) ∧
        t.fld (F.ARR_CNT_REMAP_COUNT x a) = satAdd 32 (s.fld (F.ARR_CNT_REMAP_COUNT x a)) 1 ∧
        t = { s with regs := t.regs, ledger := t.ledger, msix := t.msix })

/-- Measurement, factors, images and calibration. The measurement follows the rows of a rewrite, a pattern at a time, and with
the 512th leaves the residual in the scratch region (R206 to R208); the factors, of the rank that ARR_RESCFG named when the
measurement started, go to the scratch region too and take the OPE (R209, R210, R211, R237); an image lies in its own 144 KiB
(R314); a calibration counts its windows, keeps them while it is suspended, and is over with the 256th (R549, R552).
Where an image and the factors lie in their regions is the model's reading (logs 19 and 39). -/
def Obligations.MeasureAndCalibrate : Prop :=
  (∀ (s : State) (x a : Nat), s.power.on = true → x < 512 → a < 8 → s.prgState x a = 3 → s.arrayTime = true →
    s.dfwd = false → s.arrayHeld = false → s.calibrating x a = false → s.fld (F.ARR_PRGSTAT_SUSP x a) = 0 → (s.arr x a).rew.measured = false → (s.arr x a).rew.pattern < 511 →
    ∃ t, exec (.residualMeasurement x a) s = .next t ∧ (t.arr x a).rew.pattern = (s.arr x a).rew.pattern + 1 ∧
      (t.arr x a).rew.reads.length = (s.arr x a).rew.reads.length + 1 ∧ (t.arr x a).rew.measured = false ∧ t.prgState x a = 3 ∧
      ((s.arr x a).rew.pattern = 0 → (t.arr x a).rew.limit = s.fld (F.ARR_RESLIM_LIM x a) ∧
        (t.arr x a).rew.rank = rankOf (s.fld (F.ARR_RESCFG_RANK x a)) ∧
        (t.arr x a).rew.iter = s.fld (F.ARR_RESCFG_ITER x a)) ∧
      t.fld (F.ARR_CNT_HMVM_COUNT x a) = satAdd 32 (s.fld (F.ARR_CNT_HMVM_COUNT x a)) 1 ∧
      t.fld (F.ARR_STAT_CONV_ON x a) = 1 ∧ t.mem = s.mem) ∧
  (∀ (s : State) (x a : Nat), s.power.on = true → x < 512 → a < 8 → s.prgState x a = 3 → s.arrayTime = true →
    s.dfwd = false → s.arrayHeld = false → s.calibrating x a = false → s.fld (F.ARR_PRGSTAT_SUSP x a) = 0 → (s.arr x a).rew.measured = false → (s.arr x a).rew.built = false →
    (s.arr x a).rew.pattern = 511 → (s.arr x a).rew.rank ≠ 0 → s.scratchTaken x a = false →
    ∃ t, exec (.residualMeasurement x a) s = .next t ∧ (t.arr x a).rew.measured = true ∧ t.prgState x a = 3 ∧
      t.fld (F.ARR_RESSTAT_MBANK x a) = (s.arr x a).rew.bank % 2 ∧
      t.fld (F.ARR_CNT_HMVM_COUNT x a) = satAdd 32 (s.fld (F.ARR_CNT_HMVM_COUNT x a)) 1 ∧
      ∀ z, (∀ r, s.region 7 x = some r → z < r.addr ∨ r.addr + 524288 ≤ z) →
        lookup memReset t.mem z = lookup memReset s.mem z) ∧
  (∀ (s : State) (x a b r : Nat) (uv : List (List FVal) × List (List FVal)), s.power.on = true → x < 512 → a < 8 → b < 2 →
    (s.arr x a).rew.bank = b → (s.arr x a).rew.measured = true → (s.arr x a).rew.built = false → s.arrayTime = true →
    r = (s.arr x a).rew.rank → uv = ((buildFactors (s.residAt x) r (s.arr x a).rew.iter).run 0).1 →
    ∃ t, exec (.factorBuild x a) s = .next t ∧ ((t.arr x a).bank b).factors = true ∧ ((t.arr x a).bank b).rank = r ∧
      (t.tile x).keep = [] ∧ t.pair (F.OPE_CNT_BUSY_LO_COUNT x) (F.OPE_CNT_BUSY_HI_COUNT x) =
        satAdd 48 (s.pair (F.OPE_CNT_BUSY_LO_COUNT x) (F.OPE_CNT_BUSY_HI_COUNT x)) ((2 * (s.arr x a).rew.iter + 2) * 128 * r) ∧
      (s.factorAddr x a = none → t.mem = s.mem) ∧
      ∀ g, s.factorAddr x a = some g → t.memBytes g (1024 * r) = factorBytes r uv.1 ∧
        t.memBytes (g + 1024 * r) (1024 * r) = factorBytes r uv.2 ∧
        ∀ z, z < g ∨ g + 2048 * r ≤ z → lookup memReset t.mem z = lookup memReset s.mem z) ∧
  (∀ (s : State) (x a b : Nat) (g : Region), s.power.on = true → x < 512 → a < 8 → b < 2 → s.region 6 0xFFFF = some g →
    ((s.arr x a).bank b).copied = true → ((s.arr x a).bank b).imaged = false → s.arrayTime = true →
    ∃ t, exec (.pn4ImageBuild x a b) s = .next t ∧ ((t.arr x a).bank b).imaged = true ∧
      (∀ z, z < g.addr + 147456 * (2 * (8 * x + a) + b) ∨ g.addr + 147456 * (2 * (8 * x + a) + b) + 147456 ≤ z →
        lookup memReset t.mem z = lookup memReset s.mem z) ∧ t = { s with mem := t.mem, arrs := t.arrs }) ∧
  (∀ (s : State) (x a w : Nat), s.power.on = true → x < 512 → a < 8 → s.arrayTime = true → s.dfwd = false →
    s.arrayHeld = false → s.prgState x a ∉ [1, 2] → (s.prgState x a = 5 → 512 ≤ (s.arr x a).rew.row) → s.calDue x a = true →
    ∃ t, exec (.calibration x a w) s = .next t ∧
      ((s.arr x a).cal.windows + w < 256 → (t.arr x a).cal.windows = (s.arr x a).cal.windows + w ∧
        t.fld (F.ARR_CALSTAT_STATE x a) = 1 ∧ (t.arr x a).gain = (s.arr x a).gain ∧ (t.arr x a).ofs = (s.arr x a).ofs) ∧
      (256 ≤ (s.arr x a).cal.windows + w → (t.arr x a).cal.windows = 0 ∧ t.fld (F.ARR_CALSTAT_STATE x a) ∈ [0, 2])) ∧
  (∀ (s : State) (x a : Nat), s.power.on = true → x < 512 → a < 8 → s.fld (F.ARR_CALSTAT_STATE x a) = 1 →
    ∃ t, exec (.calibrationSuspend x a) s = .next t ∧ Changes s t [(F.ARR_CALSTAT_STATE x a, 3)])

/-! ### The step -/

/-- The ensign's sequence (R290 to R293, R182, R184, R40). An item starts where its phase is open, and otherwise waits for a
phase change; its commands take the next accession numbers of the context (R466); the change closes the phase, and the new one
opens once both halves have drained and a Steward may order it; the boundary, once nothing holds it and the standby's record
includes its swap (R47), swaps the banks of every array, moves HUB_STEP on by one and starts the items of the next step from
zero; the swap that a recovery owes comes alone (R593). One that waits is held, under LAG1 only for a bank. -/
def Obligations.StepSequence : Prop :=
  (∀ s : State, s.power.on = true → s.mayIssue = true → s.job.item = none → s.job.want = none → s.readyF = true →
    (s.readyB = false ∨ s.forwardFirst = true) →
    (s.fld F.HUB_STEPSTAT_PHASE ≠ 1 → s.fld F.HUB_STEPSTAT_PHASE ≠ 3 →
      exec .itemSelect s = .next { s with job := { s.job with want := some (.forward, s.job.nextF) } }) ∧
    (s.fld F.HUB_STEPSTAT_PHASE = 1 → ∃ t, exec .itemSelect s = .next t ∧ t.job.item = some (.forward, s.job.nextF, s.osc) ∧
      t.fld F.HUB_STEPSTAT_MB = s.job.nextF % 2 ^ 16 ∧ t.fld F.HUB_STEPSTAT_ITEM = 0 ∧ t.fld F.HUB_STEPSTAT_PHASE = 1 ∧
      t.job.issued = s.job.issued + (s.templates 1).length ∧ t.job.left.length = (s.templates 1).length ∧
      ∀ (i : Nat) (q : Nat × TileCmd), t.job.left[i]? = some q →
        q.2.acc = (0x1000 + s.job.ctx) * 2 ^ 48 + (s.job.issued + i) % 2 ^ 48)) ∧
  (∀ (s : State) (n t0 : Nat), s.power.on = true → s.job.left = [] → s.job.item = some (.forward, n, t0) →
    ∃ t, exec .itemSelect s = .next t ∧ t.job.nextF = n + 1 ∧ t.fld F.HUB_FTIME_TIME = (s.osc - t0) % 2 ^ 32) ∧
  (∀ s : State, s.power.on = true → s.mayIssue = true → s.job.want.isSome = true → s.job.item = none →
    s.fld F.HUB_STEPSTAT_PHASE ≠ 3 →
    ∃ t, exec .phaseChange s = .next t ∧
      Changes { s with job := { s.job with drained := 0 } } t [(F.HUB_STEPSTAT_PHASE, 3)]) ∧
  (∀ (s : State) (half : Nat) (ph : Phase) (n : Nat), s.power.on = true → s.job.want = some (ph, n) →
    s.fld F.HUB_STEPSTAT_PHASE = 3 → half < 2 →
    (s.job.drained ||| 2 ^ half ≠ 3 ∨ s.mayOrder = false →
      exec (.halfDrained half) s = .next { s with job := { s.job with drained := s.job.drained ||| 2 ^ half } }) ∧
    (s.job.drained ||| 2 ^ half = 3 → s.mayOrder = true → (∀ e ∈ s.tiles, e.2.seqWait = []) → ∃ t, exec (.halfDrained half) s = .next t ∧ t.fld F.HUB_STEPSTAT_PHASE = ph.kind ∧
      t.job.phase = ph ∧ t.job.drained = 0 ∧
      t.fld F.HUB_CNT_PHASE_COUNT = satAdd 32 (s.fld F.HUB_CNT_PHASE_COUNT) 1)) ∧
  (∀ s due : State, s.power.on = true → s.mayIssue = true → s.job.item = none → s.job.want = none →
    s.job.nextF = s.chart.micro → s.job.nextB = s.chart.micro → s.stopTests = [] →
    due = { s with ens := { s.ens with swapDue := some s.step } } →
    (s.boundaryReady s.step = true → due.recordHeld = false → exec .stepBoundary s = .next due) ∧
    (s.boundaryReady s.step = true → due.recordHeld = true → ∃ t, exec .stepBoundary s = .next t ∧
      t.step = (s.step + 1) % 2 ^ 64 ∧ t.job.nextF = 0 ∧ t.job.nextB = 0 ∧ t.job.losses = [] ∧ t.ens.swapDue = none ∧
      t.fld F.HUB_PRGSTAT_HOLD = 0 ∧ ∀ x < 512, ∀ a < 8, t.active x a = 1 - s.active x a) ∧
    (s.boundaryReady s.step = false → ∃ t, exec .stepBoundary s = .next t ∧ t.step = s.step ∧ t.mem = s.mem ∧ t.arrs = s.arrs ∧
      (if s.chart.lag1 = true ∧ s.myPlacements.all s.bankReady = true then t.fld F.HUB_PRGSTAT_HOLD = 0 ∧ t.job.hold = none
        else t.fld F.HUB_PRGSTAT_HOLD = 1 ∧ t.job.hold.isSome = true))) ∧
  (∀ s due : State, s.power.on = true → s.mayOrder = true → s.job.oweSwap = true → s.job.item = none →
    s.myPlacements.all s.bankReady = true → due = { s with ens := { s.ens with swapDue := some s.step } } →
    (due.recordHeld = false → exec .stepBoundary s = .next due) ∧
    (due.recordHeld = true → ∃ t, exec .stepBoundary s = .next t ∧ t.step = s.step ∧ t.job.oweSwap = false ∧
      ∀ x < 512, ∀ a < 8, t.active x a = 1 - s.active x a)) ∧
  (∀ (s : State) (ring : Nat) (f : Feed) (d : List Byte) (g k : Nat), s.power.on = true → Unarmed s → ring < 64 →
    s.myFeeds.find? (fun f => f.ring == ring) = some f → s.linkUp = true → s.fld (F.HAL_FDSIZE_LOG2 ring) ≠ 0 →
    s.fld (F.HAL_FDCONS_COUNT ring) ≠ s.fld (F.HAL_FDPROD_COUNT ring) → ring ∉ s.hal.feedErr → s.job.rolling = none →
    k = (s.fld (F.HAL_FDCONS_COUNT ring) + 2 ^ 32 - s.consumedMb % 2 ^ 32) % 2 ^ 32 → k < f.slots → g = s.consumedMb + k →
    d = s.hostBytes (s.pair (F.HAL_FDBASE_LO_ADDR ring) (F.HAL_FDBASE_HI_ADDR ring)
      + 16 * (s.fld (F.HAL_FDCONS_COUNT ring) % 2 ^ s.fld (F.HAL_FDSIZE_LOG2 ring))) 16 →
    ∃ t, exec (.feedDescriptorCopy ring) s = .next t ∧
      (leAt d 8 4 ≠ f.mbbytes → t.fld (F.HAL_FDEVT_LENERR ring) = 1 ∧ ring ∈ t.hal.feedErr ∧ t.mem = s.mem ∧
        t.rd (R.HAL_FDCONS ring) = s.rd (R.HAL_FDCONS ring)) ∧
      (leAt d 8 4 = f.mbbytes → leAt d 12 4 ≠ g % 2 ^ 32 → t.fld (F.HAL_FDEVT_SEQERR ring) = 1 ∧ ring ∈ t.hal.feedErr ∧
        t.mem = s.mem ∧ t.rd (R.HAL_FDCONS ring) = s.rd (R.HAL_FDCONS ring)) ∧
      (leAt d 8 4 = f.mbbytes → leAt d 12 4 = g % 2 ^ 32 →
        Changes { s with mem := t.mem } t [(F.HAL_FDCONS_COUNT ring, s.fld (F.HAL_FDCONS_COUNT ring) + 1)] ∧
        ∀ r, s.chart.regions[f.region]? = some r →
          t.memBytes (r.addr + g % f.slots * f.mbbytes) f.mbbytes = s.hostBytes (leAt d 0 8) f.mbbytes))

/-! ### The gradient exchange -/

/-- The reduction tree's segments (R362, R368, R371 to R373, R378). The oldest full bucket enters its trees; a segment whose CRC
fails is counted and dropped, one that comes between ROLLBACK and RESUME is discarded (R592); another takes the slot reserved for its sender, or gives it back where its step's outcome was
handled; the owner's root segment is written into its shard's gradient area and leaves the store, waits while its step is not its
engine's yet, and is discarded after its step; a slot is reserved for the lowest key that is due and has none while slots are
free, 64 of them kept for the lowest of all; and of one that arrives the waiting segments whose turn it is leave, each with a
credit of its destination.
The order of the gradient buffer is the model's reading (log 14). -/
def Obligations.ReductionSegments : Prop :=
  (∀ (s : State) (step b : Nat) (rest : List (Nat × Nat)) (g : Region), s.power.on = true → s.fre.full = (step, b) :: rest →
    s.region (2 + b2n s.chart.gbuf * (step % 2)) 0xFFFF = some g → (∀ e ∈ s.tiles, e.2.seqWait = []) →
    ∃ t, exec .bucketSend s = .next t ∧ t.fre.full = rest ∧ t.mem = s.mem ∧ t.arrs = s.arrs ∧
      (s.chart.replicas ≤ 1 → ∃ new : List Slot, t.fre.slots = s.fre.slots ++ new ∧ new.length = (s.bucketSegments b).length ∧
        ∀ y ∈ new, y.step = step ∧ y.bucket = b ∧ y.level = 0 ∧ y.own = true)) ∧
  (∀ (s : State) (p : List Byte), s.power.on = true → s.job.rolling.isSome = true → exec (.reductionSegment p) s = .next s) ∧
  (∀ (s : State) (p : List Byte), s.power.on = true → s.job.rolling = none → Unarmed s →
    (leAt p 28 4 ≠ (crc32c (p.take 28 ++ p.drop 32)).toNat →
      ∃ t, exec (.reductionSegment p) s = .next t ∧ t.fld F.FRE_EVT_CRC = 1 ∧ t.fre = s.fre ∧
        t.fld F.FRE_CNT_CRC_COUNT = satAdd 32 (s.fld F.FRE_CNT_CRC_COUNT) 1) ∧
    (leAt p 28 4 = (crc32c (p.take 28 ++ p.drop 32)).toNat →
      (s.senderOf (segKey p) = none ∨ (∃ dev, s.senderOf (segKey p) = some dev ∧ s.reservedFor dev = 0) ∨ segKey p ∈ s.fre.came) →
      exec (.reductionSegment p) s = .next s) ∧
    ∀ dev, leAt p 28 4 = (crc32c (p.take 28 ++ p.drop 32)).toNat → s.senderOf (segKey p) = some dev → s.reservedFor dev ≠ 0 →
      segKey p ∉ s.fre.came → (∀ y ∈ s.fre.slots, y.own = false) →
      ∃ t, exec (.reductionSegment p) s = .next t ∧ t.mem = s.mem ∧ t.reservedFor dev = s.reservedFor dev - 1 ∧
        (leAt p 0 8 < s.job.handled → t.fre = { s.fre with reserved := t.fre.reserved }) ∧
        (s.job.handled ≤ leAt p 0 8 → ∃ x : Slot,
          t.fre = { s.fre with reserved := t.fre.reserved, slots := s.fre.slots ++ [x], came := s.fre.came ++ [segKey p] } ∧
          x.own = false ∧ x.step = leAt p 0 8 ∧ x.shard = leAt p 8 4 ∧ x.offset = leAt p 12 4 ∧ x.level = leAt p 18 1 ∧
          x.bucket = leAt p 20 4 ∧ x.vals.length = leAt p 16 2 + 1)) ∧
  (∀ (s : State) (shard offset h : Nat) (q : Slot) (x : ShardAt), s.power.on = true →
    s.fre.slots.find? (fun y => y.own && y.level == clog2 s.chart.replicas && y.shard == shard && y.offset == offset) = some q →
    (s.shardsAt (s.chart.shards.getD shard {}).engine).find? (fun y => y.num == shard) = some x →
    h = (s.engine (s.chart.shards.getD shard {}).engine).handled →
    (h < q.step → exec (.segmentDelivery shard offset) s = .next s) ∧
    (q.step < h → exec (.segmentDelivery shard offset) s =
      .next { s with fre := { s.fre with slots := s.fre.slots.filter (· != q) } }) ∧
    (q.step = h →
      lookup (fun _ => 0) (s.engine (s.chart.shards.getD shard {}).engine).got shard + q.vals.length ≠ x.shard.length →
      ∃ t, exec (.segmentDelivery shard offset) s = .next t ∧ t.fre.slots = s.fre.slots.filter (· != q) ∧
        lookup (fun _ => 0) (t.engine (s.chart.shards.getD shard {}).engine).got shard =
          lookup (fun _ => 0) (s.engine (s.chart.shards.getD shard {}).engine).got shard + q.vals.length ∧
        t.mem = (s.putMem (x.area 10 + 4 * offset) (q.vals.flatMap (fun w => leBytes 4 w.toNat))).mem)) ∧
  (∀ (s : State) (lowest : Bool) (dev : Nat) (due : Option (SegKey × Nat)), s.power.on = true →
    due = (if lowest then s.segmentsOpen.head?.filter (fun k => s.segmentsDue.head? == some k) else s.segmentsOpen.head?) →
    (due = none → exec (.reductionCreditGrant true lowest dev) s = .next s) ∧
    ∀ k d, due = some (k, d) → exec (.reductionCreditGrant true lowest dev) s = .next
      (if d = dev ∧ s.slotsUsed + s.reservedAll + (if lowest then 0 else 64) < 2048
        then s.putReserved dev (s.reservedFor dev + 1) else s)) ∧
  ∀ (s : State) (lowest : Bool) (dev : Nat), s.power.on = true →
    ∃ t, exec (.reductionCreditGrant false lowest dev) s = .next t ∧ t.fre.slots = s.fre.slots ∧
      t.fre.out.Sublist s.fre.out ∧ (∀ o ∈ t.fre.out, t.mayLeave o = false) ∧
      (∀ d, lookup (fun _ => 0) t.fre.credit d + (s.fre.out.filter (fun o => o.dest == d)).length =
        lookup (fun _ => 0) s.fre.credit d + (if d = dev then 1 else 0) + (t.fre.out.filter (fun o => o.dest == d)).length) ∧
      (s.flag F.FAB_DEVNUM_VALID = true → t.sent.length + t.fre.out.length = s.sent.length + s.fre.out.length)

/-- The engines through a step (R339, R343 to R347, R485): CLIP gives each waiting engine the norm and the clip factor and
lets it apply, or holds it for its records of a checkpoint; pass 1 of a job with trust ratios runs over the complete shards, and
ends at the barrier with the last; an engine that has applied holds its pending slots, and reports unless it asked for a
veto. -/
def Obligations.EngineSequence : Prop :=
  (∀ (s : State) (gnorm kappa : W32) (n : Nat), s.power.on = true → n ∈ s.ownEngines → s.fld (F.UPD_STAT_STATE n) = 2 →
    (s.engine n).held = false →
    ∃ t, exec (.clipMessage gnorm kappa) s = .next t ∧ t.rd (R.UPD_GNORM n) = gnorm ∧ t.rd (R.UPD_KAPPA n) = kappa ∧
      (s.ckHolds n = false → t.fld (F.UPD_STAT_STATE n) = 3) ∧
      (s.ckHolds n = true → t.fld (F.UPD_STAT_STATE n) = 2 ∧ (t.engine n).held = true ∧ t.fld F.HAL_CKSTAT_HOLD = 1) ∧
      (FVal.lt (ofFP32 kappa) (FVal.ofInt 1) = true → t.fld (F.UPD_EVT_CLIP n) = 1) ∧
      t = { s with regs := t.regs, msix := t.msix, engines := t.engines }) ∧
  (∀ (s : State) (n : Nat) (passed : List Nat), s.power.on = true → n < 8 → s.fld (F.UPD_STAT_STATE n) = 3 →
    s.chart.usesTrust = true → (s.engine n).trusted = false →
    passed = (s.engine n).passed ++ (s.shardsLeft n (s.engine n).passed).map (·.num) →
    ∃ t, exec (.trustPassOneComplete n) s = .next t ∧ (t.engine n).passed = passed ∧
      (∀ x ∈ s.shardsLeft n (s.engine n).passed, ((treeOf t.treeT (s.engine n).handled).find x.num).isSome = true) ∧
      (s.allShards n passed = false → t.fld (F.UPD_STAT_STATE n) = 1 ∧ (t.engine n).trusted = false) ∧
      (s.allShards n passed = true → t.fld (F.UPD_STAT_STATE n) = 4 ∧ (t.engine n).trusted = false ∨
        t.fld (F.UPD_STAT_STATE n) = 3 ∧ (t.engine n).trusted = true)) ∧
  (∀ (s : State) (n : Nat) (applied : List Nat), s.power.on = true → n < 8 → s.fld (F.UPD_STAT_STATE n) = 3 →
    s.chart.usesTrust = false ∨ (s.engine n).trusted = true →
    applied = (s.engine n).applied ++ (s.shardsLeft n (s.engine n).applied).map (·.num) →
    (s.engine n).vreq = true ∨ s.devNum ≠ s.chart.stepRoot →
    ∃ t, exec (.updateApplyComplete n) s = .next t ∧ (t.engine n).applied = applied ∧
      t.fld (F.UPD_STAT_STATE n) = (if s.allShards n applied then 5 else 1) ∧ t.fld (F.UPD_STAT_PEND n) = 1 ∧ t.fre = s.fre ∧
      ((s.engine n).vreq = true → t.treeR = s.treeR ∧ t.sent = s.sent) ∧
      ((s.engine n).vreq = false → ∀ x ∈ s.shardsLeft n (s.engine n).applied,
        ((treeOf t.treeR (s.engine n).handled).find x.num).isSome = true)) ∧
  (∀ (s : State) (n : Nat), s.power.on = true → n < 8 → s.fld (F.UPD_STAT_STATE n) = 3 →
    s.chart.usesTrust = false ∨ (s.engine n).trusted = true → (s.engine n).vreq = false → s.devNum = s.chart.stepRoot →
    ∃ t, exec (.updateApplyComplete n) s = .next t ∧ t.fld (F.UPD_STAT_STATE n) ∈ [0, 1, 5])

/-- The scalar trees and the step root. A contribution, a whole report and a whole trust list enter the tree of their step,
which then moves on as far as it can: the root pair gives the norm to the engines, the root's report the outcome, and the root's
trust sums come down to the engines at the barrier (R339, R341, R343, R346, R375); a part that is not the last is kept; what
belongs to a step whose outcome was handled is discarded (R347). An outcome below the first unhandled step is a duplicate and
only counted (R380); another is recorded, counted by its kind, and its acknowledgement waits for the standby (R347, R378, R381,
R47). A veto request for a step whose outcome was issued is late; another issues the veto, or waits for the acknowledgements of
the step before, which keeps the first (R377, R381). -/
def Obligations.OutcomeExchange : Prop :=
  ((∀ (s : State) (step span : Nat) (hi lo : W32) (sat : Bool) (tr : STree), s.power.on = true → s.job.handled ≤ step →
      tr = (treeOf s.treeC step).put span { hi, lo, sat } → s.treeRoot tr = none ∨ tr.sent.contains 0 = true →
      ∃ t, exec (.contrib step span hi lo sat) s = .next t ∧ (treeOf t.treeC step).find span = some { hi, lo, sat } ∧
        t = { s with regs := t.regs, msix := t.msix, treeC := t.treeC, fab := t.fab, sent := t.sent }) ∧
    (∀ (s : State) (step span : Nat) (hi lo : W32) (sat : Bool) (tr : STree) (v : Node), s.power.on = true →
      s.job.handled ≤ step → tr = (treeOf s.treeC step).put span { hi, lo, sat } → s.treeRoot tr = some v →
      tr.sent.contains 0 = false → v.sat = false → (ofFP32 v.hi).isFinite = true →
      ∃ t, exec (.contrib step span hi lo sat) s = .next t ∧
        ∀ n ∈ s.ownEngines, s.fld (F.UPD_STAT_STATE n) = 2 → (s.engine n).held = false →
          t.rd (R.UPD_GNORM n) = fp32Bits ((fsqrt (policyOf s.chart.rnp) (ofFP32 v.hi)).run 0).1) ∧
    (∀ (s : State) (step span : Nat) (hi lo : W32) (sat : Bool), s.power.on = true → step < s.job.handled →
      exec (.contrib step span hi lo sat) s = .next s)) ∧
  ((∀ (s : State) (step span status part : Nat) (ls all : List LayerSums) (rest : STree), s.power.on = true →
      s.job.handled ≤ step → (treeOf s.treeR step).part span part ls = (some all, rest) →
      s.treeRoot (rest.put span { status, layers := all }) = none ∨ rest.sent.contains 0 = true →
      ∃ t, exec (.report step span status part ls) s = .next t ∧
        (treeOf t.treeR step).find span = some { status, layers := all } ∧
        t = { s with regs := t.regs, msix := t.msix, treeR := t.treeR, fab := t.fab, sent := t.sent }) ∧
    (∀ (s : State) (step span status part : Nat) (ls all : List LayerSums) (rest : STree) (v : Node), s.power.on = true →
      s.job.handled ≤ step → (treeOf s.treeR step).part span part ls = (some all, rest) →
      s.treeRoot (rest.put span { status, layers := all }) = some v → rest.sent.contains 0 = false →
      s.issuedStep ≠ some step → s.root.recovery = false → s.root.wait = none → s.allAcked = true →
      ∃ t, exec (.report step span status part ls) s = .next t ∧
        t.root.issued = some (step, b2n (v.status != 0), if v.status = 0 then 0 else 3) ∧ t.job.handled = step + 1) ∧
    (∀ (s : State) (step span status part : Nat) (ls : List LayerSums), s.power.on = true → s.job.handled ≤ step →
      part.testBit 7 = false → exec (.report step span status part ls) s =
        .next { s with treeR := putTree s.treeR step ((treeOf s.treeR step).part span part ls).2 }) ∧
    (∀ (s : State) (step span status part : Nat) (ls : List LayerSums), s.power.on = true → step < s.job.handled →
      exec (.report step span status part ls) s = .next s)) ∧
  ((∀ (s : State) (step span part : Nat) (ls all : List LayerSums) (rest : STree), s.power.on = true →
      s.job.handled ≤ step → (treeOf s.treeT step).part span part ls = (some all, rest) →
      s.treeRoot (rest.put span { layers := all }) = none ∨ rest.sent.contains 0 = true →
      ∃ t, exec (.trust step false span part ls) s = .next t ∧ (treeOf t.treeT step).find span = some { layers := all } ∧
        t = { s with regs := t.regs, msix := t.msix, treeT := t.treeT, fab := t.fab, sent := t.sent }) ∧
    (∀ (s : State) (step span part : Nat) (ls all : List LayerSums) (rest : STree), s.power.on = true →
      s.job.handled ≤ step → (treeOf s.treeT step).part (2 ^ 32) part ls = (some all, rest) →
      ∃ t, exec (.trust step true span part ls) s = .next t ∧
        ∀ n ∈ s.ownEngines, s.fld (F.UPD_STAT_STATE n) = 4 → (s.engine n).handled = step →
          (t.engine n).trusted = true ∧ (t.engine n).trust = all ∧ t.fld (F.UPD_STAT_STATE n) = 3) ∧
    (∀ (s : State) (step span part : Nat) (down : Bool) (ls : List LayerSums), s.power.on = true → s.job.handled ≤ step →
      part.testBit 7 = false → exec (.trust step down span part ls) s =
        .next { s with treeT := putTree s.treeT step ((treeOf s.treeT step).part (if down then 2 ^ 32 else span) part ls).2 }) ∧
    (∀ (s : State) (step span part : Nat) (down : Bool) (ls : List LayerSums), s.power.on = true → step < s.job.handled →
      exec (.trust step down span part ls) s = .next s)) ∧
  ((∀ (s : State) (step cause : Nat) (veto : Bool) (rs : List W32), s.power.on = true → s.job.handled ≤ step → cause < 16 →
      ∃ t, exec (.outcome step veto cause rs) s = .next t ∧
        t.rd R.FRE_OUTCOME = BitVec.ofNat 32 (2 ^ 31 + b2n veto * 2 ^ 30 + cause) ∧
        t.pair F.FRE_OUTSTEP_LO_STEP F.FRE_OUTSTEP_HI_STEP = step % 2 ^ 64 ∧ t.job.handled = step + 1 ∧
        t.job.outKind = b2n veto ∧ t.ens.ackDue = s.ens.ackDue ++ [(step, b2n veto)] ∧
        (∀ e ∈ t.treeC, step < e.1) ∧ (∀ e ∈ t.treeR, step < e.1) ∧ (∀ e ∈ t.treeT, step < e.1) ∧
        (∀ n ∈ s.ownEngines, t.engine n = { handled := step + 1 } ∧ t.fld (F.UPD_STAT_STATE n) = 0 ∧
          t.fld (F.UPD_STAT_PEND n) = 0) ∧
        t.fld F.FRE_CNT_COMMIT_COUNT = satAdd 32 (s.fld F.FRE_CNT_COMMIT_COUNT) (1 - b2n veto) ∧
        t.fld F.FRE_CNT_VETO_COUNT = satAdd 32 (s.fld F.FRE_CNT_VETO_COUNT) (b2n veto)) ∧
    (∀ (s : State) (step cause : Nat) (veto : Bool) (rs : List W32), s.power.on = true → step < s.job.handled →
      ∃ t, exec (.outcome step veto cause rs) s = .next t ∧
        Changes s t [(F.FRE_CNT_DUP_COUNT, satAdd 32 (s.fld F.FRE_CNT_DUP_COUNT) 1)])) ∧
  ((∀ (s : State) (step cause shard source : Nat), s.power.on = true → (∀ u, s.issuedStep = some u → u < step) →
      s.root.recovery = false → s.root.wait = none → s.allAcked = true →
      ∃ t, exec (.vreq step cause shard source) s = .next t ∧ t.root.issued = some (step, b2n (cause != 0), cause) ∧
        t.root.acks = [] ∧
        (cause = 1 → t.fld F.FRE_VETOSRC_DEV = source % 2 ^ 16 ∧ t.fld F.FRE_VETOSHARD_SHARD = shard % 2 ^ 32) ∧
        (s.job.handled ≤ step → t.job.handled = step + 1)) ∧
    (∀ (s : State) (step cause shard source : Nat), s.power.on = true → (∀ u, s.issuedStep = some u → u < step) →
      s.root.recovery = false → s.root.wait = none → s.allAcked = false → exec (.vreq step cause shard source) s =
        .next { s with root := { s.root with wait := some { step, cause, dev := source, shard } } }) ∧
    (∀ (s : State) (step cause shard source : Nat), s.power.on = true → (∀ u, s.issuedStep = some u → u < step) →
      s.root.recovery = true ∨ s.root.wait.isSome = true → exec (.vreq step cause shard source) s = .next s) ∧
    (∀ (s : State) (step cause shard source u : Nat), s.power.on = true → s.issuedStep = some u → step ≤ u →
      ∃ t, exec (.vreq step cause shard source) s = .next t ∧
        Changes s t [(F.FRE_CNT_LATE_COUNT, satAdd 32 (s.fld F.FRE_CNT_LATE_COUNT) 1), (F.FRE_EVT_LATE, 1)])) ∧
  (∀ (s : State) (step source : Nat), s.power.on = true → s.issuedStep = some step →
    (∃ d ∈ s.chart.devices, d.device ≠ source ∧ d.device ∉ s.root.acks) ∨ s.root.wait = none →
    exec (.ack step source) s = .next { s with root := { s.root with acks := (source :: s.root.acks).eraseDups } }) ∧
  ∀ (s : State) (step source : Nat) (w : Waiting), s.power.on = true → s.issuedStep = some step →
    (∀ d ∈ s.chart.devices, d.device = source ∨ d.device ∈ s.root.acks) → s.root.wait = some w → w.cause ≠ 0 →
    w.step ≠ step → s.root.recovery = false →
    ∃ t, exec (.ack step source) s = .next t ∧ t.root.issued = some (w.step, 1, w.cause) ∧ t.root.wait = none ∧ t.root.acks = []

/-- What arrives for the next step. A parameter message's value goes into the copy that takes its step's values, waits for the
swap where no array holds it, and changes nothing where its return has come already (R380, R383). READY is compared with the
loaded charter, at the step root with its own and elsewhere with the root's: the last one that matches completes the exchange,
and after one that does not, whose device HUB_CHMISDEV names, nothing starts (R408, R415). Parameter messages between ROLLBACK
and RESUME are discarded (R592). An activation message that its region
holds joins its queue in order and stands there, one of the running item is loaded at once, and all are discarded while
a rollback runs (R38, R410, R591); a credit that comes back is held where no message waits, and otherwise lets one go (R411).
Where loaded bytes lie is the model's choice (log 18). -/
def Obligations.StepInputs : Prop :=
  (∀ (s : State) (p : List Byte), s.power.on = true → s.job.rolling.isSome = true → exec (.parameterMessage p) s = .next s) ∧
  (∀ (s : State) (p : List Byte), s.power.on = true → s.job.rolling = none → ∃ t, exec (.parameterMessage p) s = .next t ∧
    t.job = { s.job with arrived := t.job.arrived, memNew := t.job.memNew } ∧ t.engines = s.engines ∧ t.sent = s.sent) ∧
  (∀ (s : State) (p : List Byte) (pl : Placement) (step param b : Nat), s.power.on = true → s.job.rolling = none → leAt p 16 2 = 0 →
    step = leAt p 0 8 → param = (s.chart.shards.getD (leAt p 8 4) {}).first + leAt p 12 4 →
    s.chart.arrays.find? (fun q => q.stage == s.stage && decide (q.pbase ≤ param) && decide (param < q.pbase + q.rows * q.cols)) =
      some pl → b = s.targetBank pl.tile pl.array step →
    (s.copyTakes pl b step = false → exec (.parameterMessage p) s = .next s) ∧
    (s.copyTakes pl b step = true → (s.arr pl.tile pl.array).startup = false → ∃ t, exec (.parameterMessage p) s = .next t ∧
      (∀ a, s.weightAddr b pl param = some a → t.memBytes a 2 = leBytes 2 (leAt p 32 2)) ∧
      (pl.rows * pl.cols ≤ lookup (fun _ => 0) s.job.arrived (8 * pl.tile + pl.array) + 1 → b < 2 →
        ((t.arr pl.tile pl.array).bank b).copied = true ∧ ((t.arr pl.tile pl.array).bank b).awaited = false ∧
        ((t.arr pl.tile pl.array).bank b).version = step % 2 ^ 32))) ∧
  (∀ (s : State) (p : List Byte) (step param : Nat), s.power.on = true → s.job.rolling = none → leAt p 16 2 = 0 →
    step = leAt p 0 8 → param = (s.chart.shards.getD (leAt p 8 4) {}).first + leAt p 12 4 →
    s.chart.arrays.find? (fun q => q.stage == s.stage && decide (q.pbase ≤ param) && decide (param < q.pbase + q.rows * q.cols)) =
      none → (if s.job.running then s.job.first else s.step) < (step + 1) % 2 ^ 64 →
    ∃ t, exec (.parameterMessage p) s = .next t ∧ t.mem = s.mem ∧ t.arrs = s.arrs ∧
      lookup (fun _ => none) t.job.memNew (2 ^ 48 * (step % 2) + param) = some (BitVec.ofNat 16 (leAt p 32 2))) ∧
  (∀ (s : State) (id : W64) (crc : W32) (source : Nat), s.power.on = true → s.fld F.HUB_CHSTAT_STATE = 2 →
    s.devNum ≠ s.chart.stepRoot →
    (source ≠ s.chart.stepRoot ∨ id.toNat ≠ s.chart.id ∨ crc ≠ s.chart.crc → exec (.ready id crc source) s = .next s) ∧
    (source = s.chart.stepRoot → id.toNat = s.chart.id → crc = s.chart.crc →
      ∃ t, exec (.ready id crc source) s = .next t ∧ t.root.started = true)) ∧
  (∀ (s : State) (id : W64) (crc : W32) (source : Nat), s.power.on = true → s.fld F.HUB_CHSTAT_STATE = 2 →
    s.devNum = s.chart.stepRoot → s.root.started = false → source < 2 ^ 16 → s.chart.id < 2 ^ 64 →
    (id.toNat ≠ s.chart.id ∨ crc ≠ s.chart.crc →
      ∃ t, exec (.ready id crc source) s = .next t ∧ t.fld F.HUB_CHSTAT_MISMATCH = 1 ∧ t.root.started = false ∧
        (s.fld F.HUB_CHSTAT_MISMATCH = 0 → s.root.ready = [] → t.fld F.HUB_CHMISDEV_DEV = source)) ∧
    (id.toNat = s.chart.id → crc = s.chart.crc → s.fld F.HUB_CHSTAT_MISMATCH = 0 →
      (∀ k ∈ s.root.ready, k = readyKey s.chart.id s.chart.crc.toNat (k % 65536)) →
      (∀ d ∈ s.chart.devices, d.device = source ∨ readyKey s.chart.id s.chart.crc.toNat d.device ∈ s.root.ready) →
      ∃ t, exec (.ready id crc source) s = .next t ∧ t.root.started = true)) ∧
  (∀ (s : State) (id : W64) (crc : W32) (source k : Nat), s.power.on = true → s.fld F.HUB_CHSTAT_STATE ≠ 2 →
    k = readyKey id.toNat crc.toNat source → exec (.ready id crc source) s = .next
      { s with root := { s.root with ready := if s.root.ready.contains k then s.root.ready else s.root.ready ++ [k] } }) ∧
  (∀ (s : State) (back : Bool) (mb tensor off : Nat) (bs : List Byte), s.power.on = true → s.job.rolling.isSome = true →
    exec (.activationMessage back mb tensor off bs) s = .next s) ∧
  (∀ (s : State) (back : Bool) (mb tensor off : Nat) (bs : List Byte), s.power.on = true →
    s.feeder back = none ∨ s.roomIn back bs.length = false → exec (.activationMessage back mb tensor off bs) s = .next s) ∧
  (∀ (s : State) (back : Bool) (mb tensor off : Nat) (bs b : List Byte) (g : Region), s.power.on = true → s.job.rolling = none →
    (s.feeder back).isSome = true → s.roomIn back bs.length = true → s.job.item = none ∨ s.itemBack ≠ back ∨ s.itemMb ≠ mb →
    s.region (inboundKind back) 0xFFFF = some g →
    b = ((s.inbound back).flatMap (·.bytes) ++ bs).take (g.length - s.loadedIn back) →
    ∃ t, exec (.activationMessage back mb tensor off bs) s = .next t ∧
      t.inbound back = s.inbound back ++ [({ mb, tensor, off, bytes := bs } : ActMsg)] ∧
      t.memBytes (g.addr + s.loadedIn back) b.length = b ∧
      t.fld F.HUB_QFWD_IN = min t.job.fin.length 0xFFFF ∧ t.fld F.HUB_QBWD_IN = min t.job.bin.length 0xFFFF ∧
      t = { s with regs := t.regs, msix := t.msix, mem := t.mem, job := { s.job with fin := t.job.fin, bin := t.job.bin } }) ∧
  (∀ (s : State) (back : Bool) (mb tensor off : Nat) (bs : List Byte) (g : Region), s.power.on = true → s.job.rolling = none →
    (s.feeder back).isSome = true → s.roomIn back bs.length = true → s.job.item.isSome = true → s.itemBack = back → s.itemMb = mb →
    (∀ m ∈ s.inbound back, m.mb ≠ mb) → s.region (inboundKind back) 0xFFFF = some g →
    s.job.inLoaded + bs.length ≤ g.length →
    ∃ t, exec (.activationMessage back mb tensor off bs) s = .next t ∧
      t.memBytes (g.addr + s.job.inLoaded) bs.length = bs ∧ t.job.inLoaded = s.job.inLoaded + bs.length ∧
      t.inbound back = s.inbound back) ∧
  (∀ (s : State) (back : Bool) (n : Nat), s.power.on = true → s.outbound back = [] →
    ∃ t, exec (.creditReturn back n) s = .next t ∧ t.credit back = s.credit back + n ∧ t.credit (!back) = s.credit (!back) ∧
      Changes { s with job := { s.job with creditF := t.job.creditF, creditB := t.job.creditB } } t
        [(creditFld back, min (s.credit back + n) 0xFFFF)]) ∧
  ∀ (s : State) (back : Bool) (m : ActMsg), s.power.on = true → s.outbound back = [m] → s.nextOut back m = true →
    s.credit back = 0 → s.flag F.FAB_DEVNUM_VALID = true →
    ∃ t u, exec (.creditReturn back 1) s = .next t ∧ t.outbound back = [] ∧ t.credit back = 0 ∧ t.sent = s.sent ++ [u] ∧
      u.dest = m.dest ∧ u.cls = 3 ∧ u.payload = m.payload

/-! ### The fabric -/

/-- Ports and their links (R420 to R429, R451, R454). Four lanes in order, or reversed, bring a port up with its neighbour's
identity, and another order, or fewer lanes than three, leave it untrained, but none does while it is up or dark; a lost lane
leaves three, and the next one takes the port down, untrained where the retrain still ran; the replay buffer is sent again on a
timeout until a frame has been sent 16 times; a port that goes down drops its link state and keeps the lane order.
The sending that takes the port down is the model's reading (log 23); that nothing changes where the event cannot occur
is its choice (log 4). -/
def Obligations.PortLifecycle : Prop :=
  (∀ (s : State) (p : Nat) (x : Training) (c : Instr), s.power.on = true → p < 32 →
    c = .linkTraining p x ∧ s.fld (F.FAB_PSTAT_STATE p) ≤ 1 ∨ c = .trainingRetry p x ∧ s.fld (F.FAB_PSTAT_STATE p) = 1 →
    (∀ rev : Bool, (∀ k < 4, x.lanes.getD k 4 = if rev then 3 - k else k) →
      ∃ t, exec c s = .next t ∧ t.fld (F.FAB_PSTAT_STATE p) = 2 ∧ t.fld (F.FAB_PSTAT_LANES p) = 15 ∧
        t.fld (F.FAB_PSTAT_REV p) = b2n rev ∧ t.fld (F.FAB_PSTAT_NBRV p) = 1 ∧ t.fld (F.FAB_PEVT_UP p) = 1 ∧
        t.pair (F.FAB_PNBR_LO_SERIAL p) (F.FAB_PNBR_HI_SERIAL p) = x.serial % 2 ^ 64 ∧
        t.fld (F.FAB_PNBRDEV_PORT p) = x.port % 32) ∧
    ((∀ k < 4, x.lanes.getD k 4 < 4) → (∃ k < 4, x.lanes.getD k 4 ≠ k) → (∃ k < 4, x.lanes.getD k 4 ≠ 3 - k) →
      ∃ t, exec c s = .next t ∧ Changes s t [(F.FAB_PSTAT_STATE p, 1), (F.FAB_PEVT_MAP p, 1)]) ∧
    ((∀ k < 4, x.lanes.getD k 4 < 4 → x.lanes.getD k 4 = k) → ((List.range 4).filter (fun k => x.lanes.getD k 4 == k)).length < 3 →
      ∃ t, exec c s = .next t ∧ Changes s t [(F.FAB_PSTAT_STATE p, 1)])) ∧
  (∀ (s : State) (p : Nat) (x : Training), 2 ≤ s.fld (F.FAB_PSTAT_STATE p) → exec (.linkTraining p x) s = .next s) ∧
  (∀ (s : State) (p : Nat), s.power.on = true → p < 32 → s.portUp p = true →
    ((∀ f ∈ (s.port p).buf, f.sends < 16) → ∃ t, exec (.retryTimeout p) s = .next t ∧
      (t.port p).buf = (s.port p).buf.map (fun f => { f with sends := f.sends + 1 }) ∧
      (∀ k, k ≠ p → t.port k = s.port k) ∧
      Changes { s with fab := t.fab } t [(F.FAB_PCNT_RETRY_COUNT p, satAdd 32 (s.fld (F.FAB_PCNT_RETRY_COUNT p)) (s.port p).buf.length)]) ∧
    ((∃ f ∈ (s.port p).buf, 16 ≤ f.sends) → ∃ t, exec (.retryTimeout p) s = .next t ∧ t.fld (F.FAB_PEVT_RETRYLIM p) = 1 ∧
      t.fld (F.FAB_PSTAT_STATE p) = 0 ∧ (t.port p).buf = [])) ∧
  (∀ (s : State) (p lane unc : Nat), s.power.on = true → p < 32 → s.portUp p = true →
    (s.fld (F.FAB_PSTAT_LANES p)).testBit lane = true →
    (s.fld (F.FAB_PSTAT_STATE p) = 2 → (∀ f ∈ (s.port p).buf, f.sends < 16) →
      ∃ t, exec (.laneLoss p lane unc) s = .next t ∧ t.fld (F.FAB_PSTAT_STATE p) = 3 ∧
        t.fld (F.FAB_PSTAT_LANES p) = s.fld (F.FAB_PSTAT_LANES p) - 2 ^ lane ∧ t.fld (F.FAB_PEVT_LANELOSS p) = 1 ∧
        t.fld (F.FAB_PCNT_LANELOSS_COUNT p) = satAdd 32 (s.fld (F.FAB_PCNT_LANELOSS_COUNT p)) 1 ∧
        t.fld (F.FAB_PCNT_FECUNC_COUNT p) = satAdd 32 (s.fld (F.FAB_PCNT_FECUNC_COUNT p)) unc ∧
        t.fld F.RST_FLTCLS_CLASS = 1 ∧ t.fld F.RST_FLTCLS_UKIND = 3 ∧ t.fld F.RST_FLTCLS_UNIT = p) ∧
    (s.fld (F.FAB_PSTAT_STATE p) = 3 → ∃ t, exec (.laneLoss p lane unc) s = .next t ∧
      t.fld (F.FAB_PSTAT_STATE p) = b2n (s.retraining p) ∧ t.fld (F.FAB_PEVT_LANELOSS p) = 1 ∧ t.fld (F.FAB_PEVT_DOWN p) = 1)) ∧
  (∀ (s : State) (p next : Nat) (c : Instr), p < 32 → s.portUp p = true →
    c = .portDown p ∧ next = 0 ∧ s.power.on = true ∨ c = .retrain p ∧ next = 1 ∧ Reach s (R.FAB_PCTRL p) ∨
      c = .portEnableWrite p false ∧ next = 4 ∧ Reach s (R.FAB_PCTRL p) →
    ∃ t, exec c s = .next t ∧ t.fld (F.FAB_PSTAT_STATE p) = next ∧ t.fld (F.FAB_PSTAT_LANES p) = 0 ∧
      t.fld (F.FAB_PSTAT_NBRV p) = 0 ∧ t.fld (F.FAB_PSTAT_REV p) = s.fld (F.FAB_PSTAT_REV p) ∧
      t.fld (F.FAB_PSTAT_POLINV p) = s.fld (F.FAB_PSTAT_POLINV p) ∧ t.fld (F.FAB_PEVT_DOWN p) = 1 ∧
      t.fld (F.FAB_PCNT_DOWN_COUNT p) = satAdd 32 (s.fld (F.FAB_PCNT_DOWN_COUNT p)) 1 ∧
      t.port p = { whole := (s.port p).whole } ∧ (next = 4 → t.fld (F.FAB_PCTRL_ENABLE p) = 0)) ∧
  (∀ (s : State) (p : Nat), Reach s (R.FAB_PCTRL p) → p < 32 → s.portUp p = false →
    exec (.retrain p) s = .next s ∧
    (∃ t, exec (.portEnableWrite p false) s = .next t ∧ t.fld (F.FAB_PSTAT_STATE p) = 4 ∧ t.fld (F.FAB_PCTRL_ENABLE p) = 0) ∧
    ∃ t, exec (.portEnableWrite p true) s = .next t ∧ t.fld (F.FAB_PCTRL_ENABLE p) = 1 ∧
      t.fld (F.FAB_PSTAT_STATE p) = (if s.fld (F.FAB_PSTAT_STATE p) = 4 then 0 else s.fld (F.FAB_PSTAT_STATE p)) ∧
      t.fld (F.FAB_PSTAT_REV p) = s.fld (F.FAB_PSTAT_REV p))

/-- Link frames and messages (R423, R424, R426, R433, R437, R441, R444). A frame that fails its checks, its length among
them, is counted and asked for again; a good one in turn is taken and acknowledged, and completes its message with its last flag. A whole message is dropped with a fault
where its header fails, is delivered in its flow's turn where it is for this device, and leaves with one hop less where it is
for another. A gap of a flow, or a message without a port, that waits too long raises its bit and a fabric fault.
What a frame's fields mean at their corners is the model's reading (log 23); that nothing changes where the event cannot
occur is its choice (log 4). -/
def Obligations.FramesAndMessages : Prop :=
  (∀ (s : State) (p : Nat) (b : List Byte) (n : Nat), s.power.on = true → Unarmed s → p < 32 → s.portUp p = true →
    n = b.length - 4 →
    (b.length < 12 ∨ leAt b n 4 ≠ (crc32c (b.take n)).toNat ∨ frameLength b n = false ∨
        leAt b 5 1 / 8 % 2 = 0 ∧ leAt b 0 2 ≠ (s.port p).rxSeq →
      ∃ t, exec (.linkFrame p b) s = .next t ∧ t.port p = { s.port p with nak := some (s.port p).rxSeq } ∧
        t.fab.wire = s.fab.wire ++ [(p, frameBytes (s.port p).txSeq (((s.port p).rxSeq + 65535) % 65536) 0 0xC [])] ∧
        Changes { s with fab := t.fab } t [(F.FAB_PCNT_CRC_COUNT p, satAdd 32 (s.fld (F.FAB_PCNT_CRC_COUNT p)) 1)]) ∧
    (12 ≤ b.length → leAt b n 4 = (crc32c (b.take n)).toNat → frameLength b n = true → leAt b 5 1 / 8 % 2 = 0 →
        leAt b 5 1 / 4 % 2 = 0 → (s.port p).queue = [] → leAt b 0 2 = (s.port p).rxSeq → (∀ f ∈ (s.port p).buf, f.seq ≠ leAt b 2 2) →
      ∃ t, exec (.linkFrame p b) s = .next t ∧ (t.port p).rxSeq = ((s.port p).rxSeq + 1) % 65536 ∧ (t.port p).nak = none ∧
        t.fab.wire = s.fab.wire ++ [(p, frameBytes (s.port p).txSeq ((s.port p).rxSeq % 65536) 0 8 [])] ∧
        (t.port p).buf = (s.port p).buf ∧ (leAt b 5 1 / 2 % 2 = 0 → (t.port p).whole = (s.port p).whole) ∧
        (leAt b 5 1 % 4 = 3 → (t.port p).whole = (s.port p).whole ++ [slice b 8 (n - 8)])) ∧
    (∀ i, 12 ≤ b.length → leAt b n 4 = (crc32c (b.take n)).toNat → frameLength b n = true → leAt b 5 1 / 8 % 2 = 1 → leAt b 5 1 / 4 % 2 = 0 →
        (s.port p).queue = [] → (s.port p).buf.findIdx? (fun f => f.seq == leAt b 2 2) = some i →
      ∃ t, exec (.linkFrame p b) s = .next t ∧ (t.port p).buf = (s.port p).buf.drop (i + 1) ∧
        (t.port p).rxSeq = (s.port p).rxSeq ∧ t = { s with fab := t.fab })) ∧
  (∀ (s : State) (p : Nat) (b : List Byte) (bs : List (List Byte)) (m : Msg), s.power.on = true → Unarmed s →
    p < 32 → (s.port p).whole = b :: bs → m = msgOf b (slice b 32 (leAt b 20 4)) →
    (leAt b 28 4 ≠ (crc32c (b.take 28)).toNat →
      ∃ t, exec (.fabricMessage p) s = .next t ∧ t.fld F.RST_FLTCLS_CLASS = 0x14 ∧ (t.port p).whole = bs ∧
        (s.job.running = false ∨ s.chart.stepRoot ≠ s.devNum → t.fab.delivered = s.fab.delivered ∧ t.fab.rx = s.fab.rx)) ∧
    (leAt b 28 4 = (crc32c (b.take 28)).toNat → m.cls < 5 → m.linkLocal = false → s.flag F.FAB_DEVNUM_VALID = true → m.dest = s.devNum →
        leAt b (32 + m.payload.length) 4 = (crc32c m.payload).toNat → s.fab.held = [] → s.job.rolling = none →
        m.flow = lookup (fun _ => 0) s.fab.rx (8 * m.src + m.cls) →
      ∃ t, exec (.fabricMessage p) s = .next t ∧ (t.port p).whole = bs ∧ t.fab.delivered = s.fab.delivered ++ [m] ∧
        lookup (fun _ => 0) t.fab.rx (8 * m.src + m.cls) = (m.flow + 1) % 2 ^ 32) ∧
    (leAt b 28 4 = (crc32c (b.take 28)).toNat → m.cls < 5 → m.linkLocal = false → s.flag F.FAB_DEVNUM_VALID = true → m.dest ≠ s.devNum →
      (m.hops = 0 → ∃ t, exec (.fabricMessage p) s = .next t ∧ t.fld F.FAB_EVT_HOPS = 1 ∧
        t.fld F.FAB_CNT_HOPDROP_COUNT = satAdd 32 (s.fld F.FAB_CNT_HOPDROP_COUNT) 1 ∧ t.fld F.RST_FLTCLS_CLASS = 0x14) ∧
      (∀ out : Msg, m.hops ≠ 0 → out = { m with hops := m.hops - 1 } →
        ∃ t, exec (.fabricMessage p) s = .next t ∧ t.fab.delivered = s.fab.delivered ∧ t.sent = s.sent ∧
          (s.route out false = none → t.fab.wait = s.fab.wait ++ [out]) ∧
          (∀ q, s.route out false = some q → t.fab.wait = s.fab.wait ∧ (t.port q).msgs = (s.port q).msgs ++ [out] ∧
            (t.port q).buf.length + (t.port q).queue.length =
              (s.port q).buf.length + (s.port q).queue.length + (framesOf out (s.memberPhase out)).length)))) ∧
  (∀ (s : State) (src cls : Nat), s.power.on = true →
    (s.fab.held.find? (fun m => m.src == src && m.cls == cls) = none → exec (.flowGapTimeout src cls) s = .next s) ∧
    ((s.fab.held.find? (fun m => m.src == src && m.cls == cls)).isSome = true →
      ∃ t, exec (.flowGapTimeout src cls) s = .next t ∧ t.fld F.FAB_EVT_GAP = 1 ∧ t.fld F.RST_FLTCLS_CLASS = 0x14 ∧
        t.fab.held = s.fab.held)) ∧
  ∀ s : State, s.power.on = true → (s.fab.wait = [] → exec .unreachableTimeout s = .next s) ∧
    (s.fab.wait ≠ [] → ∃ t more, exec .unreachableTimeout s = .next t ∧ t.fld F.FAB_EVT_UNREACH = 1 ∧
      t.fld F.RST_FLTCLS_CLASS = 0x14 ∧ t.fab.wait = s.fab.wait ++ more)

/-- Discovery and the tables (R445 to R449, R451 to R453). A discovery elects the lowest nominee, or else the lowest
serial, takes the table of the root, forgets the flows, and counts an epoch at the root; a loaded charter refuses the host's; an announcement that is new
joins the graph; a table set switches in number, epoch and tables, and the ports that it names may carry traffic; the root drops a lost link from its graph.
That a discovery clears the number is the model's reading (log 23); that nothing changes where the event cannot occur is
its choice (log 4). -/
def Obligations.DiscoveryAndTables : Prop :=
  (∀ (s : State) (others : List (Nat × GraphNode)) (g : List GraphNode) (root : Nat) (c : Instr), s.sec.bootLoad = false →
    c = .discovery others ∧ s.power.on = true ∨
      c = .dctrlStart others ∧ Reach s R.FAB_DCTRL ∧ s.fld F.HUB_CHSTAT_STATE ≠ 2 →
    g = s.announcement s.nominee :: (others.filter (fun v => v.2.serial != mySerial)).map (·.2) →
    root = (least (g.filterMap (·.nominee))).getD ((least (g.map (·.serial))).getD 0) →
    ∃ t, exec c s = .next t ∧ t.pair F.FAB_ROOT_LO_SERIAL F.FAB_ROOT_HI_SERIAL = root % 2 ^ 64 ∧ t.fab.graph = g ∧
      t.fab.held = [] ∧ t.fab.table = ((g.find? (fun v => v.nominee == some root)).map (·.table)).getD [] ∧
      t.fld F.FAB_EPOCH_EPOCH = (s.fld F.FAB_EPOCH_EPOCH + b2n (decide (root = mySerial))) % 2 ^ 32 ∧
      (root ≠ mySerial → t.rd R.FAB_DEVNUM = 0 ∧ t.fab.rx = [] ∧ t.fab.tx = [])) ∧
  (∀ (s : State) (others : List (Nat × GraphNode)), Reach s R.FAB_DCTRL → s.fld F.HUB_CHSTAT_STATE = 2 →
    ∃ t, exec (.dctrlStart others) s = .next t ∧ Changes s t [(F.FAB_EVT_DREFUSE, 1)]) ∧
  (∀ (s : State) (p : Nat) (n : GraphNode), s.power.on = true →
    (s.portUp p = false ∨ n ∈ s.fab.graph ∨ n.serial = mySerial → exec (.discoveryAnnouncement p n) s = .next s) ∧
    (s.portUp p = true → n ∉ s.fab.graph → n.serial ≠ mySerial →
      ∃ t, exec (.discoveryAnnouncement p n) s = .next t ∧ t.fab.graph = putNode s.fab.graph n)) ∧
  (∀ (s : State) (root num : W16) (epoch : W32) (grp mem : List W32), s.power.on = true → s.sec.bootLoad = false →
    ∃ t, exec (.tableSet root num epoch grp mem) s = .next t ∧
      t.rd R.FAB_DEVNUM = BitVec.ofNat 32 (2 ^ 31 + num.toNat) ∧ t.rd R.FAB_EPOCH = epoch ∧ t.fab.rootDev = root.toNat ∧
      (∀ p < 32, s.portUp p = true →
        (t.port p).joined = ((s.port p).joined || (grp ++ mem).any (fun w => (entryPorts w).contains p))) ∧
      (∀ k < 256, t.rd (R.FAB_GRPTBL k) = grp.getD k 0 &&& 0xFFFFFF ∧ t.rd (R.FAB_MEMTBL k) = mem.getD k 0 &&& 0xFFFFFF) ∧
      t.fld F.FAB_EVT_TABLE = 1 ∧ t.fld F.FAB_CNT_TABLE_COUNT = satAdd 32 (s.fld F.FAB_CNT_TABLE_COUNT) 1) ∧
  ∀ (s : State) (serial : W64) (port : Nat), s.power.on = true →
    (s.isRoot = false → exec (.portLossReport serial port) s = .next s) ∧
    (s.isRoot = true → ∃ t, exec (.portLossReport serial port) s = .next t ∧ t.fab.graph.length = s.fab.graph.length ∧
      ∀ v ∈ t.fab.graph, v.serial = serial.toNat → ∀ l ∈ v.links, l.1 ≠ port)

/-! ### Faults, rollback and halts -/

/-- Rollback and halt (R587 to R596). A halt, ordered or by a FAULT that asks for one, an unanswered rollback or an unanswered
FAULT, ends the job with RST_STAT.STATE at 0x6, its context halted and a dump captured or held, device memory as it was; these
events change nothing where they cannot occur; a FAULT is sent at most three times; the step root orders a rollback to its last
issued outcome; ROLLBACK discards what is later, restores the step and starts the flush; FLUSHCNT and RBACK are kept until they
are complete; RESUME ends the rollback; with both Stewards down nobody directs a recovery (R43); OREQ is answered with the issued outcome.
That they change nothing there is the model's choice (log 4). -/
def Obligations.RollbackAndHalt : Prop :=
  (∀ (s : State) (c : Instr), s.power.on = true → s.job.running = true → s.job.halted = false → s.job.ctx < 16 →
    c = .halt ∨ (c = .rbackTimeout ∧ s.root.recovery = true ∧
        ∃ d ∈ s.chart.devices, ∀ r ∈ s.root.rbacks, r.1 ≠ d.device) ∨
      (c = .faultResendTimeout ∧ s.ens.up ≠ 0 ∧ s.job.fault.isSome = true ∧ 3 ≤ s.job.faultSends) ∨
      (∃ cls h src, c = .fault cls h src ∧ s.ens.up ≠ 0 ∧ s.devNum = s.chart.stepRoot ∧ (h = true ∨ cls = 0x16 ∨ cls = 0x18)) →
    ∃ t, exec c s = .next t ∧ t.job.running = false ∧ t.job.halted = true ∧ t.job.item = none ∧ t.job.left = [] ∧
      t.fld F.RST_STAT_STATE = 6 ∧ t.fld F.RST_EVT_HALT = 1 ∧ t.fld (F.CTX_STAT_STATE s.job.ctx) = 4 ∧
      1 ≤ t.fld F.RST_DUMPSTAT_STATE ∧ t.fld F.RST_DUMPSTAT_STATE ≤ 3 ∧ t.mem = s.mem) ∧
  (∀ (s : State) (c : Instr), (c = .halt ∧ (s.job.running = false ∨ s.job.halted = true)) ∨
      (c = .rbackTimeout ∧ s.root.recovery = false) ∨ (c = .faultResendTimeout ∧ (s.job.fault = none ∨ s.ens.up = 0)) ∨
      (∃ cls h src, c = .fault cls h src ∧ (s.job.running = false ∨ s.devNum ≠ s.chart.stepRoot ∨ s.ens.up = 0)) ∨
      (∃ o n, c = .rollback o n ∧ (s.job.running = false ∨ s.ens.up = 0)) ∨ (∃ src a b d, c = .flushcnt src a b d ∧ s.job.running = false) ∨
      (∃ src l a b, c = .rback src l a b ∧ s.root.recovery = false) ∨ (c = .resume ∧ (s.job.rolling = none ∨ s.ens.up = 0)) ∨
      (∃ o src, c = .oreq o src ∧ s.root.issued = none) → exec c s = .next s) ∧
  (∀ (s : State) (cls : Nat) (h : Bool), s.power.on = true → s.ens.up ≠ 0 → s.job.fault = some (cls, h) → s.job.faultSends < 3 →
    ∃ t, exec .faultResendTimeout s = .next t ∧ t.job = { s.job with faultSends := s.job.faultSends + 1 }) ∧
  (∀ (s : State) (cls src next : Nat), s.power.on = true → s.ens.up ≠ 0 → s.job.running = true → s.devNum = s.chart.stepRoot →
    cls ≠ 0x16 → cls ≠ 0x18 → next = (s.root.issued.map (fun i => i.1 + 1)).getD s.job.first →
    ∃ t, exec (.fault cls false src) s = .next t ∧ t.root.recovery = true ∧ t.root.recov = s.root.recov + 1 ∧
      t.root.rbacks = [] ∧ t.root.cause = (cls, src) ∧ t.job.rolling = some next ∧ t.fld F.RST_STAT_STATE = 4 ∧
      t.fld F.RST_EVT_ROLLBACK = 1) ∧
  (∀ (s : State) (o : W64) (recov : Nat), s.power.on = true → s.ens.up ≠ 0 → s.job.running = true →
    ∃ t, exec (.rollback o recov) s = .next t ∧ t.step = (o.toNat + 1) % 2 ^ 64 ∧ t.job.rolling = some t.step ∧
      t.pair F.RST_RBSTEP_LO_STEP F.RST_RBSTEP_HI_STEP = o.toNat ∧ t.fld F.RST_STAT_STATE = 4 ∧ t.fld F.RST_EVT_ROLLBACK = 1 ∧
      t.job.item = none ∧ t.job.left = [] ∧ t.job.nextF = 0 ∧ t.job.nextB = 0 ∧ t.job.stopItems = true ∧
      (∀ x ∈ t.fre.slots, x.step < t.step) ∧ t.treeC = [] ∧ t.treeR = [] ∧ t.treeT = []) ∧
  (∀ (s : State) (src a b d : Nat), s.power.on = true → s.job.running = true → s.job.rolling = none →
    exec (.flushcnt src a b d) s = .next
      { s with job := { s.job with flush := s.job.flush.filter (fun q => q.1 != src) ++ [(src, [a, b, d])] } }) ∧
  (∀ (s : State) (src a b : Nat) (l : Bool), s.power.on = true → s.root.recovery = true →
    (∃ d ∈ s.chart.devices, d.device ≠ src ∧ ∀ r ∈ s.root.rbacks, r.1 ≠ d.device) →
    exec (.rback src l a b) s = .next
      { s with root := { s.root with rbacks := s.root.rbacks.filter (fun r => r.1 != src) ++ [(src, l, a, b)] } }) ∧
  (∀ (s : State) (next : Nat), s.power.on = true → s.ens.up ≠ 0 → s.job.rolling = some next →
    ∃ t, exec .resume s = .next t ∧ t.job.rolling = none ∧ t.job.stopItems = false ∧ t.job.flush = [] ∧
      (s.fld F.RST_STAT_STATE ≠ 6 → t.fld F.RST_STAT_STATE = if s.arrs.any (fun e => e.2.reverify) then 3 else 0)) ∧
  ∀ (s : State) (o : W64) (src out cause : Nat), s.power.on = true → s.root.issued = some (o.toNat, out, cause) →
    (s.flag F.FAB_DEVNUM_VALID = false → exec (.oreq o src) s = .next s) ∧
    (s.flag F.FAB_DEVNUM_VALID = true → ∃ t m, exec (.oreq o src) s = .next t ∧ t.sent = s.sent ++ [m] ∧ m.dest = src ∧
      m.cls = 0 ∧ m.payload = ctrlFrame 0x06 o.toNat (outcomeBytes out cause s.root.ratios) ∧ t.job = s.job ∧
      t.root = s.root ∧ t.mem = s.mem)

/-! ### Hangs and Stewards -/

/-- Hangs and suspects (R603 to R606). A hang is recorded, counted and dumped, its host commands are held, and its contexts
become suspect; each replay takes the lowest context whose commands are held, which returns to the state it had, unless the
job in it is a suspect itself, or is terminated where it hangs again.
Stewards and the token (R41, R44, R46, R47, R607 to R611). The standby's loss is counted; the ensign's gives the token to the
other half under the next epoch; a Steward that comes back is the standby, or takes the token where both were lost; a record
that has changed is sent to a standby that is up, and its confirmation frees the acknowledgements of the steps that it
includes; an action of a half without the token, or under another epoch, is a conflict and changes nothing else.
What an ensign without a standby does is the model's reading (log 27), and that nothing changes where the event cannot
occur is its choice (log 4). -/
def Obligations.HangsAndStewards : Prop :=
  ((∀ (s : State) (ukind unit : Nat) (hung others : List (Nat × TileCmd)), s.power.on = true →
      ∃ t, exec (.watchdogExpiry ukind unit hung others) s = .next t ∧ t.fld F.RST_EVT_HANG = 1 ∧
        t.fld F.RST_CNT_HANG_COUNT = satAdd 32 (s.fld F.RST_CNT_HANG_COUNT) 1 ∧
        1 ≤ t.fld F.RST_DUMPSTAT_STATE ∧ t.fld F.RST_DUMPSTAT_STATE ≤ 3 ∧
        t.hang.held = s.hang.held ++ ((hung ++ others).filter (fun q => accKind q.2.acc == 0)).map
          (fun q => (accCtx q.2.acc, q.1, q.2)) ∧
        ∀ c ∈ hostContexts hung, c ∈ t.hang.hosts ∧ t.fld (F.CTX_STAT_STATE c) = 3 ∧
          (t.fld F.RST_STAT_SUSPECT).testBit c = true ∧ t.fld F.RST_STAT_STATE = 5) ∧
    (∀ (s : State) (hangs : Bool), s.hang.hosts = [] → exec (.suspectReplay hangs) s = .next s) ∧
    (∀ (s : State) (c : Nat), c < 16 → c ∈ s.hang.hosts → (∀ k ∈ s.hang.hosts, c ≤ k) → (∀ h ∈ s.hang.held, h.1 ≠ c) →
      exec (.suspectReplay true) s = .next s) ∧
    ∀ (s : State) (c : Nat) (hangs : Bool), s.power.on = true → c < 16 → c ∈ s.hang.hosts → (∀ k ∈ s.hang.hosts, c ≤ k) →
      hangs = false ∨ (∃ h ∈ s.hang.held, h.1 = c) →
      ∃ t, exec (.suspectReplay hangs) s = .next t ∧ t.hang.hosts = s.hang.hosts.filter (· != c) ∧
        t.fld F.RST_CNT_REPLAY_COUNT = satAdd 32 (s.fld F.RST_CNT_REPLAY_COUNT) 1 ∧ (∀ h ∈ t.hang.held, h.1 ≠ c) ∧
        (hangs = false → s.job.suspect = false ∨ s.job.ctx ≠ c → (t.fld F.RST_STAT_SUSPECT).testBit c = false ∧
          t.fld (F.CTX_STAT_STATE c) = lookup (fun _ => 0) s.hang.before c % 16) ∧
        (hangs = true → t.fld F.RST_EVT_HANG = 1 ∧ (t.fld F.RST_STAT_SUSPECT).testBit c = false ∧ t.fld (F.CTX_STAT_STATE c) = 4 ∧
          (t.halyard c).dead = true ∧ t.fld F.RST_CNT_TERM_COUNT = satAdd 32 (s.fld F.RST_CNT_TERM_COUNT) 1)) ∧
  ((∀ (s : State) (half : Nat), s.power.on = true → s.ens.up.testBit (half % 2) = false →
      exec (.stewardHeartbeatTimeout half) s = .next s) ∧
    (∀ (s : State) (half : Nat), s.power.on = true → s.ens.up = 3 →
      ∃ t, exec (.stewardHeartbeatTimeout half) s = .next t ∧ t.ens.up = 3 - 2 ^ (half % 2) ∧
        t.ens.standby = none ∧ t.ens.sentRec = none ∧
        t.fld F.RST_CNT_STEWARD_COUNT = satAdd 32 (s.fld F.RST_CNT_STEWARD_COUNT) 1 ∧ t.fld F.RST_FLTCLS_CLASS = 0x17 ∧
        t.fld F.RST_FLTCLS_UNIT = half % 2 ∧
        (half % 2 = s.ens.half → t.ens.half = 1 - half % 2 ∧ t.ens.epoch = (s.ens.epoch + 1) % 2 ^ 32 ∧
          t.fld F.HUB_EPOCH_EPOCH = t.ens.epoch) ∧
        (half % 2 ≠ s.ens.half → t.ens.half = s.ens.half ∧ t.ens.epoch = s.ens.epoch) ∧ t.job = s.job ∧ t.mem = s.mem) ∧
    (∀ (s : State) (half : Nat), s.power.on = true → s.ens.up = 2 ^ (half % 2) →
      ∃ t, exec (.stewardHeartbeatTimeout half) s = .next t ∧ t.ens.up = 0 ∧ t.fld F.RST_EVT_CRST = 1 ∧
        t.fld F.RST_CNT_CRST_COUNT = satAdd 32 (s.fld F.RST_CNT_CRST_COUNT) 1 ∧ t.mem = s.mem) ∧
    (∀ (s : State) (half : Nat), s.power.on = true → s.sec.bootLoad = false → s.ens.up.testBit (half % 2) = false →
      ∃ t, exec (.stewardRestartComplete half) s = .next t ∧ t.ens.up = s.ens.up + 2 ^ (half % 2) ∧ t.ens.standby = none ∧
        (s.ens.up ≠ 0 → t.ens.half = s.ens.half ∧ t.ens.epoch = s.ens.epoch ∧ t.ens.sentRec = some s.record) ∧
        (s.ens.up = 0 → t.ens.half = half % 2 ∧ t.ens.epoch = (s.ens.epoch + 1) % 2 ^ 32 ∧ t.ens.sentRec = none ∧
          (s.job.running = true → s.job.fault = none → t.job.stopItems = true ∧ t.job.fault = some (0x17, false)) ∧
          (s.job.fault.isSome = true → t.job = s.job))) ∧
    (∀ s : State, s.power.on = true →
      (s.ens.up = 3 → s.ens.sentRec.or s.ens.standby ≠ some s.record →
        exec .stateRecord s = .next { s with ens := { s.ens with sentRec := some s.record } }) ∧
      (s.ens.up ≠ 3 ∨ s.ens.sentRec.or s.ens.standby = some s.record → exec .stateRecord s = .next s)) ∧
    (∀ s : State, s.power.on = true → (s.ens.up = 0 ∨ s.ens.up = 3 ∧ s.ens.sentRec = none →
        exec .stateRecordConfirm s = .next s) ∧
      (∀ r, s.ens.up = 3 → s.ens.sentRec = some r → ∃ t ms, exec .stateRecordConfirm s = .next t ∧
        t.ens.standby = some r ∧ t.ens.sentRec = none ∧ t.ens.epoch0 = s.ens.epoch ∧ t.ens.epoch1 = s.ens.epoch ∧
        t.ens.ackDue = s.ens.ackDue.filter (fun a => decide (r.handled ≤ a.1)) ∧ t.sent = s.sent ++ ms ∧
        (∀ m ∈ ms, m.dest = s.chart.stepRoot) ∧ (s.flag F.FAB_DEVNUM_VALID = true →
          ms.length + t.ens.ackDue.length = s.ens.ackDue.length)) ∧
      (s.ens.up ≠ 0 → s.ens.up ≠ 3 → ∃ t, exec .stateRecordConfirm s = .next t ∧ t.ens.ackDue = [])) ∧
    ∀ (s : State) (half : Nat) (epoch : W32), s.power.on = true → Unarmed s →
      (epoch.toNat = s.ens.epoch → half % 2 = s.ens.half → s.ens.up.testBit (half % 2) = true →
        exec (.ensignOnlyAction half epoch) s = .next s) ∧
      (epoch.toNat ≠ s.ens.epoch ∨ half % 2 ≠ s.ens.half ∨ s.ens.up.testBit (half % 2) = false →
        ∃ t, exec (.ensignOnlyAction half epoch) s = .next t ∧ t.fld F.RST_EVT_CONFLICT = 1 ∧
        t.fld F.RST_CNT_CONFLICT_COUNT = satAdd 32 (s.fld F.RST_CNT_CONFLICT_COUNT) 1 ∧ t.fld F.RST_FLTCLS_CLASS = 0x19 ∧
        t.ens.half = s.ens.half ∧ t.ens.epoch = s.ens.epoch ∧
        (if half % 2 = 0 then t.ens.epoch0 else t.ens.epoch1) = s.ens.epoch ∧ t.job = s.job ∧ t.mem = s.mem))

/-! ### Resets and streams -/

/-- Resets (R459, R598 to R600). A compute reset, also of a Function Level Reset, empties every tile store and the gradient
exchange, and keeps device memory, the charter, every array's cells and its active bank; a partition reset does so for the
tiles of the partitions it names and leaves the other tile stores and the gradient exchange; a Function Level Reset returns
the halyards. While a job runs each asks the step root for a rollback, where a Steward is up to ask. -/
def Obligations.ResetsKeepAndClear : Prop :=
  (∀ s : State, Reach s R.RST_CTRL → ∃ t, exec .crst s = .next t ∧ ComputeReset s t ∧ t.hang.hosts = s.hang.hosts) ∧
  (∀ s : State, s.power.on = true → ∃ t, exec .flr s = .next t ∧ ComputeReset s t ∧
    t.hal = { linkUp := s.hal.linkUp, bar2 := s.hal.bar2 } ∧ t.hang.held = [] ∧ t.hang.hosts = [] ∧
    t.fld F.RST_STAT_SUSPECT = 0 ∧ ∀ h < 17, t.fld (F.HAL_CTRL_EN h) = 0) ∧
  ∀ (s : State) (mask : Nat), Reach s R.RST_CTRL → (s.ens.up = 0 → exec (.prst mask) s = .next s) ∧
    (s.ens.up ≠ 0 → ∃ t, exec (.prst mask) s = .next t ∧ t.mem = s.mem ∧ t.charter = s.charter ∧ t.fre = s.fre ∧
      (∀ x < 512, ∀ z < tstoreBytes, lookup memReset t.tstore (tstoreBytes * x + z) =
        if mask.testBit (partOf x) then 0 else lookup memReset s.tstore (tstoreBytes * x + z)) ∧
      CellsKept s t ∧ ((∃ n < 4, mask.testBit n = true) → t.fld F.RST_EVT_PRST = 1 ∧ RollbackAsked s t))

/-- Dumps and checkpoint streams (R484 to R486, R612 to R615). A trigger captures a dump, or counts while one is captured,
streams or is held; the dump goes to the host buffer once the link is up; a release gives it up. A checkpoint's next buffer
takes the records that fit, frees the engines whose records are written, and the last one completes the command and begins the
stream that waits; a buffer that is missing for 1 s ends the stream with status 0x35.
How a checkpoint is cut into records is the model's choice (log 20), and so is that nothing changes where a buffer is
there (log 4). -/
def Obligations.DumpsAndCheckpoints : Prop :=
  (∀ s : State, Reach s R.RST_CTRL → ∃ t, exec .dump s = .next t ∧
    (s.fld F.RST_DUMPSTAT_STATE ∈ [1, 2, 3] →
      Changes s t [(F.RST_CNT_DUMP_COUNT, satAdd 32 (s.fld F.RST_CNT_DUMP_COUNT) 1)]) ∧
    (s.fld F.RST_DUMPSTAT_STATE ∉ [1, 2, 3] → t.rd R.RST_DUMPSTAT = 0x18000000 ∧ t.dump.header = s.dumpHeader ∧
      t.dump.unreach = [] ∧ t = { s with regs := t.regs, msix := t.msix, dump := t.dump, free := s.free + 1 })) ∧
  (∀ (s : State) (unit : Nat), s.power.on = true → s.fld F.RST_DUMPSTAT_STATE = 1 → unit ∉ s.dump.unreach →
    ∃ t, exec (.dumpUnitTimeout unit) s = .next t ∧ t.dump.unreach = s.dump.unreach ++ [unit] ∧
      Changes { s with dump := t.dump } t [(F.RST_DUMPSTAT_UNREACH, satAdd 16 (s.fld F.RST_DUMPSTAT_UNREACH) 1)]) ∧
  (∀ (s : State) (base : Nat) (b : List Byte), s.power.on = true → s.fld F.RST_DUMPSTAT_STATE ∈ [1, 2, 3] →
    base = s.pair F.RST_DUMPBASE_LO_ADDR F.RST_DUMPBASE_HI_ADDR →
    b = s.dumpBytes.take (s.fld F.RST_DUMPSIZE_SIZE * 2 ^ 20) →
    ∃ t, exec .dumpStream s = .next t ∧ (s.linkUp = false → Changes s t [(F.RST_DUMPSTAT_STATE, 3)]) ∧
      (s.linkUp = true → t.hostBytes base b.length = b ∧ t.fld F.RST_DUMPSTAT_STATE = 4 ∧ t.fld F.RST_DUMPSTAT_FROZEN = 0 ∧
        (∀ z, z < base ∨ base + b.length ≤ z → lookup memReset t.host z = lookup memReset s.host z) ∧
        t = { s with regs := t.regs, host := t.host, msix := t.msix })) ∧
  (∀ s : State, Reach s R.RST_CTRL → ∃ t, exec .release s = .next t ∧
    Changes s t [(F.RST_DUMPSTAT_FROZEN, 0), (F.RST_DUMPSTAT_STATE,
      if s.fld F.RST_DUMPSTAT_STATE ∈ [1, 2, 3] then 0 else s.fld F.RST_DUMPSTAT_STATE)]) ∧
  (∀ (s : State) (k : Ckpt) (todo : List (List Byte)) (d : List Byte) (n : Nat), s.power.on = true → s.linkUp = true →
    s.hal.ckStream = some k → s.fld F.HAL_CKSIZE_LOG2 ≠ 0 → s.fld F.HAL_CKCONS_COUNT ≠ s.hal.ckProd →
    todo = (if k.begun then k.todo else s.ckRecords k) →
    d = s.hostBytes (s.pair F.HAL_CKBASE_LO_ADDR F.HAL_CKBASE_HI_ADDR
      + 16 * (s.fld F.HAL_CKCONS_COUNT % 2 ^ s.fld F.HAL_CKSIZE_LOG2)) 16 →
    n = fitting (leAt d 8 4) todo →
    ∃ t, exec .checkpointStream s = .next t ∧ t.fld F.HAL_CKCONS_COUNT = (s.fld F.HAL_CKCONS_COUNT + 1) % 2 ^ 32 ∧
      t.mem = s.mem ∧ t.job = s.job ∧
      (∀ g < 8, (t.engine g).held = ((s.engine g).held && t.ckHolds g)) ∧
      (n < todo.length → t.hal.ckStream = some { k with begun := true, todo := todo.drop n } ∧ t.hal.ckQueue = s.hal.ckQueue ∧
        leNat (t.hostBytes (s.pair F.HAL_CKBASE_LO_ADDR F.HAL_CKBASE_HI_ADDR
          + 16 * (s.fld F.HAL_CKCONS_COUNT % 2 ^ s.fld F.HAL_CKSIZE_LOG2) + 12) 4) = (todo.take n).flatten.length % 2 ^ 32) ∧
      (n = todo.length → t.hal.ckStream = s.hal.ckQueue.head? ∧ t.hal.ckQueue = s.hal.ckQueue.tail ∧
        ∀ acc, k.accs = [acc] → accKind acc = 0 → accSource acc = 16 → s.canComplete 16 → Completed s t acc 0 0)) ∧
  ∀ (s : State) (k : Ckpt), s.power.on = true → s.hal.ckStream = some k →
    (s.linkUp = true ∧ s.fld F.HAL_CKSIZE_LOG2 ≠ 0 ∧ s.fld F.HAL_CKCONS_COUNT ≠ s.hal.ckProd →
      exec .checkpointBufferTimeout s = .next s) ∧
    (s.linkUp = false ∨ s.fld F.HAL_CKSIZE_LOG2 = 0 ∨ s.fld F.HAL_CKCONS_COUNT = s.hal.ckProd →
      ∃ t, exec .checkpointBufferTimeout s = .next t ∧ t.hal.ckStream = s.hal.ckQueue.head? ∧
        t.hal.ckQueue = s.hal.ckQueue.tail ∧ (∀ g < 8, (t.engine g).held = ((s.engine g).held && t.ckHolds g)) ∧ t.mem = s.mem ∧ t.job = s.job ∧
        ∀ acc, k.accs = [acc] → accKind acc = 0 → accSource acc = 16 → s.canComplete 16 → Completed s t acc 0x35 0)

/-! ### Tests, redundancy, injection, memory errors -/

/-- In-field tests and redundancy (R563, R564, R566, R568 to R572). A request starts at once on a tile without a test, in the
mode that AUTO stands for, and is dropped where eight wait; a test whose time has come is counted, an ENGINE test failing
where a comparison failed; a comparison that agrees completes the command, and one that does not is a fault of the tile that
the third run names.
When an ENGINE test fails is the model's reading (log 48; the outcome of its STOP form is free, log 86); that nothing changes where the event cannot occur is its
choice (log 4). -/
def Obligations.TestsAndRedundancy : Prop :=
  (∀ (s : State) (x kind mode array col steps m : Nat), s.power.on = true → x < 512 → kind ≤ 5 → mode ≤ 2 → array < 8 →
    col < 512 → (s.tile x).test = none → m = (if mode = 0 then (if s.job.running then 1 else 2) else mode) →
    ∃ t, exec (.testRequest x kind mode array col steps) s = .next t ∧
      (t.tile x).test = some { kind, mode := m, array, col, steps, hosts := [] } ∧
      t.fld (F.TIL_TESTSTAT_STATE x) = (if m = 2 ∧ s.job.running = true then 1 else 2) ∧
      t.fld (F.TIL_TESTSTAT_KIND x) = kind ∧ t.fld (F.TIL_TESTSTAT_MODE x) = m ∧ t.fld (F.TIL_TESTSTAT_VERDICT x) = 0 ∧
      t = { s with regs := t.regs, tiles := t.tiles, msix := t.msix }) ∧
  (∀ (s : State) (x kind mode array col steps : Nat) (r q : TestReq), s.power.on = true → x < 512 →
    (s.tile x).test = some r → q = { kind, mode := (if mode = 0 then (if s.job.running then 1 else 2) else mode), array, col,
                                     steps, hosts := [] } → r.covers q = false → 8 ≤ (s.tile x).waiting.length →
    ∃ t, exec (.testRequest x kind mode array col steps) s = .next t ∧
      Changes s t [(F.TIL_CNT_TESTDROP_COUNT x, satAdd 32 (s.fld (F.TIL_CNT_TESTDROP_COUNT x)) 1)]) ∧
  (∀ (s : State) (x : Nat), s.power.on = true → x < 512 →
    ((s.tile x).test = none → exec (.testEnd x) s = .next s) ∧
    (∀ r, (s.tile x).test = some r → s.testRipe x r = true → ∃ t, exec (.testEnd x) s = .next t ∧
      t.fld (F.TIL_CNT_TEST_COUNT x) = satAdd 32 (s.fld (F.TIL_CNT_TEST_COUNT x)) 1 ∧
      (r.kind = 3 → r.mode ≤ 2 → r.array < 8 → r.col < 512 → s.fld (F.TIL_TESTSTAT_VERDICT x) ≠ 5 →
        (s.tile x).waiting = [] → (t.tile x).test = none ∧
        t.fld (F.TIL_TESTSTAT_STATE x) = 3 ∧ t.fld (F.TIL_TESTSTAT_VERDICT x) =
          if (if r.mode = 2 then Config.selfTestFails s.free x else (s.tile x).redFailed) = true then 4 else 1))) ∧
  (∀ (s : State) (x : Nat) (partner third : W32), s.power.on = true → x < 512 →
    ((s.tile x).redPend = [] → exec (.redundancyCompare x partner third) s = .next s) ∧
    (∀ p ps, (s.tile x).redPend = p :: ps → p.cmd.tile = x → Unarmed s →
      accKind p.cmd.acc = 0 ∧ accSource p.cmd.acc < 17 ∨ accKind p.cmd.acc = 1 →
      ∃ t, exec (.redundancyCompare x partner third) s = .next t ∧ (t.tile x).redPend = ps ∧ LeftQueue t p.cmd ∧
        (partner = p.crc → t.fld (F.TIL_CNT_REDMIS_COUNT x) = s.fld (F.TIL_CNT_REDMIS_COUNT x) ∧ t.mem = s.mem) ∧
        (partner ≠ p.crc → (t.tile x).redFailed = true ∧
          t.fld (F.TIL_CNT_REDMIS_COUNT x) = satAdd 32 (s.fld (F.TIL_CNT_REDMIS_COUNT x)) (b2n (third != p.crc)) ∧
          t.fld (F.TIL_CNT_REDMIS_COUNT (x ^^^ 1)) =
            satAdd 32 (s.fld (F.TIL_CNT_REDMIS_COUNT (x ^^^ 1))) (b2n (third != partner)))))

/-- Injection and what fails (R573, R574, R581 to R583). A locked injector ignores a write, an arming that its point does not
list, or of DATA while a job runs, is refused, and another takes effect; a corrected error only counts; an uncorrectable one
is a fault of its stack; an array that leaves service is covered whole where its tile has room.
That nothing changes where the event cannot occur is the model's choice (log 4). -/
def Obligations.InjectionAndErrors : Prop :=
  (∀ (s : State) (v : W32), Reach s R.INJ_CTRL → s.fld F.INJ_STAT_LOCKED = 1 → exec (.injCtrlWrite v) s = .next s) ∧
  (∀ (s : State) (v : W32) (listed : Bool), Reach s R.INJ_CTRL → s.fld F.INJ_STAT_LOCKED = 0 →
    listed = (if bit v 30 then (injModes (bits v 7 0)).2 else (injModes (bits v 7 0)).1) →
    ∃ t, exec (.injCtrlWrite v) s = .next t ∧
      (bit v 31 = true → (listed = false ∨ bit v 30 = true ∧ s.job.running = true) →
        Changes s t [(F.INJ_STAT_REFUSED, 1)]) ∧
      ((bit v 31 = true → listed = true ∧ (bit v 30 = true → s.job.running = false)) →
        t.rd R.INJ_CTRL = v &&& 0xC0FF00FF ∧ (bit v 31 = true → t.injSeen = 0) ∧
        t.mem = s.mem ∧ ∀ o, o ≠ R.INJ_CTRL → t.rd o = s.rd o)) ∧
  (∀ (s : State) (addr : Nat), s.power.on = true → addr < deviceBytes →
    ∃ t, exec (.memoryCorrectableError addr) s = .next t ∧
      t.fld F.RST_CNT_MEMCE_COUNT = satAdd 32 (s.fld F.RST_CNT_MEMCE_COUNT) 1 ∧ t.fld F.RST_FLTCLS_CLASS = 5 ∧
      t.fld F.RST_FLTCLS_UKIND = 5 ∧ t.fld F.RST_FLTCLS_UNIT = addr / stackBytes ∧
      t = { s with regs := t.regs, msix := t.msix }) ∧
  (∀ (s : State) (addr : Nat), s.power.on = true → addr < deviceBytes →
    ∃ t, exec (.memoryUncorrectableError addr) s = .next t ∧ t.fld F.RST_EVT_MEMUE = 1 ∧
      t.fld F.RST_CNT_MEMUE_COUNT = satAdd 32 (s.fld F.RST_CNT_MEMUE_COUNT) 1 ∧ t.fld F.RST_FLTCLS_CLASS = 0x10 ∧
      t.fld F.RST_FLTCLS_UNIT = addr / stackBytes ∧ addr ∈ t.hang.ueSeen ∧
      (∀ r, s.regionOf addr = some r → r.kind ≠ 14 → s.job.running = true →
        t.job.stopItems = true ∧ ∃ h, t.job.fault = some (0x10, h))) ∧
  ∀ (s : State) (x a : Nat), s.power.on = true → x < 512 → a < 8 →
    ((s.arr x a).out = true → exec (.arrayOutOfService x a) s = .next s) ∧
    ((s.arr x a).out = false → ∃ t, exec (.arrayOutOfService x a) s = .next t ∧ (t.arr x a).out = true ∧
      t.fld (F.ARR_STAT_INSVC x a) = 0 ∧ t.fld (F.ARR_BSTAT_INBUD x a) = 0 ∧
      (s.fld (F.ARR_BSTAT_INBUD x a) = 1 → t.fld (F.ARR_BEVT_LEAVE x a) = 1) ∧ t.fld F.RST_CNT_ARRFAIL_COUNT = satAdd 32 (s.fld F.RST_CNT_ARRFAIL_COUNT) 1 ∧
      (s.dfwd = true ∨ s.covered x - (s.arr x a).cover.length = 0 →
        (t.arr x a).cover = List.range 512 ∧ t.fld (F.ARR_STAT_COVER x a) = 1 ∧ t.fld F.RST_FLTCLS_CLASS = 3) ∧
      (s.dfwd = false → s.covered x - (s.arr x a).cover.length ≠ 0 → t.fld (F.OPE_EVT_COVOVF x) = 1))

/-! ### Folios, the ledger, and updates -/

/-- Folio records (R628, R634 to R637, R639). A sync record joins its tile's folio while it fits, and is otherwise dropped and
counted; the hub takes a tile's oldest record in its turn, while both credits cover it, into a ring in memory where it fits,
byte for byte, or sends it to the remote device, and spends the credits; a ring that it does not fit stops; a received record
goes into this device's ring; the host's consumer count lets a stopped ring go on once the next record fits.
That nothing changes where the event cannot occur is the model's choice (log 4), and so is what the credits are counted
from (log 81). -/
def Obligations.FolioRecords : Prop :=
  (∀ (s : State) (x : Nat), s.power.on = true → x < 512 →
    (recordBytes (s.tile x).folio + 48 ≤ 16384 → ∃ t r, exec (.syncRecord x) s = .next t ∧ r.length = 48 ∧
      (t.tile x).folio = (s.tile x).folio ++ [r] ∧ t.fld (F.FOL_TSEQ_SEQ x) = (s.fld (F.FOL_TSEQ_SEQ x) + 1) % 2 ^ 16) ∧
    (16384 < recordBytes (s.tile x).folio + 48 → ∃ t, exec (.syncRecord x) s = .next t ∧
      (t.tile x).folio = (s.tile x).folio ∧ t.fld (F.FOL_TSEQ_SEQ x) = (s.fld (F.FOL_TSEQ_SEQ x) + 1) % 2 ^ 16 ∧
      t.fld (F.FOL_TDROP_COUNT x) = satAdd 32 (s.fld (F.FOL_TDROP_COUNT x)) 1 ∧
      t.fld F.FOL_CNT_DROP_COUNT = satAdd 32 (s.fld F.FOL_CNT_DROP_COUNT) 1)) ∧
  (∀ (s : State) (x : Nat) (r : List Byte) (rest : List (List Byte)) (prod : Nat), s.power.on = true → x < 512 →
    (s.tile x).folio = r :: rest → s.drainable x = true → s.drainTurn x = true → s.fld F.FOL_CTRL_EN = 1 →
    prod = s.pair F.FOL_PROD_LO_BYTES F.FOL_PROD_HI_BYTES →
    (s.fld F.FOL_CTRL_DEST = 0 → s.fld F.FOL_CTRL_STACK < 8 → s.fld F.FOL_CTRL_WRAP = 0 → s.folUsed + r.length ≤ s.folSize →
      ∃ t, exec (.folioDrain x) s = .next t ∧ RecordTaken s t x r rest ∧
      t.pair F.FOL_PROD_LO_BYTES F.FOL_PROD_HI_BYTES = (prod + r.length) % 2 ^ 64 ∧ t.fld F.FOL_STAT_STOPPED = 0 ∧
      t.host = s.host ∧ (prod % s.folSize + r.length ≤ s.folSize → t.memBytes (s.folAddr prod) r.length = r)) ∧
    (s.fld F.FOL_CTRL_DEST = 0 → s.fld F.FOL_CTRL_STACK < 8 → s.fld F.FOL_CTRL_WRAP = 0 → s.folSize < s.folUsed + r.length →
      ∃ t, exec (.folioDrain x) s = .next t ∧ Changes s t [(F.FOL_STAT_STOPPED, 1)]) ∧
    (s.fld F.FOL_CTRL_DEST = 2 → s.flag F.FAB_DEVNUM_VALID = true →
      ∃ t m, exec (.folioDrain x) s = .next t ∧ RecordTaken s t x r rest ∧ t.mem = s.mem ∧ t.host = s.host ∧
      t.sent = s.sent ++ [m] ∧ m.dest = s.fld F.FOL_RDEV_DEV ∧ m.cls = 4 ∧ m.stream = x ∧ m.payload = r)) ∧
  (∀ (s : State) (x : Nat), s.power.on = true →
    s.drainable x = false ∨ s.drainTurn x = false ∨ s.fld F.FOL_CTRL_EN = 0 → exec (.folioDrain x) s = .next s) ∧
  (∀ (s : State) (b : List Byte) (prod : Nat), s.power.on = true →
    (s.folRing = false → exec (.traceMessage b) s = .next s) ∧
    (s.fld F.FOL_CTRL_EN = 1 → s.fld F.FOL_CTRL_DEST = 0 → s.fld F.FOL_CTRL_STACK < 8 → s.fld F.FOL_CTRL_WRAP = 0 →
      b.length ≠ 0 → leAt b 2 2 = b.length → prod = s.pair F.FOL_PROD_LO_BYTES F.FOL_PROD_HI_BYTES →
      (s.folUsed + b.length ≤ s.folSize → ∃ t, exec (.traceMessage b) s = .next t ∧
        t.pair F.FOL_PROD_LO_BYTES F.FOL_PROD_HI_BYTES = (prod + b.length) % 2 ^ 64 ∧ t.fld F.FOL_STAT_STOPPED = 0 ∧
        t.drain.credit = s.drain.credit.spend 65536 s.drainRate s.osc b.length ∧ t.tiles = s.tiles ∧
        (prod % s.folSize + b.length ≤ s.folSize → t.memBytes (s.folAddr prod) b.length = b)) ∧
      (s.folSize < s.folUsed + b.length → ∃ t, exec (.traceMessage b) s = .next t ∧ Changes s t [(F.FOL_STAT_STOPPED, 1)]))) ∧
  ∀ (s : State) (v : W32), Reach s R.FOL_CONS_LO → ∃ t, exec (.folConsWrite v) s = .next t ∧ t.rd R.FOL_CONS_LO = v ∧
    t.rd R.FOL_CONS_HI = s.heldHi R.FOL_CONS_HI ∧
    t.fld F.FOL_STAT_STOPPED = (if (s.writeLo R.FOL_CONS_LO v).folStuck then s.fld F.FOL_STAT_STOPPED else 0) ∧
    ∀ o, o ∉ [R.FOL_CONS_LO, R.FOL_CONS_HI, R.FOL_STAT] → t.rd o = s.rd o

/-- The ledger (R661, R663, R668, R670). A host command while one is outstanding is ignored with LDG_EVT.BUSY; one that is
refused shows its result; an accepted one waits in the queue with LDG_RES at 0; LOOKUP answers at once, its value in LDG_BUF.
The Stewards' and the Warden's requests join the queue, or wait behind it; a commit takes the first requests, and a failure
makes the ledger read-only. The Warden's commands (R649, R652). SVNCOMMIT raises each fused version to at least the running
image's and lowers none; REVOKE blows a key set that every running image is above, and otherwise fails; an update that has no
header, is too long or fails a check writes nothing and names its cause, and another writes the newer boot header.
The cause of an update without a header is the model's reading (log 25); that nothing changes where the event cannot
occur is its choice (log 4). -/
def Obligations.LedgerAndWarden : Prop :=
  ((∀ (s : State) (c : Instr), (∃ ty n, c = .append ty n) ∨ (∃ ty, c = .delete ty) ∨ (∃ ty, c = .lookup ty) →
      Reach s R.LDG_CMD → s.ledgerBusy = true → ∃ t, exec c s = .next t ∧ Changes s t [(F.LDG_EVT_BUSY, 1)]) ∧
    (∀ (s : State) (c : Instr) (ty n result : Nat), Reach s R.LDG_CMD → s.ledgerBusy = false →
      c = .append ty n ∧ result = (if hostType ty = false then 2 else if ledgerLen ty ≠ some n then 3
          else if 256 ≤ s.ledger.queue.length then 4 else if s.ledger.readOnly then 5 else 0) ∨
        c = .delete ty ∧ result = (if hostType ty = false then 2
          else if 256 ≤ s.ledger.queue.length then 4 else if s.ledger.readOnly then 5 else 0) →
      ∃ t, exec c s = .next t ∧
        (result ≠ 0 → OnlyRegs s t [R.LDG_RES] ∧ t.rd R.LDG_RES = BitVec.ofNat 32 (2 ^ 31 + result * 2 ^ 28)) ∧
        (result = 0 → t.rd R.LDG_RES = 0 ∧ ∃ q : LdgReq, t.ledger = { s.ledger with queue := s.ledger.queue ++ [q] } ∧
          q.src = 2 ∧ q.type = ty ∧ q.key = (s.rd R.LDG_KEY).toNat ∧ (c = .delete ty → q.delete = true) ∧
          (c = .append ty n → q.delete = false ∧ q.value = s.ldgBuf n))) ∧
    (∀ (s : State) (ty : Nat), Reach s R.LDG_CMD → s.ledgerBusy = false → Unarmed s →
      ∃ t, exec (.lookup ty) s = .next t ∧ t.ledger = s.ledger ∧
        (s.liveVal ty (s.rd R.LDG_KEY).toNat = none → t.rd R.LDG_RES = 0x90000000) ∧
        (∀ v, s.liveVal ty (s.rd R.LDG_KEY).toNat = some v → v.length ≤ 2048 →
          t.rd R.LDG_RES = BitVec.ofNat 32 (2 ^ 31 + v.length) ∧
          ∀ k, 4 * k + 4 ≤ v.length → t.rd (R.LDG_BUF k) = BitVec.ofNat 32 (leAt v (4 * k) 4))) ∧
    (∀ (s : State) (warden : Bool) (ty : W16) (key : W32) (v : List Byte) (del : Bool), s.power.on = true →
      s.ledger.readOnly = false → s.inRecovery = false →
      (if warden then ty.toNat ∈ [0x24, 0x25] else s.ens.up ≠ 0 ∧ 0x20 ≤ ty.toNat ∧ ty.toNat ≤ 0x23) →
      del = true ∨ ledgerLen ty.toNat = some v.length →
      ∃ t q, exec (.ledgerRequest warden ty key v del) s = .next t ∧
        q = ({ src := b2n warden, type := ty.toNat, key := key.toNat, value := v, delete := del } : LdgReq) ∧
        t = { s with ledger := if s.ledger.queue.length < 256 then { s.ledger with queue := s.ledger.queue ++ [q] }
                               else { s.ledger with waiting := s.ledger.waiting ++ [q] } }) ∧
    (∀ (s : State) (n : Nat) (ok : Bool), s.power.on = true →
      (s.ledger.readOnly = true ∨ batchFits s.ledger.queue n = false → exec (.ledgerCommit n ok) s = .next s) ∧
      (s.ledger.readOnly = false → batchFits s.ledger.queue n = true → ∃ t, exec (.ledgerCommit n ok) s = .next t ∧
        (ok = true → t.ledger.queue = (s.ledger.queue.drop n ++ s.ledger.waiting).take 256 ∧
          t.ledger.nextCount = (s.ledger.nextCount + n) % 2 ^ 48 ∧ t.ledger.readOnly = false ∧
          t.fld F.LDG_CNT_APPEND_COUNT = satAdd 32 (s.fld F.LDG_CNT_APPEND_COUNT) 1 ∧
          ((s.ledger.queue.take n).any (fun q => q.src == 2) = true → t.rd R.LDG_RES = 0x80000000)) ∧
        (ok = false → t.ledger = { s.ledger with queue := [], waiting := [], readOnly := true } ∧
          t.fld F.LDG_STAT_STATE = 4 ∧ t.fld F.LDG_EVT_FAIL = 1 ∧ t.flash = s.flash)))) ∧
  ((∀ s : State, s.power.on = true →
      (s.sec.images = [] → exec .svncommit s = .next s) ∧
      (s.sec.images ≠ [] → ∃ t, exec .svncommit s = .next t ∧ t.fld F.SEC_EVT_SVN = 1 ∧
        (∀ e ∈ s.sec.images, e.2.svn ≤ t.fuseSvn e.1) ∧ (∀ k, s.fuseSvn k ≤ t.fuseSvn k) ∧ t.revokedKeys = s.revokedKeys ∧
        t.flash = s.flash)) ∧
    (∀ (s : State) (k : Nat), s.power.on = true → k < 4 →
      ∃ t, exec (.revoke k) s = .next t ∧ t.fld F.SEC_CTRL_RKEY = k ∧
        ((∀ e ∈ s.sec.images, k < e.2.keyset) → t.revokedKeys = s.revokedKeys ||| 2 ^ k ∧ t.fld F.SEC_EVT_REVOKED = 1) ∧
        ((∃ e ∈ s.sec.images, e.2.keyset ≤ k) → t.sec = s.sec ∧ t.fld F.SEC_EVT_UPDFAIL = 1)) ∧
    ∀ s : State, s.power.on = true → ∃ t, exec .update s = .next t ∧
      (s.bootHeader = none → OnlyRegs s t [R.SEC_UPDSTAT, R.SEC_EVT] ∧ t.rd R.SEC_UPDSTAT = 0x40000007) ∧
      (∀ hdr h, s.bootHeader = some (hdr, h) →
        (leAt h 32 4 < s.stagedSet.length → OnlyRegs s t [R.SEC_UPDSTAT, R.SEC_EVT] ∧ t.rd R.SEC_UPDSTAT = 0x40000008) ∧
        (s.stagedSet.length ≤ leAt h 32 4 → s.setCause s.stagedSet ≠ 0 → OnlyRegs s t [R.SEC_UPDSTAT, R.SEC_EVT] ∧
          t.rd R.SEC_UPDSTAT = BitVec.ofNat 32 (4 * 2 ^ 28 + s.setCause s.stagedSet)) ∧
        (s.stagedSet.length ≤ leAt h 32 4 → s.setCause s.stagedSet = 0 → t.rd R.SEC_UPDSTAT = 0x30000000 ∧
          t.fld F.SEC_EVT_UPDDONE = 1 ∧ leAt (t.flashBytes (4096 * (1 - hdr)) 4096) 4 4 = (leAt h 4 4 + 1) % 2 ^ 32)))

/-! ### The stash -/

/-- A tensor's bytes come back from the stash as they went in (R296, R297): decompressing what compression left gives them,
whatever their format and length. -/
def Obligations.StashRoundTrip : Prop :=
  ∀ (d : W16) (bs : List Byte), (decompress d (pageCount d bs.length) (compress d bs)).take bs.length = bs
end

