-- ==== Sys2Proof/Laws/Bits.lean ====
section
/-! SUPPORT. The laws of bit fields: a field written is the field read, and disjoint fields keep theirs.
-/

namespace Sys2Proof.Machine

/-- A bit of a field. -/
theorem testBit_bits {n : Nat} (w : BitVec n) (hi lo j : Nat) :
    (bits w hi lo).testBit j = (decide (j < hi + 1 - lo) && w.toNat.testBit (lo + j)) := by
  simp [bits, Nat.testBit_mod_two_pow, Nat.testBit_div_two_pow, Nat.add_comm]

/-- A register with a field set, as a number. -/
theorem toNat_putBits (w : W32) {hi lo : Nat} (v : Nat) (h1 : lo ≤ hi) (h2 : hi < 32) :
    (putBits w hi lo v).toNat =
      2 ^ lo * (2 ^ (hi + 1 - lo) * (w.toNat / 2 ^ lo / 2 ^ (hi + 1 - lo)) + v % 2 ^ (hi + 1 - lo)) + w.toNat % 2 ^ lo := by
  obtain ⟨n, hn⟩ : ∃ n, hi + 1 - lo = n := ⟨_, rfl⟩
  have hw : w.toNat < 2 ^ 32 := w.isLt
  have h32 : (2 : Nat) ^ 32 = 2 ^ lo * (2 ^ n * 2 ^ (31 - hi)) := by
    rw [← Nat.pow_add, ← Nat.pow_add]; congr 1; omega
  unfold putBits bits
  rw [hn, BitVec.toNat_ofNat]
  generalize hx : w.toNat = x at *
  have hP : 0 < 2 ^ lo := Nat.two_pow_pos lo
  have hQ : 0 < 2 ^ n := Nat.two_pow_pos n
  generalize 2 ^ lo = P at *
  generalize 2 ^ n = Q at *
  generalize 2 ^ (31 - hi) = R at *
  have e1 : P * (x / P) + x % P = x := Nat.div_add_mod x P
  have e2 : Q * (x / P / Q) + x / P % Q = x / P := Nat.div_add_mod (x / P) Q
  have lv : v % Q < Q := Nat.mod_lt _ hQ
  have la : x % P < P := Nat.mod_lt _ hP
  have lC : x / P / Q < R := by
    rw [Nat.div_div_eq_div_mul]
    exact Nat.div_lt_of_lt_mul (by rw [Nat.mul_assoc]; rw [h32] at hw; exact hw)
  generalize hC : x / P / Q = C at *
  generalize hb : x / P % Q = b at *
  generalize hA : x % P = A at *
  generalize v % Q = u at *
  have ex : x = P * (Q * C) + b * P + A := by
    rw [← e1, ← e2, Nat.mul_add, Nat.mul_comm P b]
  have : x - b * P + u * P = P * (Q * C + u) + A := by
    rw [Nat.mul_add, Nat.mul_comm P u]; omega
  rw [this]
  apply Nat.mod_eq_of_lt
  rw [h32]
  have h3 : Q * C + u + 1 ≤ Q * R := by
    have : Q * (C + 1) ≤ Q * R := Nat.mul_le_mul_left Q lC
    rw [Nat.mul_add, Nat.mul_one] at this; omega
  have h4 : P * (Q * C + u + 1) ≤ P * (Q * R) := Nat.mul_le_mul_left P h3
  rw [Nat.mul_add, Nat.mul_one] at h4; omega

/-- Each bit of a register with a field set. -/
theorem testBit_putBits (w : W32) {hi lo : Nat} (v i : Nat) (h1 : lo ≤ hi) (h2 : hi < 32) :
    (putBits w hi lo v).toNat.testBit i = if lo ≤ i ∧ i ≤ hi then v.testBit (i - lo) else w.toNat.testBit i := by
  rw [toNat_putBits w v h1 h2, Nat.testBit_two_pow_mul_add _ (Nat.mod_lt _ (Nat.two_pow_pos lo)),
    Nat.testBit_two_pow_mul_add _ (Nat.mod_lt _ (Nat.two_pow_pos _))]
  by_cases hl : i < lo
  · have : ¬ (lo ≤ i ∧ i ≤ hi) := by omega
    simp [hl, this, Nat.testBit_mod_two_pow]
  · by_cases hm : i - lo < hi + 1 - lo
    · have : lo ≤ i ∧ i ≤ hi := by omega
      simp [hl, hm, this, Nat.testBit_mod_two_pow]
    · have h3 : ¬ (lo ≤ i ∧ i ≤ hi) := by omega
      have h4 : lo + (hi + 1 - lo + (i - lo - (hi + 1 - lo))) = i := by omega
      simp only [hl, hm, h3, if_false, Nat.testBit_div_two_pow]
      congr 1; omega

/-- The field written reads as the value, cut to the field's width. -/
theorem bits_putBits_same (w : W32) {hi lo : Nat} (v : Nat) (h1 : lo ≤ hi) (h2 : hi < 32) :
    bits (putBits w hi lo v) hi lo = v % 2 ^ (hi + 1 - lo) := by
  apply Nat.eq_of_testBit_eq
  intro i
  rw [testBit_bits, testBit_putBits w v _ h1 h2, Nat.testBit_mod_two_pow]
  by_cases h : i < hi + 1 - lo
  · have : lo ≤ lo + i ∧ lo + i ≤ hi := by omega
    simp [h, this]
  · simp [h]

/-- A field that shares no bit with the one written keeps its value. -/
theorem bits_putBits_other (w : W32) {hi lo hi' lo' : Nat} (v : Nat) (h1 : lo ≤ hi) (h2 : hi < 32)
    (h : hi' < lo ∨ hi < lo') : bits (putBits w hi lo v) hi' lo' = bits w hi' lo' := by
  apply Nat.eq_of_testBit_eq
  intro i
  rw [testBit_bits, testBit_bits, testBit_putBits w v _ h1 h2]
  by_cases hj : i < hi' + 1 - lo'
  · have : ¬ (lo ≤ lo' + i ∧ lo' + i ≤ hi) := by omega
    simp [this]
  · simp [hj]

/-- A field's value fits its width. -/
theorem bits_lt {n : Nat} (w : BitVec n) (hi lo : Nat) : bits w hi lo < 2 ^ (hi + 1 - lo) :=
  Nat.mod_lt _ (Nat.two_pow_pos _)

@[simp] theorem leBytes_length (n v : Nat) : (leBytes n v).length = n := by
  induction n generalizing v with
  | zero => rfl
  | succ n ih => simp [leBytes, ih]

/-- Little-endian bytes give their number back. -/
theorem leNat_leBytes (n v : Nat) : leNat (leBytes n v) = v % 256 ^ n := by
  induction n generalizing v with
  | zero => simp [leBytes, leNat, Nat.mod_one]
  | succ n ih =>
    rw [pow_succ', Nat.mod_mul, leBytes, leNat, ih]
    rfl

theorem satAdd_le (w v n : Nat) : satAdd w v n ≤ 2 ^ w - 1 := Nat.min_le_right _ _

end Sys2Proof.Machine
end

