-- ==== Sys2Proof/Laws/Sparse.lean ====
section
/-! SUPPORT. The laws of sparse data: what a read after a write returns, and that every operation keeps the canonical
form.
-/

namespace Sys2Proof.Machine

variable {α : Type}

/-! ### Reads -/

@[simp] theorem lookup_nil (d : Nat → α) (k : Nat) : lookup d [] k = d k := rfl

theorem lookup_dropKey_same (d : Nat → α) (m : Sparse α) (k : Nat) : lookup d (dropKey m k) k = d k := by
  induction m with
  | nil => rfl
  | cons p m ih =>
    by_cases h : p.1 = k
    · simpa [dropKey, h] using ih
    · simp only [dropKey, List.filter_cons, ne_eq, h, not_false_eq_true, decide_true, if_true, lookup, if_false]
      exact ih

theorem lookup_dropKey_other (d : Nat → α) (m : Sparse α) {j k : Nat} (h : j ≠ k) :
    lookup d (dropKey m k) j = lookup d m j := by
  induction m with
  | nil => rfl
  | cons p m ih =>
    by_cases hp : p.1 = k
    · have hj : p.1 ≠ j := fun e => h (e.symm.trans hp)
      have : dropKey (p :: m) k = dropKey m k := by simp [dropKey, hp]
      simpa [this, lookup, hj] using ih
    · have : dropKey (p :: m) k = p :: dropKey m k := by simp [dropKey, hp]
      simp [this, lookup, ih]

theorem lookup_place_same (d : Nat → α) (m : Sparse α) (k : Nat) (v : α) (h : ∀ p ∈ m, p.1 ≠ k) :
    lookup d (place m k v) k = v := by
  induction m with
  | nil => simp [place, lookup]
  | cons p m ih =>
    have hp : p.1 ≠ k := h p (by simp)
    unfold place
    split
    · simp [lookup]
    · simpa [lookup, hp] using ih (fun q hq => h q (by simp [hq]))

theorem lookup_place_other (d : Nat → α) (m : Sparse α) {j k : Nat} (v : α) (h : j ≠ k) :
    lookup d (place m k v) j = lookup d m j := by
  induction m with
  | nil => simp [place, lookup, h.symm]
  | cons p m ih =>
    unfold place
    split
    · simp [lookup, h.symm]
    · simp [lookup, ih]

theorem mem_dropKey (m : Sparse α) (k : Nat) : ∀ p ∈ dropKey m k, p.1 ≠ k := by
  intro p hp
  simpa using (List.mem_filter.mp hp).2

/-- A read of the key written. -/
@[simp] theorem lookup_store_same [DecidableEq α] (d : Nat → α) (m : Sparse α) (k : Nat) (v : α) :
    lookup d (store d m k v) k = v := by
  unfold store
  split
  · next h => rw [lookup_dropKey_same, h]
  · exact lookup_place_same d _ k v (mem_dropKey m k)

/-- A read of any other key. -/
theorem lookup_store_other [DecidableEq α] (d : Nat → α) (m : Sparse α) {j k : Nat} (v : α) (h : j ≠ k) :
    lookup d (store d m k v) j = lookup d m j := by
  unfold store
  split
  · exact lookup_dropKey_other d m h
  · rw [lookup_place_other d _ v h, lookup_dropKey_other d m h]

/-- A read after a write, both cases. -/
theorem lookup_store [DecidableEq α] (d : Nat → α) (m : Sparse α) (j k : Nat) (v : α) :
    lookup d (store d m k v) j = if j = k then v else lookup d m j := by
  split
  · next h => rw [h, lookup_store_same]
  · next h => exact lookup_store_other d m v h

/-- A read after a write of consecutive values. -/
theorem lookup_writeMany [DecidableEq α] (d : Nat → α) (m : Sparse α) (k : Nat) (vs : List α) (j : Nat) :
    lookup d (writeMany d m k vs) j = if k ≤ j then (vs[j - k]?).getD (lookup d m j) else lookup d m j := by
  induction vs generalizing m k with
  | nil => simp [writeMany]
  | cons v vs ih =>
    rw [writeMany, ih, lookup_store]
    rcases Nat.lt_trichotomy j k with h | h | h
    · have h1 : ¬ k + 1 ≤ j := by omega
      have h2 : ¬ k ≤ j := by omega
      have h3 : j ≠ k := by omega
      simp [h1, h2, h3]
    · subst h
      have h1 : ¬ j + 1 ≤ j := by omega
      simp [h1]
    · have h1 : k + 1 ≤ j := h
      have h2 : k ≤ j := by omega
      have h3 : j ≠ k := by omega
      have h4 : j - k = (j - (k + 1)) + 1 := by omega
      simp [h1, h2, h3, h4]

@[simp] theorem readMany_length (d : Nat → α) (m : Sparse α) (k n : Nat) : (readMany d m k n).length = n := by
  induction n generalizing k with
  | zero => rfl
  | succ n ih => simp [readMany, ih]

theorem readMany_getElem (d : Nat → α) (m : Sparse α) (k n i : Nat) (h : i < (readMany d m k n).length) :
    (readMany d m k n)[i] = lookup d m (k + i) := by
  induction n generalizing k i with
  | zero => simp [readMany] at h
  | succ n ih =>
    cases i with
    | zero => rfl
    | succ i =>
      have := ih (k + 1) i (by simpa [readMany] using h)
      simpa [readMany, Nat.add_assoc, Nat.add_comm 1] using this

/-- The bytes written are the bytes read. -/
theorem readMany_writeMany [DecidableEq α] (d : Nat → α) (m : Sparse α) (k : Nat) (vs : List α) :
    readMany d (writeMany d m k vs) k vs.length = vs := by
  apply List.ext_getElem
  · simp
  · intro i h1 h2
    rw [readMany_getElem, lookup_writeMany]
    simp [h2]

/-! ### The canonical form -/

theorem risingFrom_le {b c : Nat} {m : Sparse α} (h : risingFrom c m = true) (hb : b ≤ c) : risingFrom b m = true := by
  cases m with
  | nil => rfl
  | cons p m =>
    obtain ⟨a, v⟩ := p
    simp only [risingFrom, Bool.and_eq_true, decide_eq_true_eq] at h ⊢
    exact ⟨by omega, h.2⟩

/-- Dropping entries keeps rising keys. -/
theorem risingFrom_filter (f : Nat × α → Bool) {b : Nat} {m : Sparse α} (h : risingFrom b m = true) :
    risingFrom b (m.filter f) = true := by
  induction m generalizing b with
  | nil => rfl
  | cons p m ih =>
    obtain ⟨a, v⟩ := p
    simp only [risingFrom, Bool.and_eq_true, decide_eq_true_eq] at h
    have h' := ih h.2
    by_cases hf : f (a, v) = true
    · simp only [List.filter_cons, hf, if_true, risingFrom, Bool.and_eq_true, decide_eq_true_eq]
      exact ⟨h.1, h'⟩
    · simp only [List.filter_cons, hf]
      exact risingFrom_le h' (by omega)

theorem canonical_filter [DecidableEq α] {d : Nat → α} {m : Sparse α} (f : Nat × α → Bool) (h : canonical d m = true) :
    canonical d (m.filter f) = true := by
  simp only [canonical, Bool.and_eq_true, List.all_eq_true] at h ⊢
  exact ⟨risingFrom_filter f h.1, fun p hp => h.2 p (List.mem_filter.mp hp).1⟩

theorem risingFrom_place {b k : Nat} {m : Sparse α} (v : α) (h : risingFrom b m = true) (hk : b ≤ k)
    (hm : ∀ p ∈ m, p.1 ≠ k) : risingFrom b (place m k v) = true := by
  induction m generalizing b with
  | nil => simp [place, risingFrom, hk]
  | cons p m ih =>
    obtain ⟨a, w⟩ := p
    simp only [risingFrom, Bool.and_eq_true, decide_eq_true_eq] at h
    have ha : a ≠ k := hm (a, w) (by simp)
    unfold place
    split
    · simp only [risingFrom, Bool.and_eq_true, decide_eq_true_eq]
      exact ⟨hk, by omega, h.2⟩
    · simp only [risingFrom, Bool.and_eq_true, decide_eq_true_eq]
      exact ⟨h.1, ih h.2 (by omega) (fun q hq => hm q (by simp [hq]))⟩

theorem mem_place {m : Sparse α} {k : Nat} {v : α} {p : Nat × α} (h : p ∈ place m k v) : p = (k, v) ∨ p ∈ m := by
  induction m with
  | nil => simpa [place] using h
  | cons q m ih =>
    obtain ⟨a, w⟩ := q
    unfold place at h
    split at h
    · simpa using h
    · rcases List.mem_cons.mp h with h | h
      · simp [h]
      · rcases ih h with h | h
        · exact .inl h
        · simp [h]

/-- A write keeps the canonical form. -/
theorem canonical_store [DecidableEq α] {d : Nat → α} {m : Sparse α} (k : Nat) (v : α) (h : canonical d m = true) :
    canonical d (store d m k v) = true := by
  unfold store
  split
  · exact canonical_filter _ h
  · next hv =>
    have hc : canonical d (dropKey m k) = true := canonical_filter _ h
    simp only [canonical, Bool.and_eq_true, List.all_eq_true, decide_eq_true_eq] at hc ⊢
    refine ⟨risingFrom_place v hc.1 (Nat.zero_le _) (mem_dropKey m k), ?_⟩
    intro p hp
    rcases mem_place hp with rfl | hp
    · exact hv
    · exact hc.2 p hp

/-- A write of consecutive values keeps the canonical form. -/
theorem canonical_writeMany [DecidableEq α] {d : Nat → α} {m : Sparse α} (k : Nat) (vs : List α)
    (h : canonical d m = true) : canonical d (writeMany d m k vs) = true := by
  induction vs generalizing m k with
  | nil => exact h
  | cons v vs ih => exact ih (k + 1) (canonical_store k v h)

/-- Setting a range back keeps the canonical form. -/
theorem canonical_dropRange [DecidableEq α] {d : Nat → α} {m : Sparse α} (lo hi : Nat) (h : canonical d m = true) :
    canonical d (dropRange m lo hi) = true := canonical_filter _ h

@[simp] theorem canonical_nil [DecidableEq α] (d : Nat → α) : canonical d ([] : Sparse α) = true := rfl

end Sys2Proof.Machine
end

