-- ==== Sys2Proof/Laws/State.lean ====
section
/-! SUPPORT. What each update of the state leaves: one simp set per update, a conjunct per field.
-/

namespace Sys2Proof.Machine

variable (s : State)

/-- A register written. -/
@[simp] theorem wr_frame (off : Nat) (v : W32) :
    (s.wr off v).pending = s.pending ∧ (s.wr off v).latch = s.latch ∧ (s.wr off v).hiHold = s.hiHold ∧
    (s.wr off v).readData = s.readData ∧ (s.wr off v).free = s.free ∧ (s.wr off v).osc = s.osc ∧
    (s.wr off v).mem = s.mem ∧ (s.wr off v).host = s.host ∧ (s.wr off v).tstore = s.tstore ∧
    (s.wr off v).flash = s.flash ∧ (s.wr off v).msix = s.msix ∧ (s.wr off v).power = s.power ∧
    (s.wr off v).gov = s.gov ∧ (s.wr off v).snc = s.snc ∧ (s.wr off v).hal = s.hal ∧ (s.wr off v).arrs = s.arrs ∧
    (s.wr off v).tiles = s.tiles ∧ (s.wr off v).charter = s.charter ∧ (s.wr off v).job = s.job ∧
    (s.wr off v).engines = s.engines ∧ (s.wr off v).fre = s.fre ∧ (s.wr off v).treeC = s.treeC ∧
    (s.wr off v).treeR = s.treeR ∧ (s.wr off v).treeT = s.treeT ∧ (s.wr off v).root = s.root ∧
    (s.wr off v).fab = s.fab ∧ (s.wr off v).ens = s.ens ∧ (s.wr off v).injSeen = s.injSeen ∧
    (s.wr off v).ledger = s.ledger ∧ (s.wr off v).sec = s.sec ∧ (s.wr off v).dump = s.dump ∧
    (s.wr off v).hang = s.hang ∧ (s.wr off v).drain = s.drain ∧ (s.wr off v).sent = s.sent := by
  repeat' constructor

/-- A field set. -/
@[simp] theorem setFld_frame (f : Fld) (v : Nat) :
    (s.setFld f v).pending = s.pending ∧ (s.setFld f v).latch = s.latch ∧ (s.setFld f v).hiHold = s.hiHold ∧
    (s.setFld f v).readData = s.readData ∧ (s.setFld f v).free = s.free ∧ (s.setFld f v).osc = s.osc ∧
    (s.setFld f v).mem = s.mem ∧ (s.setFld f v).host = s.host ∧ (s.setFld f v).tstore = s.tstore ∧
    (s.setFld f v).flash = s.flash ∧ (s.setFld f v).msix = s.msix ∧ (s.setFld f v).power = s.power ∧
    (s.setFld f v).gov = s.gov ∧ (s.setFld f v).snc = s.snc ∧ (s.setFld f v).hal = s.hal ∧
    (s.setFld f v).arrs = s.arrs ∧ (s.setFld f v).tiles = s.tiles ∧ (s.setFld f v).charter = s.charter ∧
    (s.setFld f v).job = s.job ∧ (s.setFld f v).engines = s.engines ∧ (s.setFld f v).fre = s.fre ∧
    (s.setFld f v).treeC = s.treeC ∧ (s.setFld f v).treeR = s.treeR ∧ (s.setFld f v).treeT = s.treeT ∧
    (s.setFld f v).root = s.root ∧ (s.setFld f v).fab = s.fab ∧ (s.setFld f v).ens = s.ens ∧
    (s.setFld f v).injSeen = s.injSeen ∧ (s.setFld f v).ledger = s.ledger ∧ (s.setFld f v).sec = s.sec ∧
    (s.setFld f v).dump = s.dump ∧ (s.setFld f v).hang = s.hang ∧ (s.setFld f v).drain = s.drain ∧
    (s.setFld f v).sent = s.sent := by
  repeat' constructor

/-- A flag set. -/
@[simp] theorem setFlag_frame (f : Fld) (b : Bool) :
    (s.setFlag f b).pending = s.pending ∧ (s.setFlag f b).latch = s.latch ∧ (s.setFlag f b).hiHold = s.hiHold ∧
    (s.setFlag f b).readData = s.readData ∧ (s.setFlag f b).free = s.free ∧ (s.setFlag f b).osc = s.osc ∧
    (s.setFlag f b).mem = s.mem ∧ (s.setFlag f b).host = s.host ∧ (s.setFlag f b).tstore = s.tstore ∧
    (s.setFlag f b).flash = s.flash ∧ (s.setFlag f b).msix = s.msix ∧ (s.setFlag f b).power = s.power ∧
    (s.setFlag f b).gov = s.gov ∧ (s.setFlag f b).snc = s.snc ∧ (s.setFlag f b).hal = s.hal ∧
    (s.setFlag f b).arrs = s.arrs ∧ (s.setFlag f b).tiles = s.tiles ∧ (s.setFlag f b).charter = s.charter ∧
    (s.setFlag f b).job = s.job ∧ (s.setFlag f b).engines = s.engines ∧ (s.setFlag f b).fre = s.fre ∧
    (s.setFlag f b).treeC = s.treeC ∧ (s.setFlag f b).treeR = s.treeR ∧ (s.setFlag f b).treeT = s.treeT ∧
    (s.setFlag f b).root = s.root ∧ (s.setFlag f b).fab = s.fab ∧ (s.setFlag f b).ens = s.ens ∧
    (s.setFlag f b).injSeen = s.injSeen ∧ (s.setFlag f b).ledger = s.ledger ∧ (s.setFlag f b).sec = s.sec ∧
    (s.setFlag f b).dump = s.dump ∧ (s.setFlag f b).hang = s.hang ∧ (s.setFlag f b).drain = s.drain ∧
    (s.setFlag f b).sent = s.sent := by
  repeat' constructor

/-- An event bit set. -/
@[simp] theorem event_frame (f : Fld) :
    (s.event f).pending = s.pending ∧ (s.event f).latch = s.latch ∧ (s.event f).hiHold = s.hiHold ∧
    (s.event f).readData = s.readData ∧ (s.event f).free = s.free ∧ (s.event f).osc = s.osc ∧
    (s.event f).mem = s.mem ∧ (s.event f).host = s.host ∧ (s.event f).tstore = s.tstore ∧
    (s.event f).flash = s.flash ∧ (s.event f).msix = s.msix ∧ (s.event f).power = s.power ∧ (s.event f).gov = s.gov ∧
    (s.event f).snc = s.snc ∧ (s.event f).hal = s.hal ∧ (s.event f).arrs = s.arrs ∧ (s.event f).tiles = s.tiles ∧
    (s.event f).charter = s.charter ∧ (s.event f).job = s.job ∧ (s.event f).engines = s.engines ∧
    (s.event f).fre = s.fre ∧ (s.event f).treeC = s.treeC ∧ (s.event f).treeR = s.treeR ∧
    (s.event f).treeT = s.treeT ∧ (s.event f).root = s.root ∧ (s.event f).fab = s.fab ∧ (s.event f).ens = s.ens ∧
    (s.event f).injSeen = s.injSeen ∧ (s.event f).ledger = s.ledger ∧ (s.event f).sec = s.sec ∧
    (s.event f).dump = s.dump ∧ (s.event f).hang = s.hang ∧ (s.event f).drain = s.drain ∧ (s.event f).sent = s.sent := by
  repeat' constructor

/-- A counter advanced. -/
@[simp] theorem bump_frame (f : Fld) (n : Nat) :
    (s.bump f n).pending = s.pending ∧ (s.bump f n).latch = s.latch ∧ (s.bump f n).hiHold = s.hiHold ∧
    (s.bump f n).readData = s.readData ∧ (s.bump f n).free = s.free ∧ (s.bump f n).osc = s.osc ∧
    (s.bump f n).mem = s.mem ∧ (s.bump f n).host = s.host ∧ (s.bump f n).tstore = s.tstore ∧
    (s.bump f n).flash = s.flash ∧ (s.bump f n).msix = s.msix ∧ (s.bump f n).power = s.power ∧
    (s.bump f n).gov = s.gov ∧ (s.bump f n).snc = s.snc ∧ (s.bump f n).hal = s.hal ∧ (s.bump f n).arrs = s.arrs ∧
    (s.bump f n).tiles = s.tiles ∧ (s.bump f n).charter = s.charter ∧ (s.bump f n).job = s.job ∧
    (s.bump f n).engines = s.engines ∧ (s.bump f n).fre = s.fre ∧ (s.bump f n).treeC = s.treeC ∧
    (s.bump f n).treeR = s.treeR ∧ (s.bump f n).treeT = s.treeT ∧ (s.bump f n).root = s.root ∧
    (s.bump f n).fab = s.fab ∧ (s.bump f n).ens = s.ens ∧ (s.bump f n).injSeen = s.injSeen ∧
    (s.bump f n).ledger = s.ledger ∧ (s.bump f n).sec = s.sec ∧ (s.bump f n).dump = s.dump ∧
    (s.bump f n).hang = s.hang ∧ (s.bump f n).drain = s.drain ∧ (s.bump f n).sent = s.sent := by
  repeat' constructor

/-- A pair written. -/
@[simp] theorem setPair_frame (lo hi : Fld) (v : Nat) :
    (s.setPair lo hi v).pending = s.pending ∧ (s.setPair lo hi v).latch = s.latch ∧
    (s.setPair lo hi v).hiHold = s.hiHold ∧ (s.setPair lo hi v).readData = s.readData ∧
    (s.setPair lo hi v).free = s.free ∧ (s.setPair lo hi v).osc = s.osc ∧ (s.setPair lo hi v).mem = s.mem ∧
    (s.setPair lo hi v).host = s.host ∧ (s.setPair lo hi v).tstore = s.tstore ∧ (s.setPair lo hi v).flash = s.flash ∧
    (s.setPair lo hi v).msix = s.msix ∧ (s.setPair lo hi v).power = s.power ∧ (s.setPair lo hi v).gov = s.gov ∧
    (s.setPair lo hi v).snc = s.snc ∧ (s.setPair lo hi v).hal = s.hal ∧ (s.setPair lo hi v).arrs = s.arrs ∧
    (s.setPair lo hi v).tiles = s.tiles ∧ (s.setPair lo hi v).charter = s.charter ∧ (s.setPair lo hi v).job = s.job ∧
    (s.setPair lo hi v).engines = s.engines ∧ (s.setPair lo hi v).fre = s.fre ∧ (s.setPair lo hi v).treeC = s.treeC ∧
    (s.setPair lo hi v).treeR = s.treeR ∧ (s.setPair lo hi v).treeT = s.treeT ∧ (s.setPair lo hi v).root = s.root ∧
    (s.setPair lo hi v).fab = s.fab ∧ (s.setPair lo hi v).ens = s.ens ∧ (s.setPair lo hi v).injSeen = s.injSeen ∧
    (s.setPair lo hi v).ledger = s.ledger ∧ (s.setPair lo hi v).sec = s.sec ∧ (s.setPair lo hi v).dump = s.dump ∧
    (s.setPair lo hi v).hang = s.hang ∧ (s.setPair lo hi v).drain = s.drain ∧ (s.setPair lo hi v).sent = s.sent := by
  repeat' constructor

/-- A counter pair advanced. -/
@[simp] theorem bumpPair_frame (lo hi : Fld) (n : Nat) :
    (s.bumpPair lo hi n).pending = s.pending ∧ (s.bumpPair lo hi n).latch = s.latch ∧
    (s.bumpPair lo hi n).hiHold = s.hiHold ∧ (s.bumpPair lo hi n).readData = s.readData ∧
    (s.bumpPair lo hi n).free = s.free ∧ (s.bumpPair lo hi n).osc = s.osc ∧ (s.bumpPair lo hi n).mem = s.mem ∧
    (s.bumpPair lo hi n).host = s.host ∧ (s.bumpPair lo hi n).tstore = s.tstore ∧
    (s.bumpPair lo hi n).flash = s.flash ∧ (s.bumpPair lo hi n).msix = s.msix ∧
    (s.bumpPair lo hi n).power = s.power ∧ (s.bumpPair lo hi n).gov = s.gov ∧ (s.bumpPair lo hi n).snc = s.snc ∧
    (s.bumpPair lo hi n).hal = s.hal ∧ (s.bumpPair lo hi n).arrs = s.arrs ∧ (s.bumpPair lo hi n).tiles = s.tiles ∧
    (s.bumpPair lo hi n).charter = s.charter ∧ (s.bumpPair lo hi n).job = s.job ∧
    (s.bumpPair lo hi n).engines = s.engines ∧ (s.bumpPair lo hi n).fre = s.fre ∧
    (s.bumpPair lo hi n).treeC = s.treeC ∧ (s.bumpPair lo hi n).treeR = s.treeR ∧
    (s.bumpPair lo hi n).treeT = s.treeT ∧ (s.bumpPair lo hi n).root = s.root ∧ (s.bumpPair lo hi n).fab = s.fab ∧
    (s.bumpPair lo hi n).ens = s.ens ∧ (s.bumpPair lo hi n).injSeen = s.injSeen ∧
    (s.bumpPair lo hi n).ledger = s.ledger ∧ (s.bumpPair lo hi n).sec = s.sec ∧ (s.bumpPair lo hi n).dump = s.dump ∧
    (s.bumpPair lo hi n).hang = s.hang ∧ (s.bumpPair lo hi n).drain = s.drain ∧ (s.bumpPair lo hi n).sent = s.sent := by
  repeat' constructor

/-- An access that is not served. -/
@[simp] theorem badAccess_frame (f : Fld) (off : Nat) :
    (s.badAccess f off).pending = s.pending ∧ (s.badAccess f off).latch = s.latch ∧
    (s.badAccess f off).hiHold = s.hiHold ∧ (s.badAccess f off).readData = s.readData ∧
    (s.badAccess f off).free = s.free ∧ (s.badAccess f off).osc = s.osc ∧ (s.badAccess f off).mem = s.mem ∧
    (s.badAccess f off).host = s.host ∧ (s.badAccess f off).tstore = s.tstore ∧ (s.badAccess f off).flash = s.flash ∧
    (s.badAccess f off).msix = s.msix ∧ (s.badAccess f off).power = s.power ∧ (s.badAccess f off).gov = s.gov ∧
    (s.badAccess f off).snc = s.snc ∧ (s.badAccess f off).hal = s.hal ∧ (s.badAccess f off).arrs = s.arrs ∧
    (s.badAccess f off).tiles = s.tiles ∧ (s.badAccess f off).charter = s.charter ∧ (s.badAccess f off).job = s.job ∧
    (s.badAccess f off).engines = s.engines ∧ (s.badAccess f off).fre = s.fre ∧ (s.badAccess f off).treeC = s.treeC ∧
    (s.badAccess f off).treeR = s.treeR ∧ (s.badAccess f off).treeT = s.treeT ∧ (s.badAccess f off).root = s.root ∧
    (s.badAccess f off).fab = s.fab ∧ (s.badAccess f off).ens = s.ens ∧ (s.badAccess f off).injSeen = s.injSeen ∧
    (s.badAccess f off).ledger = s.ledger ∧ (s.badAccess f off).sec = s.sec ∧ (s.badAccess f off).dump = s.dump ∧
    (s.badAccess f off).hang = s.hang ∧ (s.badAccess f off).drain = s.drain ∧ (s.badAccess f off).sent = s.sent := by
  simp only [State.badAccess]; split <;> simp

/-- Registers returned to reset. -/
@[simp] theorem clearRegs_frame (p : Nat → Bool) :
    (s.clearRegs p).pending = s.pending ∧ (s.clearRegs p).readData = s.readData ∧ (s.clearRegs p).free = s.free ∧
    (s.clearRegs p).osc = s.osc ∧ (s.clearRegs p).mem = s.mem ∧ (s.clearRegs p).host = s.host ∧
    (s.clearRegs p).tstore = s.tstore ∧ (s.clearRegs p).flash = s.flash ∧ (s.clearRegs p).msix = s.msix ∧
    (s.clearRegs p).power = s.power ∧ (s.clearRegs p).gov = s.gov ∧ (s.clearRegs p).snc = s.snc ∧
    (s.clearRegs p).hal = s.hal ∧ (s.clearRegs p).arrs = s.arrs ∧ (s.clearRegs p).tiles = s.tiles ∧
    (s.clearRegs p).charter = s.charter ∧ (s.clearRegs p).job = s.job ∧ (s.clearRegs p).engines = s.engines ∧
    (s.clearRegs p).fre = s.fre ∧ (s.clearRegs p).treeC = s.treeC ∧ (s.clearRegs p).treeR = s.treeR ∧
    (s.clearRegs p).treeT = s.treeT ∧ (s.clearRegs p).root = s.root ∧ (s.clearRegs p).fab = s.fab ∧
    (s.clearRegs p).ens = s.ens ∧ (s.clearRegs p).injSeen = s.injSeen ∧ (s.clearRegs p).ledger = s.ledger ∧
    (s.clearRegs p).sec = s.sec ∧ (s.clearRegs p).dump = s.dump ∧ (s.clearRegs p).hang = s.hang ∧
    (s.clearRegs p).drain = s.drain ∧ (s.clearRegs p).sent = s.sent := by
  repeat' constructor

/-- A _LO write. -/
@[simp] theorem writeLo_frame (lo : Nat) (v : W32) :
    (s.writeLo lo v).pending = s.pending ∧ (s.writeLo lo v).latch = s.latch ∧
    (s.writeLo lo v).readData = s.readData ∧ (s.writeLo lo v).free = s.free ∧ (s.writeLo lo v).osc = s.osc ∧
    (s.writeLo lo v).mem = s.mem ∧ (s.writeLo lo v).host = s.host ∧ (s.writeLo lo v).tstore = s.tstore ∧
    (s.writeLo lo v).flash = s.flash ∧ (s.writeLo lo v).msix = s.msix ∧ (s.writeLo lo v).power = s.power ∧
    (s.writeLo lo v).gov = s.gov ∧ (s.writeLo lo v).snc = s.snc ∧ (s.writeLo lo v).hal = s.hal ∧
    (s.writeLo lo v).arrs = s.arrs ∧ (s.writeLo lo v).tiles = s.tiles ∧ (s.writeLo lo v).charter = s.charter ∧
    (s.writeLo lo v).job = s.job ∧ (s.writeLo lo v).engines = s.engines ∧ (s.writeLo lo v).fre = s.fre ∧
    (s.writeLo lo v).treeC = s.treeC ∧ (s.writeLo lo v).treeR = s.treeR ∧ (s.writeLo lo v).treeT = s.treeT ∧
    (s.writeLo lo v).root = s.root ∧ (s.writeLo lo v).fab = s.fab ∧ (s.writeLo lo v).ens = s.ens ∧
    (s.writeLo lo v).injSeen = s.injSeen ∧ (s.writeLo lo v).ledger = s.ledger ∧ (s.writeLo lo v).sec = s.sec ∧
    (s.writeLo lo v).dump = s.dump ∧ (s.writeLo lo v).hang = s.hang ∧ (s.writeLo lo v).drain = s.drain ∧
    (s.writeLo lo v).sent = s.sent := by
  repeat' constructor

/-- A store to device memory. -/
@[simp] theorem putMem_frame (a : Nat) (bs : List Byte) :
    (s.putMem a bs).pending = s.pending ∧ (s.putMem a bs).regs = s.regs ∧ (s.putMem a bs).latch = s.latch ∧
    (s.putMem a bs).hiHold = s.hiHold ∧ (s.putMem a bs).readData = s.readData ∧ (s.putMem a bs).free = s.free ∧
    (s.putMem a bs).osc = s.osc ∧ (s.putMem a bs).host = s.host ∧ (s.putMem a bs).tstore = s.tstore ∧
    (s.putMem a bs).flash = s.flash ∧ (s.putMem a bs).msix = s.msix ∧ (s.putMem a bs).power = s.power ∧
    (s.putMem a bs).gov = s.gov ∧ (s.putMem a bs).snc = s.snc ∧ (s.putMem a bs).hal = s.hal ∧
    (s.putMem a bs).arrs = s.arrs ∧ (s.putMem a bs).tiles = s.tiles ∧ (s.putMem a bs).charter = s.charter ∧
    (s.putMem a bs).job = s.job ∧ (s.putMem a bs).engines = s.engines ∧ (s.putMem a bs).fre = s.fre ∧
    (s.putMem a bs).treeC = s.treeC ∧ (s.putMem a bs).treeR = s.treeR ∧ (s.putMem a bs).treeT = s.treeT ∧
    (s.putMem a bs).root = s.root ∧ (s.putMem a bs).fab = s.fab ∧ (s.putMem a bs).ens = s.ens ∧
    (s.putMem a bs).injSeen = s.injSeen ∧ (s.putMem a bs).ledger = s.ledger ∧ (s.putMem a bs).sec = s.sec ∧
    (s.putMem a bs).dump = s.dump ∧ (s.putMem a bs).hang = s.hang ∧ (s.putMem a bs).drain = s.drain ∧
    (s.putMem a bs).sent = s.sent := by
  repeat' constructor

/-- A store to host memory. -/
@[simp] theorem putHost_frame (a : Nat) (bs : List Byte) :
    (s.putHost a bs).pending = s.pending ∧ (s.putHost a bs).regs = s.regs ∧ (s.putHost a bs).latch = s.latch ∧
    (s.putHost a bs).hiHold = s.hiHold ∧ (s.putHost a bs).readData = s.readData ∧ (s.putHost a bs).free = s.free ∧
    (s.putHost a bs).osc = s.osc ∧ (s.putHost a bs).mem = s.mem ∧ (s.putHost a bs).tstore = s.tstore ∧
    (s.putHost a bs).flash = s.flash ∧ (s.putHost a bs).msix = s.msix ∧ (s.putHost a bs).power = s.power ∧
    (s.putHost a bs).gov = s.gov ∧ (s.putHost a bs).snc = s.snc ∧ (s.putHost a bs).hal = s.hal ∧
    (s.putHost a bs).arrs = s.arrs ∧ (s.putHost a bs).tiles = s.tiles ∧ (s.putHost a bs).charter = s.charter ∧
    (s.putHost a bs).job = s.job ∧ (s.putHost a bs).engines = s.engines ∧ (s.putHost a bs).fre = s.fre ∧
    (s.putHost a bs).treeC = s.treeC ∧ (s.putHost a bs).treeR = s.treeR ∧ (s.putHost a bs).treeT = s.treeT ∧
    (s.putHost a bs).root = s.root ∧ (s.putHost a bs).fab = s.fab ∧ (s.putHost a bs).ens = s.ens ∧
    (s.putHost a bs).injSeen = s.injSeen ∧ (s.putHost a bs).ledger = s.ledger ∧ (s.putHost a bs).sec = s.sec ∧
    (s.putHost a bs).dump = s.dump ∧ (s.putHost a bs).hang = s.hang ∧ (s.putHost a bs).drain = s.drain ∧
    (s.putHost a bs).sent = s.sent := by
  repeat' constructor

/-- A store to a tile store. -/
@[simp] theorem putTile_frame (t x : Nat) (bs : List Byte) :
    (s.putTile t x bs).pending = s.pending ∧ (s.putTile t x bs).regs = s.regs ∧ (s.putTile t x bs).latch = s.latch ∧
    (s.putTile t x bs).hiHold = s.hiHold ∧ (s.putTile t x bs).readData = s.readData ∧
    (s.putTile t x bs).free = s.free ∧ (s.putTile t x bs).osc = s.osc ∧ (s.putTile t x bs).mem = s.mem ∧
    (s.putTile t x bs).host = s.host ∧ (s.putTile t x bs).flash = s.flash ∧ (s.putTile t x bs).msix = s.msix ∧
    (s.putTile t x bs).power = s.power ∧ (s.putTile t x bs).gov = s.gov ∧ (s.putTile t x bs).snc = s.snc ∧
    (s.putTile t x bs).hal = s.hal ∧ (s.putTile t x bs).arrs = s.arrs ∧ (s.putTile t x bs).tiles = s.tiles ∧
    (s.putTile t x bs).charter = s.charter ∧ (s.putTile t x bs).job = s.job ∧
    (s.putTile t x bs).engines = s.engines ∧ (s.putTile t x bs).fre = s.fre ∧ (s.putTile t x bs).treeC = s.treeC ∧
    (s.putTile t x bs).treeR = s.treeR ∧ (s.putTile t x bs).treeT = s.treeT ∧ (s.putTile t x bs).root = s.root ∧
    (s.putTile t x bs).fab = s.fab ∧ (s.putTile t x bs).ens = s.ens ∧ (s.putTile t x bs).injSeen = s.injSeen ∧
    (s.putTile t x bs).ledger = s.ledger ∧ (s.putTile t x bs).sec = s.sec ∧ (s.putTile t x bs).dump = s.dump ∧
    (s.putTile t x bs).hang = s.hang ∧ (s.putTile t x bs).drain = s.drain ∧ (s.putTile t x bs).sent = s.sent := by
  repeat' constructor

/-- A store to the flash. -/
@[simp] theorem putFlash_frame (a : Nat) (bs : List Byte) :
    (s.putFlash a bs).pending = s.pending ∧ (s.putFlash a bs).regs = s.regs ∧ (s.putFlash a bs).latch = s.latch ∧
    (s.putFlash a bs).hiHold = s.hiHold ∧ (s.putFlash a bs).readData = s.readData ∧ (s.putFlash a bs).free = s.free ∧
    (s.putFlash a bs).osc = s.osc ∧ (s.putFlash a bs).mem = s.mem ∧ (s.putFlash a bs).host = s.host ∧
    (s.putFlash a bs).tstore = s.tstore ∧ (s.putFlash a bs).msix = s.msix ∧ (s.putFlash a bs).power = s.power ∧
    (s.putFlash a bs).gov = s.gov ∧ (s.putFlash a bs).snc = s.snc ∧ (s.putFlash a bs).hal = s.hal ∧
    (s.putFlash a bs).arrs = s.arrs ∧ (s.putFlash a bs).tiles = s.tiles ∧ (s.putFlash a bs).charter = s.charter ∧
    (s.putFlash a bs).job = s.job ∧ (s.putFlash a bs).engines = s.engines ∧ (s.putFlash a bs).fre = s.fre ∧
    (s.putFlash a bs).treeC = s.treeC ∧ (s.putFlash a bs).treeR = s.treeR ∧ (s.putFlash a bs).treeT = s.treeT ∧
    (s.putFlash a bs).root = s.root ∧ (s.putFlash a bs).fab = s.fab ∧ (s.putFlash a bs).ens = s.ens ∧
    (s.putFlash a bs).injSeen = s.injSeen ∧ (s.putFlash a bs).ledger = s.ledger ∧ (s.putFlash a bs).sec = s.sec ∧
    (s.putFlash a bs).dump = s.dump ∧ (s.putFlash a bs).hang = s.hang ∧ (s.putFlash a bs).drain = s.drain ∧
    (s.putFlash a bs).sent = s.sent := by
  repeat' constructor

/-- A store to a place. -/
@[simp] theorem putPlace_frame (place t off : Nat) (bs : List Byte) :
    (s.putPlace place t off bs).pending = s.pending ∧ (s.putPlace place t off bs).regs = s.regs ∧
    (s.putPlace place t off bs).latch = s.latch ∧ (s.putPlace place t off bs).hiHold = s.hiHold ∧
    (s.putPlace place t off bs).readData = s.readData ∧ (s.putPlace place t off bs).free = s.free ∧
    (s.putPlace place t off bs).osc = s.osc ∧ (s.putPlace place t off bs).host = s.host ∧
    (s.putPlace place t off bs).flash = s.flash ∧ (s.putPlace place t off bs).msix = s.msix ∧
    (s.putPlace place t off bs).power = s.power ∧ (s.putPlace place t off bs).gov = s.gov ∧
    (s.putPlace place t off bs).snc = s.snc ∧ (s.putPlace place t off bs).hal = s.hal ∧
    (s.putPlace place t off bs).arrs = s.arrs ∧ (s.putPlace place t off bs).tiles = s.tiles ∧
    (s.putPlace place t off bs).charter = s.charter ∧ (s.putPlace place t off bs).job = s.job ∧
    (s.putPlace place t off bs).engines = s.engines ∧ (s.putPlace place t off bs).fre = s.fre ∧
    (s.putPlace place t off bs).treeC = s.treeC ∧ (s.putPlace place t off bs).treeR = s.treeR ∧
    (s.putPlace place t off bs).treeT = s.treeT ∧ (s.putPlace place t off bs).root = s.root ∧
    (s.putPlace place t off bs).fab = s.fab ∧ (s.putPlace place t off bs).ens = s.ens ∧
    (s.putPlace place t off bs).injSeen = s.injSeen ∧ (s.putPlace place t off bs).ledger = s.ledger ∧
    (s.putPlace place t off bs).sec = s.sec ∧ (s.putPlace place t off bs).dump = s.dump ∧
    (s.putPlace place t off bs).hang = s.hang ∧ (s.putPlace place t off bs).drain = s.drain ∧
    (s.putPlace place t off bs).sent = s.sent := by
  simp only [State.putPlace]; split <;> simp

/-- An array replaced. -/
@[simp] theorem putArr_frame (t a : Nat) (x : Arr) :
    (s.putArr t a x).pending = s.pending ∧ (s.putArr t a x).regs = s.regs ∧ (s.putArr t a x).latch = s.latch ∧
    (s.putArr t a x).hiHold = s.hiHold ∧ (s.putArr t a x).readData = s.readData ∧ (s.putArr t a x).free = s.free ∧
    (s.putArr t a x).osc = s.osc ∧ (s.putArr t a x).mem = s.mem ∧ (s.putArr t a x).host = s.host ∧
    (s.putArr t a x).tstore = s.tstore ∧ (s.putArr t a x).flash = s.flash ∧ (s.putArr t a x).msix = s.msix ∧
    (s.putArr t a x).power = s.power ∧ (s.putArr t a x).gov = s.gov ∧ (s.putArr t a x).snc = s.snc ∧
    (s.putArr t a x).hal = s.hal ∧ (s.putArr t a x).tiles = s.tiles ∧ (s.putArr t a x).charter = s.charter ∧
    (s.putArr t a x).job = s.job ∧ (s.putArr t a x).engines = s.engines ∧ (s.putArr t a x).fre = s.fre ∧
    (s.putArr t a x).treeC = s.treeC ∧ (s.putArr t a x).treeR = s.treeR ∧ (s.putArr t a x).treeT = s.treeT ∧
    (s.putArr t a x).root = s.root ∧ (s.putArr t a x).fab = s.fab ∧ (s.putArr t a x).ens = s.ens ∧
    (s.putArr t a x).injSeen = s.injSeen ∧ (s.putArr t a x).ledger = s.ledger ∧ (s.putArr t a x).sec = s.sec ∧
    (s.putArr t a x).dump = s.dump ∧ (s.putArr t a x).hang = s.hang ∧ (s.putArr t a x).drain = s.drain ∧
    (s.putArr t a x).sent = s.sent := by
  repeat' constructor

/-- A tile replaced. -/
@[simp] theorem putTileRec_frame (t : Nat) (x : Tile) :
    (s.putTileRec t x).pending = s.pending ∧ (s.putTileRec t x).regs = s.regs ∧ (s.putTileRec t x).latch = s.latch ∧
    (s.putTileRec t x).hiHold = s.hiHold ∧ (s.putTileRec t x).readData = s.readData ∧
    (s.putTileRec t x).free = s.free ∧ (s.putTileRec t x).osc = s.osc ∧ (s.putTileRec t x).mem = s.mem ∧
    (s.putTileRec t x).host = s.host ∧ (s.putTileRec t x).tstore = s.tstore ∧ (s.putTileRec t x).flash = s.flash ∧
    (s.putTileRec t x).msix = s.msix ∧ (s.putTileRec t x).power = s.power ∧ (s.putTileRec t x).gov = s.gov ∧
    (s.putTileRec t x).snc = s.snc ∧ (s.putTileRec t x).hal = s.hal ∧ (s.putTileRec t x).arrs = s.arrs ∧
    (s.putTileRec t x).charter = s.charter ∧ (s.putTileRec t x).job = s.job ∧
    (s.putTileRec t x).engines = s.engines ∧ (s.putTileRec t x).fre = s.fre ∧ (s.putTileRec t x).treeC = s.treeC ∧
    (s.putTileRec t x).treeR = s.treeR ∧ (s.putTileRec t x).treeT = s.treeT ∧ (s.putTileRec t x).root = s.root ∧
    (s.putTileRec t x).fab = s.fab ∧ (s.putTileRec t x).ens = s.ens ∧ (s.putTileRec t x).injSeen = s.injSeen ∧
    (s.putTileRec t x).ledger = s.ledger ∧ (s.putTileRec t x).sec = s.sec ∧ (s.putTileRec t x).dump = s.dump ∧
    (s.putTileRec t x).hang = s.hang ∧ (s.putTileRec t x).drain = s.drain ∧ (s.putTileRec t x).sent = s.sent := by
  repeat' constructor

/-- A vector sent. -/
@[simp] theorem sendMsix_frame (v : Nat) :
    (s.sendMsix v).pending = s.pending ∧ (s.sendMsix v).regs = s.regs ∧ (s.sendMsix v).latch = s.latch ∧
    (s.sendMsix v).hiHold = s.hiHold ∧ (s.sendMsix v).readData = s.readData ∧ (s.sendMsix v).free = s.free ∧
    (s.sendMsix v).osc = s.osc ∧ (s.sendMsix v).mem = s.mem ∧ (s.sendMsix v).host = s.host ∧
    (s.sendMsix v).tstore = s.tstore ∧ (s.sendMsix v).flash = s.flash ∧ (s.sendMsix v).power = s.power ∧
    (s.sendMsix v).gov = s.gov ∧ (s.sendMsix v).snc = s.snc ∧ (s.sendMsix v).hal = s.hal ∧
    (s.sendMsix v).arrs = s.arrs ∧ (s.sendMsix v).tiles = s.tiles ∧ (s.sendMsix v).charter = s.charter ∧
    (s.sendMsix v).job = s.job ∧ (s.sendMsix v).engines = s.engines ∧ (s.sendMsix v).fre = s.fre ∧
    (s.sendMsix v).treeC = s.treeC ∧ (s.sendMsix v).treeR = s.treeR ∧ (s.sendMsix v).treeT = s.treeT ∧
    (s.sendMsix v).root = s.root ∧ (s.sendMsix v).fab = s.fab ∧ (s.sendMsix v).ens = s.ens ∧
    (s.sendMsix v).injSeen = s.injSeen ∧ (s.sendMsix v).ledger = s.ledger ∧ (s.sendMsix v).sec = s.sec ∧
    (s.sendMsix v).dump = s.dump ∧ (s.sendMsix v).hang = s.hang ∧ (s.sendMsix v).drain = s.drain ∧
    (s.sendMsix v).sent = s.sent := by
  simp only [State.sendMsix]; split <;> simp

/-- A free value drawn. -/
@[simp] theorem draw_snd_frame :
    (s.draw.2).pending = s.pending ∧ (s.draw.2).regs = s.regs ∧ (s.draw.2).latch = s.latch ∧
    (s.draw.2).hiHold = s.hiHold ∧ (s.draw.2).readData = s.readData ∧ (s.draw.2).osc = s.osc ∧
    (s.draw.2).mem = s.mem ∧ (s.draw.2).host = s.host ∧ (s.draw.2).tstore = s.tstore ∧ (s.draw.2).flash = s.flash ∧
    (s.draw.2).msix = s.msix ∧ (s.draw.2).power = s.power ∧ (s.draw.2).gov = s.gov ∧ (s.draw.2).snc = s.snc ∧
    (s.draw.2).hal = s.hal ∧ (s.draw.2).arrs = s.arrs ∧ (s.draw.2).tiles = s.tiles ∧ (s.draw.2).charter = s.charter ∧
    (s.draw.2).job = s.job ∧ (s.draw.2).engines = s.engines ∧ (s.draw.2).fre = s.fre ∧ (s.draw.2).treeC = s.treeC ∧
    (s.draw.2).treeR = s.treeR ∧ (s.draw.2).treeT = s.treeT ∧ (s.draw.2).root = s.root ∧ (s.draw.2).fab = s.fab ∧
    (s.draw.2).ens = s.ens ∧ (s.draw.2).injSeen = s.injSeen ∧ (s.draw.2).ledger = s.ledger ∧ (s.draw.2).sec = s.sec ∧
    (s.draw.2).dump = s.dump ∧ (s.draw.2).hang = s.hang ∧ (s.draw.2).drain = s.drain ∧ (s.draw.2).sent = s.sent := by
  repeat' constructor

/-- The supply and the Sentinel kept. -/
@[simp] theorem withSupply_frame (t : State) :
    (s.withSupply t).pending = s.pending ∧ (s.withSupply t).regs = s.regs ∧ (s.withSupply t).latch = s.latch ∧
    (s.withSupply t).hiHold = s.hiHold ∧ (s.withSupply t).readData = s.readData ∧ (s.withSupply t).free = s.free ∧
    (s.withSupply t).osc = s.osc ∧ (s.withSupply t).mem = s.mem ∧ (s.withSupply t).host = s.host ∧
    (s.withSupply t).tstore = s.tstore ∧ (s.withSupply t).flash = s.flash ∧ (s.withSupply t).msix = s.msix ∧
    (s.withSupply t).gov = s.gov ∧ (s.withSupply t).hal = s.hal ∧ (s.withSupply t).arrs = s.arrs ∧
    (s.withSupply t).tiles = s.tiles ∧ (s.withSupply t).charter = s.charter ∧ (s.withSupply t).job = s.job ∧
    (s.withSupply t).engines = s.engines ∧ (s.withSupply t).fre = s.fre ∧ (s.withSupply t).treeC = s.treeC ∧
    (s.withSupply t).treeR = s.treeR ∧ (s.withSupply t).treeT = s.treeT ∧ (s.withSupply t).root = s.root ∧
    (s.withSupply t).fab = s.fab ∧ (s.withSupply t).ens = s.ens ∧ (s.withSupply t).injSeen = s.injSeen ∧
    (s.withSupply t).ledger = s.ledger ∧ (s.withSupply t).sec = s.sec ∧ (s.withSupply t).dump = s.dump ∧
    (s.withSupply t).hang = s.hang ∧ (s.withSupply t).drain = s.drain ∧ (s.withSupply t).sent = s.sent := by
  repeat' constructor

end Sys2Proof.Machine
end

