-- ==== Sys2Proof/Laws/Ops.lean ====
section
/-! SUPPORT. What the shared operations do: registers and fields after a write, memories after a store, and what every
command does on its way out.
-/

namespace Sys2Proof.Machine

variable (s t : State)

/-! ### Registers -/

theorem rd_wr (off j : Nat) (v : W32) : (s.wr off v).rd j = if j = off then v else s.rd j := lookup_store ..

@[simp] theorem rd_wr_same (off : Nat) (v : W32) : (s.wr off v).rd off = v := lookup_store_same ..

theorem rd_wr_other {off j : Nat} (v : W32) (h : j ≠ off) : (s.wr off v).rd j = s.rd j := lookup_store_other _ _ _ h

/-- A field of a register is a matter of State.regs alone. -/
theorem fld_congr {s t : State} (h : s.regs = t.regs) (f : Fld) : s.fld f = t.fld f := by
  simp only [State.fld, State.rd, h]

theorem rd_congr {s t : State} (h : s.regs = t.regs) (off : Nat) : s.rd off = t.rd off := by simp only [State.rd, h]

theorem flag_congr {s t : State} (h : s.regs = t.regs) (f : Fld) : s.flag f = t.flag f := by
  simp only [State.flag, fld_congr h]

/-- The field set. -/
theorem fld_setFld_same (f : Fld) (v : Nat) (h1 : f.lo ≤ f.hi) (h2 : f.hi < 32) :
    (s.setFld f v).fld f = v % 2 ^ (f.hi + 1 - f.lo) := by
  simp only [State.fld, State.setFld, rd_wr_same]
  exact bits_putBits_same _ _ h1 h2

/-- A field of another register, or of other bits. -/
theorem fld_setFld_other (f g : Fld) (v : Nat) (h1 : g.lo ≤ g.hi) (h2 : g.hi < 32)
    (h : f.off ≠ g.off ∨ f.hi < g.lo ∨ g.hi < f.lo) : (s.setFld g v).fld f = s.fld f := by
  simp only [State.fld, State.setFld]
  by_cases ho : f.off = g.off
  · rw [ho, rd_wr_same]
    exact bits_putBits_other _ _ h1 h2 (h.resolve_left (fun n => n ho))
  · rw [rd_wr_other _ _ ho]

theorem fld_wr_other (f : Fld) {off : Nat} (v : W32) (h : f.off ≠ off) : (s.wr off v).fld f = s.fld f := by
  simp only [State.fld, rd_wr_other _ _ h]

/-- An event bit reads 1 after it is set. -/
theorem fld_event_same (f : Fld) (h1 : f.lo = f.hi) (h2 : f.hi < 32) : (s.event f).fld f = 1 := by
  rw [State.event, fld_setFld_same _ _ _ (by omega) h2]
  have : f.hi + 1 - f.lo = 1 := by omega
  simp [this]

theorem fld_event_other (f g : Fld) (h1 : g.lo ≤ g.hi) (h2 : g.hi < 32)
    (h : f.off ≠ g.off ∨ f.hi < g.lo ∨ g.hi < f.lo) : (s.event g).fld f = s.fld f := fld_setFld_other s f g 1 h1 h2 h

/-- A counter after n more events; it saturates. -/
theorem fld_bump_same (f : Fld) (n : Nat) (h1 : f.lo ≤ f.hi) (h2 : f.hi < 32) :
    (s.bump f n).fld f = satAdd (f.hi + 1 - f.lo) (s.fld f) n := by
  rw [State.bump, fld_setFld_same _ _ _ h1 h2]
  apply Nat.mod_eq_of_lt
  have := satAdd_le (f.hi + 1 - f.lo) (s.fld f) n
  have := Nat.two_pow_pos (f.hi + 1 - f.lo)
  omega

theorem fld_bump_other (f g : Fld) (n : Nat) (h1 : g.lo ≤ g.hi) (h2 : g.hi < 32)
    (h : f.off ≠ g.off ∨ f.hi < g.lo ∨ g.hi < f.lo) : (s.bump g n).fld f = s.fld f := fld_setFld_other s f g _ h1 h2 h

theorem fld_lt (f : Fld) : s.fld f < 2 ^ (f.hi + 1 - f.lo) := bits_lt ..

theorem flag_iff (f : Fld) : s.flag f = true ↔ s.fld f = 1 := by simp [State.flag]

/-- Registers returned to their reset values read so. -/
theorem rd_clearRegs (p : Nat → Bool) (off : Nat) :
    (s.clearRegs p).rd off = if p off then regReset off else s.rd off := by
  simp only [State.clearRegs, State.rd]
  induction s.regs with
  | nil => simp
  | cons e m ih =>
    obtain ⟨a, v⟩ := e
    by_cases ha : p a = true
    · simp only [List.filter_cons, ha, Bool.not_true, Bool.false_eq_true, if_false, ih, lookup]
      split
      · rfl
      · next h => simp [show a ≠ off from fun e => h (e ▸ ha)]
    · simp only [List.filter_cons, ha, Bool.not_false, if_true, lookup]
      by_cases hk : a = off
      · subst hk; simp [ha]
      · simp [hk, ih]

/-! ### Memories -/

/-- A byte of device memory after a store. -/
theorem putMem_byte (a x : Nat) (bs : List Byte) : lookup memReset (s.putMem a bs).mem x =
    if a ≤ x then (bs[x - a]?).getD (lookup memReset s.mem x) else lookup memReset s.mem x := lookup_writeMany ..

/-- A byte of host memory after a store. -/
theorem putHost_byte (a x : Nat) (bs : List Byte) : lookup memReset (s.putHost a bs).host x =
    if a ≤ x then (bs[x - a]?).getD (lookup memReset s.host x) else lookup memReset s.host x := lookup_writeMany ..

@[simp] theorem memBytes_putMem (a : Nat) (bs : List Byte) : (s.putMem a bs).memBytes a bs.length = bs :=
  readMany_writeMany ..

@[simp] theorem hostBytes_putHost (a : Nat) (bs : List Byte) : (s.putHost a bs).hostBytes a bs.length = bs :=
  readMany_writeMany ..

@[simp] theorem flashBytes_putFlash (a : Nat) (bs : List Byte) : (s.putFlash a bs).flashBytes a bs.length = bs :=
  readMany_writeMany ..

theorem putMem_wf (a : Nat) (bs : List Byte) (h : Memory.wf s.mem = true) : Memory.wf (s.putMem a bs).mem = true :=
  canonical_writeMany _ _ h

theorem putHost_wf (a : Nat) (bs : List Byte) (h : Memory.wf s.host = true) : Memory.wf (s.putHost a bs).host = true :=
  canonical_writeMany _ _ h

theorem putTile_wf (x a : Nat) (bs : List Byte) (h : Memory.wf s.tstore = true) :
    Memory.wf (s.putTile x a bs).tstore = true := canonical_writeMany _ _ h

theorem putFlash_wf (a : Nat) (bs : List Byte) (h : canonical flashReset s.flash = true) :
    canonical flashReset (s.putFlash a bs).flash = true := canonical_writeMany _ _ h

theorem wr_canonical (off : Nat) (v : W32) (h : canonical regReset s.regs = true) :
    canonical regReset (s.wr off v).regs = true := canonical_store _ _ h

/-! ### Units -/

@[simp] theorem arr_putArr (x a : Nat) (y : Arr) : (s.putArr x a y).arr x a = y := lookup_store_same ..

theorem arr_putArr_other (x a x' a' : Nat) (y : Arr) (h : 8 * x' + a' ≠ 8 * x + a) :
    (s.putArr x a y).arr x' a' = s.arr x' a' := lookup_store_other _ _ _ h

@[simp] theorem tile_putTileRec (x : Nat) (y : Tile) : (s.putTileRec x y).tile x = y := lookup_store_same ..

theorem tile_putTileRec_other {x x' : Nat} (y : Tile) (h : x' ≠ x) : (s.putTileRec x y).tile x' = s.tile x' :=
  lookup_store_other _ _ _ h

/-! ### The end of a command -/

/-- A vector is sent while the link is up (R490), and nothing else changes. -/
theorem sendMsix_eq (v : Nat) (t : State) : t.sendMsix v = { t with msix := t.msix ++ if t.linkUp then [v] else [] } := by
  unfold State.sendMsix
  split <;> simp_all

theorem foldl_sendMsix (bs : List Nat) (t : State) :
    forEach bs t (fun t _ => t.sendMsix (t.fld F.HAL_EVTVEC_VEC)) =
      { t with msix := t.msix ++ List.replicate (if t.linkUp then bs.length else 0) (t.fld F.HAL_EVTVEC_VEC) } := by
  induction bs generalizing t with
  | nil => simp [forEach]
  | cons b bs ih =>
    have := ih (t.sendMsix (t.fld F.HAL_EVTVEC_VEC))
    simp only [forEach, List.foldl_cons] at this ⊢
    rw [this, sendMsix_eq]
    change { t with msix := _ ++ List.replicate (if t.linkUp then bs.length else 0) (t.fld F.HAL_EVTVEC_VEC) } = _
    cases t.linkUp <;> simp [List.replicate_succ]

/-- The event vector changes nothing but the vectors sent (R684). -/
theorem evtSignal_eq : ∃ n, evtSignal s t = { t with msix := t.msix ++ List.replicate n (t.fld F.HAL_EVTVEC_VEC) } :=
  ⟨_, foldl_sendMsix _ _⟩

/-- A command's end: a next state that is the effect's, with the queue as before and perhaps the event vector. -/
theorem finish_eq : ∃ n, finish s t =
    .next { t with msix := t.msix ++ List.replicate n (t.fld F.HAL_EVTVEC_VEC), pending := s.pending } := by
  obtain ⟨n, h⟩ := evtSignal_eq s t
  exact ⟨n, by rw [finish, h]⟩

/-- An effect on a powered package. -/
theorem act_on (f : State → State) (h : s.power.on = true) : act s f = finish s ((f s).withSupply s) := by simp [act, h]

/-- An effect on an unpowered package: none (R4). -/
theorem act_off (f : State → State) (h : s.power.on = false) : act s f = .next s := by simp [act, h]

theorem actWhole_on (f : State → State) (h : s.power.on = true) : actWhole s f = finish s (f s) := by simp [actWhole, h]

theorem actWhole_off (f : State → State) (h : s.power.on = false) : actWhole s f = .next s := by simp [actWhole, h]

/-- What a command of act leaves: the queue, the supply and the Sentinel. -/
theorem act_frame (f : State → State) : ∃ u, act s f = .next u ∧ u.pending = s.pending ∧ u.power = s.power ∧ u.snc = s.snc := by
  by_cases h : s.power.on = true
  · rw [act_on _ _ h]
    obtain ⟨n, hn⟩ := finish_eq s ((f s).withSupply s)
    exact ⟨_, hn, rfl, rfl, rfl⟩
  · exact ⟨s, act_off _ _ (by simpa using h), rfl, rfl, rfl⟩

theorem actWhole_frame (f : State → State) : ∃ u, actWhole s f = .next u ∧ u.pending = s.pending := by
  by_cases h : s.power.on = true
  · rw [actWhole_on _ _ h]
    obtain ⟨n, hn⟩ := finish_eq s (f s)
    exact ⟨_, hn, rfl⟩
  · exact ⟨s, actWhole_off _ _ (by simpa using h), rfl⟩

/-- A BAR0 access to a served offset. -/
theorem serve_on (off : Nat) (f : State → State) (h : s.served off = true) : s.serve off f = f s := by simp [State.serve, h]

theorem serveRead_on (off : Nat) (f : State → W32 × State) (h : s.served off = true) :
    s.serveRead off f = { (f s).2 with readData := (f s).1.toNat } := by simp [State.serveRead, h]

/-- Outside recovery mode every offset is served (R681). -/
theorem served_normal (off : Nat) (h : s.inRecovery = false) : s.served off = true := by simp [State.served, h]

end Sys2Proof.Machine
end

