-- ==== Sys2Proof/Laws/Answers.lean ====
section
/-! SUPPORT. What a command answers: the next state of act, actWhole and the host accesses, read field by field.
-/

namespace Sys2Proof.Machine

variable {s t u : State}

/-! ### The state that a command ends in -/

/-- The registers, memories and units of the state that ends a command. -/
theorem Ends.frame (h : Ends s u t) :
    (t.pending = s.pending ∧ t.regs = u.regs ∧ t.latch = u.latch ∧ t.hiHold = u.hiHold ∧ t.readData = u.readData ∧
      t.free = u.free ∧ t.osc = u.osc ∧ t.mem = u.mem ∧ t.host = u.host ∧ t.tstore = u.tstore ∧ t.flash = u.flash) ∧
    (t.power = u.power ∧ t.gov = u.gov ∧ t.snc = u.snc ∧ t.hal = u.hal ∧ t.arrs = u.arrs ∧ t.tiles = u.tiles ∧
      t.charter = u.charter ∧ t.job = u.job ∧ t.engines = u.engines ∧ t.fre = u.fre ∧ t.treeC = u.treeC ∧
      t.treeR = u.treeR ∧ t.treeT = u.treeT) ∧
    (t.root = u.root ∧ t.fab = u.fab ∧ t.ens = u.ens ∧ t.injSeen = u.injSeen ∧ t.ledger = u.ledger ∧ t.sec = u.sec ∧
      t.dump = u.dump ∧ t.hang = u.hang ∧ t.sent = u.sent) := by
  obtain ⟨n, rfl⟩ := h
  repeat' constructor

/-- As Ends.frame, for an effect that reaches neither the supply nor the Sentinel. -/
theorem Became.frame (h : Became s u t) :
    (t.pending = s.pending ∧ t.regs = u.regs ∧ t.latch = u.latch ∧ t.hiHold = u.hiHold ∧ t.readData = u.readData ∧
      t.free = u.free ∧ t.osc = u.osc ∧ t.mem = u.mem ∧ t.host = u.host ∧ t.tstore = u.tstore ∧ t.flash = u.flash) ∧
    (t.power = s.power ∧ t.gov = u.gov ∧ t.snc = s.snc ∧ t.hal = u.hal ∧ t.arrs = u.arrs ∧ t.tiles = u.tiles ∧
      t.charter = u.charter ∧ t.job = u.job ∧ t.engines = u.engines ∧ t.fre = u.fre ∧ t.treeC = u.treeC ∧
      t.treeR = u.treeR ∧ t.treeT = u.treeT) ∧
    (t.root = u.root ∧ t.fab = u.fab ∧ t.ens = u.ens ∧ t.injSeen = u.injSeen ∧ t.ledger = u.ledger ∧ t.sec = u.sec ∧
      t.dump = u.dump ∧ t.hang = u.hang ∧ t.sent = u.sent) := by
  obtain ⟨n, rfl⟩ := h
  repeat' constructor

theorem Became.fld (h : Became s u t) (f : Fld) : t.fld f = u.fld f := fld_congr h.frame.1.2.1 f
theorem Became.rd (h : Became s u t) (o : Nat) : t.rd o = u.rd o := rd_congr h.frame.1.2.1 o
theorem Became.flag (h : Became s u t) (f : Fld) : t.flag f = u.flag f := flag_congr h.frame.1.2.1 f
theorem Ends.fld (h : Ends s u t) (f : Fld) : t.fld f = u.fld f := fld_congr h.frame.1.2.1 f
theorem Ends.rd (h : Ends s u t) (o : Nat) : t.rd o = u.rd o := rd_congr h.frame.1.2.1 o

/-! ### Answers -/

theorem finish_ends (s u : State) : ∃ t, finish s u = .next t ∧ Ends s u t := by
  obtain ⟨n, h⟩ := finish_eq s u
  exact ⟨_, h, n, rfl⟩

/-- A command whose effect is f answers a next state that f gives. -/
theorem act_became (f : State → State) (h : s.power.on = true) : ∃ t, act s f = .next t ∧ Became s (f s) t := by
  rw [act_on _ _ h]
  exact finish_ends ..

theorem actWhole_ends (f : State → State) (h : s.power.on = true) : ∃ t, actWhole s f = .next t ∧ Ends s (f s) t := by
  rw [actWhole_on _ _ h]
  exact finish_ends ..

theorem hostReg_became {off : Nat} (f : State → State) (h : Reach s off) :
    ∃ t, hostReg off s f = .next t ∧ Became s (f s) t := by
  obtain ⟨t, h1, h2⟩ := act_became (fun s => s.serve off f) h.1
  rw [serve_on s off f h.2] at h2
  exact ⟨t, h1, h2⟩

theorem hostRead_became {off : Nat} (f : State → W32 × State) (h : Reach s off) :
    ∃ t, hostRead off s f = .next t ∧ Became s { (f s).2 with readData := (f s).1.toNat } t := by
  obtain ⟨t, h1, h2⟩ := act_became (fun s => s.serveRead off f) h.1
  rw [serveRead_on s off f h.2] at h2
  exact ⟨t, h1, h2⟩

theorem sncReg_ends {off : Nat} (f : State → State) (h : Reach s off) :
    ∃ t, sncReg off s f = .next t ∧ Ends s (f s) t := by
  obtain ⟨t, h1, h2⟩ := actWhole_ends (fun s => s.serve off f) h.1
  rw [serve_on s off f h.2] at h2
  exact ⟨t, h1, h2⟩

theorem sncRead_ends {off : Nat} (f : State → W32 × State) (h : Reach s off) :
    ∃ t, sncRead off s f = .next t ∧ Ends s { (f s).2 with readData := (f s).1.toNat } t := by
  obtain ⟨t, h1, h2⟩ := actWhole_ends (fun s => s.serveRead off f) h.1
  rw [serveRead_on s off f h.2] at h2
  exact ⟨t, h1, h2⟩

/-- The summary follows the registers alone, so an effect that leaves them sends no event vector. -/
theorem evtSignal_same (h : s.regs = u.regs) : evtSignal s u = u := by
  have hm : s.masked = u.masked := by simp [State.masked, State.evtSum, fld_congr h, h]
  have hf : (List.range 14).filter (fun b => u.masked.testBit b && !u.masked.testBit b) = [] := by simp
  rw [evtSignal, hm, hf]
  rfl

theorem finish_same (h : s.regs = u.regs) (hp : u.pending = s.pending) : finish s u = .next u := by
  rw [finish, evtSignal_same h, ← hp]

/-- A state whose registers are at their reset values raises nothing. -/
theorem evtSignal_clear (h : u.regs = []) : evtSignal s u = u := by
  have hm : u.masked = 0 := by simp [State.masked, State.evtSum, h]
  unfold evtSignal
  simp only [hm, Nat.zero_testBit, Bool.false_and]
  rfl

theorem finish_clear (h : u.regs = []) (hp : u.pending = s.pending) : finish s u = .next u := by
  rw [finish, evtSignal_clear h, ← hp]

/-- Without an armed injection a point is passed without an effect (R573). -/
theorem inject_unarmed (h : Unarmed s) (point unit sub col acc : Nat) : s.inject point unit sub col acc = (false, s) := by
  simp [State.inject, show s.flag F.INJ_CTRL_ARM = false from h]

theorem injectMany_unarmed (h : Unarmed s) (point unit acc n : Nat) : s.injectMany point unit acc n = (none, s) := by
  simp [State.injectMany, show s.flag F.INJ_CTRL_ARM = false from h]

/-! ### Loss of power -/

theorem powerDown_dark (s : State) : s.powerDown.dark := by
  unfold State.powerDown State.dark State.reset
  simp

/-- A command that ends in the unpowered package. -/
theorem finish_lost (s : State) (p : Power) (hp : p.on = false) :
    finish s { s.powerDown with power := p } = .next { s.powerDown with power := p } ∧
      PowerLost s { s.powerDown with power := p } :=
  ⟨finish_clear rfl rfl, hp, powerDown_dark s, rfl, rfl, rfl, rfl⟩

/-! ### The ceiling (R516) -/

/-- Of ceilings in ascending code, the lowest with the lowest code. -/
theorem lowestCeil_spec (b : Nat × ℚ) (cs : List (Nat × ℚ)) (hs : (b :: cs).Pairwise (fun x y => x.1 < y.1)) :
    lowestCeil b cs ∈ b :: cs ∧
      ∀ c ∈ b :: cs, (lowestCeil b cs).2 ≤ c.2 ∧ (c.2 = (lowestCeil b cs).2 → (lowestCeil b cs).1 ≤ c.1) := by
  induction cs generalizing b with
  | nil => simp [lowestCeil]
  | cons c cs ih =>
    simp only [lowestCeil]
    split
    · have h := ih c (by simp at hs ⊢; exact hs.2)
      refine ⟨by simp at h ⊢; tauto, fun d hd => ?_⟩
      rcases List.mem_cons.mp hd with rfl | hd
      · have h2 := (h.2 c (by simp)).1
        exact ⟨by linarith, fun e => by linarith⟩
      · exact h.2 d hd
    · have h := ih b (by simp at hs ⊢; exact ⟨hs.1.2, hs.2.2⟩)
      refine ⟨by simp at h ⊢; tauto, fun d hd => ?_⟩
      rcases List.mem_cons.mp hd with rfl | hd
      · exact h.2 d (by simp)
      · rcases List.mem_cons.mp hd with rfl | hd
        · have h2 := h.2 b (by simp)
          have h3 : b.1 < d.1 := by simp at hs; exact hs.1.1
          refine ⟨by linarith, fun e => ?_⟩
          have : (lowestCeil b cs).1 ≤ b.1 := h2.2 (by linarith)
          omega
        · exact h.2 d (by simp [hd])

/-! ### Fields set -/

/-- Fields set one after the other. -/
def setAll (s : State) (ws : List (Fld × Nat)) : State := ws.foldl (fun s w => s.setFld w.1 w.2) s

/-- Fields that lie inside a register and share no bit. -/
def Apart : List (Fld × Nat) → Prop
  | [] => True
  | w :: ws => (w.1.lo ≤ w.1.hi ∧ w.1.hi < 32 ∧ ∀ x ∈ ws, w.1.off ≠ x.1.off ∨ w.1.hi < x.1.lo ∨ x.1.hi < w.1.lo) ∧ Apart ws

theorem setAll_only (ws : List (Fld × Nat)) (s : State) : setAll s ws = { s with regs := (setAll s ws).regs } := by
  induction ws generalizing s with
  | nil => rfl
  | cons w ws ih => exact (ih (s.setFld w.1 w.2)).trans rfl

theorem setAll_other (ws : List (Fld × Nat)) (s : State) (hd : Apart ws) (f : Fld)
    (hf : ∀ w ∈ ws, f.off ≠ w.1.off ∨ f.hi < w.1.lo ∨ w.1.hi < f.lo) : (setAll s ws).fld f = s.fld f := by
  induction ws generalizing s with
  | nil => rfl
  | cons w ws ih =>
    have h1 := ih (s.setFld w.1 w.2) hd.2 (fun x hx => hf x (by simp [hx]))
    exact h1.trans (fld_setFld_other _ _ _ _ hd.1.1 hd.1.2.1 (hf w (by simp)))

theorem setAll_same (ws : List (Fld × Nat)) (s : State) (hd : Apart ws) :
    ∀ w ∈ ws, (setAll s ws).fld w.1 = w.2 % 2 ^ (w.1.hi + 1 - w.1.lo) := by
  induction ws generalizing s with
  | nil => simp
  | cons w ws ih =>
    intro x hx
    rcases List.mem_cons.mp hx with rfl | hx
    · have := setAll_other ws (s.setFld x.1 x.2) hd.2 x.1 hd.1.2.2
      exact this.trans (fld_setFld_same _ _ _ hd.1.1 hd.1.2.1)
    · exact ih (s.setFld w.1 w.2) hd.2 x hx

/-- A state that fields set on s give changes those and nothing else. -/
theorem changes_of_setAll (ws : List (Fld × Nat)) (hd : Apart ws) (hp : t.pending = s.pending)
    (hm : ∃ n, t.msix = s.msix ++ List.replicate n (t.fld F.HAL_EVTVEC_VEC)) (hr : t.regs = (setAll s ws).regs) (ht : t = { s with regs := t.regs, msix := t.msix, pending := t.pending }) : Changes s t ws := by
  refine ⟨?_, hm, fun w hw => ?_, fun f hf => ?_⟩
  · rw [hp] at ht; exact ht
  · rw [fld_congr hr]; exact setAll_same ws s hd w hw
  · rw [fld_congr hr]; exact setAll_other ws s hd f hf

theorem Became.changes {ws : List (Fld × Nat)} (h : Became s (setAll s ws) t) (hd : Apart ws) : Changes s t ws := by
  obtain ⟨n, rfl⟩ := h
  refine changes_of_setAll ws hd rfl ⟨n, ?_⟩ rfl ?_
  · have hm : (setAll s ws).msix = s.msix := by rw [setAll_only ws s]
    simp only [State.withSupply, hm]
    rfl
  · simp only [State.withSupply]
    rw [setAll_only ws s]

/-- A command that sets fields. -/
theorem act_changes {f : State → State} {ws : List (Fld × Nat)} (h : s.power.on = true) (hf : f s = setAll s ws)
    (hd : Apart ws) : ∃ t, act s f = .next t ∧ Changes s t ws := by
  obtain ⟨t, h1, h2⟩ := act_became f h
  exact ⟨t, h1, Became.changes (hf ▸ h2) hd⟩

theorem hostReg_changes {off : Nat} {f : State → State} {ws : List (Fld × Nat)} (h : Reach s off)
    (hf : f s = setAll s ws) (hd : Apart ws) : ∃ t, hostReg off s f = .next t ∧ Changes s t ws := by
  obtain ⟨t, h1, h2⟩ := hostReg_became f h
  exact ⟨t, h1, Became.changes (hf ▸ h2) hd⟩

end Sys2Proof.Machine
end

