-- ==== Sys2Proof/Laws/PerInstr.lean ====
section
/-! SUPPORT. Statements about every command as syntax, one lemma per command.
-/

namespace Sys2Proof.Laws.Bar0

open Sys2Proof.Machine

/-- A well-formed register access lies in the 64 MiB of BAR0 (R456). -/
def Statement (i : Instr) : Prop :=
  i.wf = true → ∀ (off : Nat) (write : Bool), i.bar0 = some (off, write) → off < 2 ^ 26

/-- A command that accesses no register. -/
theorem no_access {i : Instr} (h : i.bar0 = none) : Statement i := by
  intro _ off write e
  simp [h] at e

/-- A command whose access lies at a known offset. -/
theorem one {o off : Nat} {w write : Bool} (e : some (o, w) = some (off, write)) (h : o < 2 ^ 26) : off < 2 ^ 26 := by
  cases e
  exact h

theorem powerUp (h0fail : Bool) (strap : Bool) : Statement (.powerUp h0fail strap) := no_access rfl
theorem inputQualify (vin : Nat) : Statement (.inputQualify vin) := no_access rfl
theorem inputOvervoltage (vin : Nat) : Statement (.inputOvervoltage vin) := no_access rfl
theorem inputAboveRange (vin : Nat) : Statement (.inputAboveRange vin) := no_access rfl
theorem inputUndervoltageHold (vin : Nat) : Statement (.inputUndervoltageHold vin) := no_access rfl
theorem inputUndervoltageOff (vin : Nat) : Statement (.inputUndervoltageOff vin) := no_access rfl
theorem inputOvercurrent : Statement .inputOvercurrent := no_access rfl
theorem studImbalance : Statement .studImbalance := no_access rfl
theorem efuseTrip (rail : Nat) : Statement (.efuseTrip rail) := no_access rfl
theorem phaseLoss (rail : Nat) (droop : Bool) : Statement (.phaseLoss rail droop) := no_access rfl
theorem railBackInBand (rail : Nat) : Statement (.railBackInBand rail) := no_access rfl
theorem oscillatorFault : Statement .oscillatorFault := no_access rfl
theorem governorInterval (power : Nat) (mean : Nat) : Statement (.governorInterval power mean) := no_access rfl
theorem beatMeasurement (west : Nat) (east : Nat) : Statement (.beatMeasurement west east) := no_access rfl
theorem paceWindowEnd (mean : Nat) (idle : Bool) : Statement (.paceWindowEnd mean idle) := no_access rfl
theorem flowInference (power : Nat) (dt : Nat) : Statement (.flowInference power dt) := no_access rfl
theorem throttle : Statement .throttle := no_access rfl
theorem thermalTrip : Statement .thermalTrip := no_access rfl
theorem thermalTripClear : Statement .thermalTripClear := no_access rfl
theorem thermalTripHalt : Statement .thermalTripHalt := no_access rfl
theorem govCtrlWrite (v : W32) : Statement (.govCtrlWrite v) := fun hw _ _ e => one (o := R.GOV_CTRL) e (by decide)
theorem govSetWrite (v : W32) : Statement (.govSetWrite v) := fun hw _ _ e => one (o := R.GOV_SET) e (by decide)
theorem sentinelResult (urgent : Bool) (codes : List Nat) : Statement (.sentinelResult urgent codes) := no_access rfl
theorem sentinelPowerDown : Statement .sentinelPowerDown := no_access rfl
theorem sentinelStartUp : Statement .sentinelStartUp := no_access rfl
theorem sentinelLoopEnd : Statement .sentinelLoopEnd := no_access rfl
theorem urgentRequest (chan : Nat) (who : UrgBy) : Statement (.urgentRequest chan who) := no_access rfl
theorem sncUrgWrite (chan : Nat) : Statement (.sncUrgWrite chan) := fun hw _ _ e => one (o := R.SNC_URG) e (by decide)
theorem sncQstatRead : Statement .sncQstatRead := fun hw _ _ e => one (o := R.SNC_QSTAT) e (by decide)
theorem sncThrWrite (chan : Nat) (v : W32) : Statement (.sncThrWrite chan v) := fun hw _ _ e => one (o := R.SNC_THR (chan % 64)) e (by
  replace hw : (decide (chan < 64)) = true := hw
  simp only [decide_eq_true_eq] at hw
  simp only [R.SNC_THR]; omega)
theorem shadowTableWrite (entry : Nat) (word : Nat) (v : W32) : Statement (.shadowTableWrite entry word v) := fun hw _ _ e => one (o := if word % 2 = 0 then R.SNC_SEQB_W0 (entry % 48) else R.SNC_SEQB_W1 (entry % 48)) e (by
  replace hw : (decide (entry < 48) && decide (word < 2)) = true := hw
  simp only [Bool.and_eq_true, decide_eq_true_eq] at hw
  split <;> simp only [R.SNC_SEQB_W0, R.SNC_SEQB_W1] <;> omega)
theorem swap : Statement .swap := fun hw _ _ e => one (o := R.SNC_CTRL) e (by decide)
theorem sncCntClr : Statement .sncCntClr := fun hw _ _ e => one (o := R.SNC_CTRL) e (by decide)
theorem perstNAssert : Statement .perstNAssert := no_access rfl
theorem flr : Statement .flr := no_access rfl
theorem hostLinkDown : Statement .hostLinkDown := no_access rfl
theorem hostLinkRetrain : Statement .hostLinkRetrain := no_access rfl
theorem hostMemoryFault (acc : Nat) : Statement (.hostMemoryFault acc) := no_access rfl
theorem getVersion (req : List Byte) : Statement (.getVersion req) := no_access rfl
theorem getCapabilities (req : List Byte) : Statement (.getCapabilities req) := no_access rfl
theorem negotiateAlgorithms (req : List Byte) : Statement (.negotiateAlgorithms req) := no_access rfl
theorem getDigests (req : List Byte) : Statement (.getDigests req) := no_access rfl
theorem getCertificate (req : List Byte) : Statement (.getCertificate req) := no_access rfl
theorem challenge (req : List Byte) : Statement (.challenge req) := no_access rfl
theorem getMeasurements (req : List Byte) : Statement (.getMeasurements req) := no_access rfl
theorem commandDoorbell (h : Nat) (v : W32) : Statement (.commandDoorbell h v) := no_access rfl
theorem feedDoorbell (f : Nat) (v : W32) : Statement (.feedDoorbell f v) := no_access rfl
theorem checkpointDoorbell (v : W32) : Statement (.checkpointDoorbell v) := no_access rfl
theorem halEnable (h : Nat) : Statement (.halEnable h) := fun hw _ _ e => one (o := R.HAL_CTRL h) e (by
  replace hw : (decide (h < 17)) = true := hw
  simp only [decide_eq_true_eq] at hw
  simp only [R.HAL_CTRL]; omega)
theorem halStop (h : Nat) : Statement (.halStop h) := fun hw _ _ e => one (o := R.HAL_CTRL h) e (by
  replace hw : (decide (h < 17)) = true := hw
  simp only [decide_eq_true_eq] at hw
  simp only [R.HAL_CTRL]; omega)
theorem halyardStopped (h : Nat) : Statement (.halyardStopped h) := no_access rfl
theorem commandFetch (h : Nat) : Statement (.commandFetch h) := no_access rfl
theorem halCqheadWrite (h : Nat) (v : W32) : Statement (.halCqheadWrite h v) := fun hw _ _ e => one (o := R.HAL_CQHEAD h) e (by
  replace hw : (decide (h < 17)) = true := hw
  simp only [decide_eq_true_eq] at hw
  simp only [R.HAL_CQHEAD]; omega)
theorem halIrqWrite (h : Nat) (v : W32) : Statement (.halIrqWrite h v) := fun hw _ _ e => one (o := R.HAL_IRQ h) e (by
  replace hw : (decide (h < 17)) = true := hw
  simp only [decide_eq_true_eq] at hw
  simp only [R.HAL_IRQ]; omega)
theorem irqAgeTimeout (h : Nat) : Statement (.irqAgeTimeout h) := no_access rfl
theorem nop (acc : Nat) : Statement (.nop acc) := no_access rfl
theorem load (acc : Nat) (addr : Nat) (len : Nat) : Statement (.load acc addr len) := no_access rfl
theorem start (acc : Nat) (ctx : Nat) : Statement (.start acc ctx) := no_access rfl
theorem stop (acc : Nat) (step : Nat) : Statement (.stop acc step) := no_access rfl
theorem unload (acc : Nat) : Statement (.unload acc) := no_access rfl
theorem abort (acc : Nat) (target : Nat) : Statement (.abort acc target) := no_access rfl
theorem checkpoint (acc : Nat) : Statement (.checkpoint acc) := no_access rfl
theorem restore (acc : Nat) (list : Nat) (count : Nat) : Statement (.restore acc list count) := no_access rfl
theorem copy (acc : Nat) (src : Nat) (dst : Nat) (n : Nat) (ss : Nat) (ds : Nat) : Statement (.copy acc src dst n ss ds) := no_access rfl
theorem retire (acc : Nat) (tile : Nat) (array : Nat) (bank : Nat) (col : Nat) : Statement (.retire acc tile array bank col) := no_access rfl
theorem test (acc : Nat) (tile : Nat) (kind : Nat) (mode : Nat) (subject : Nat) : Statement (.test acc tile kind mode subject) := no_access rfl
theorem tensor (acc : Nat) (record : List Byte) : Statement (.tensor acc record) := no_access rfl
theorem mvm (c : TileCmd) : Statement (.mvm c) := no_access rfl
theorem opeProduct (c : TileCmd) : Statement (.opeProduct c) := no_access rfl
theorem dpaProduct (c : TileCmd) : Statement (.dpaProduct c) := no_access rfl
theorem lnf (c : TileCmd) : Statement (.lnf c) := no_access rfl
theorem rmsf (c : TileCmd) : Statement (.rmsf c) := no_access rfl
theorem smf (c : TileCmd) : Statement (.smf c) := no_access rfl
theorem lnb (c : TileCmd) : Statement (.lnb c) := no_access rfl
theorem rmsb (c : TileCmd) : Statement (.rmsb c) := no_access rfl
theorem smb (c : TileCmd) : Statement (.smb c) := no_access rfl
theorem xent (c : TileCmd) : Statement (.xent c) := no_access rfl
theorem convert (c : TileCmd) : Statement (.convert c) := no_access rfl
theorem amax (c : TileCmd) : Statement (.amax c) := no_access rfl
theorem stash (c : TileCmd) : Statement (.stash c) := no_access rfl
theorem unstash (c : TileCmd) : Statement (.unstash c) := no_access rfl
theorem send (c : TileCmd) : Statement (.send c) := no_access rfl
theorem gradadd (c : TileCmd) : Statement (.gradadd c) := no_access rfl
theorem tilNstatRead (t : Nat) : Statement (.tilNstatRead t) := fun hw _ _ e => one (o := R.TIL_NSTAT t) e (by
  replace hw : (decide (t < 512)) = true := hw
  simp only [decide_eq_true_eq] at hw
  simp only [R.TIL_NSTAT]; omega)
theorem tilRseLossHiRead (t : Nat) : Statement (.tilRseLossHiRead t) := fun hw _ _ e => one (o := R.TIL_RSE_LOSS_HI t) e (by
  replace hw : (decide (t < 512)) = true := hw
  simp only [decide_eq_true_eq] at hw
  simp only [R.TIL_RSE_LOSS_HI]; omega)
theorem arrayMvm (t : Nat) (a : Nat) (acc : Nat) (index : Nat) (slice : Nat) (np : Bool) (e : Int) (d : List Int) : Statement (.arrayMvm t a acc index slice np e d) := no_access rfl
theorem converterPowerDown (t : Nat) (a : Nat) : Statement (.converterPowerDown t a) := no_access rfl
theorem arrCntClr (t : Nat) (a : Nat) : Statement (.arrCntClr t a) := fun hw _ _ e => one (o := R.ARR_CTRL t a) e (by
  replace hw : (decide (t < 512) && decide (a < 8)) = true := hw
  simp only [Bool.and_eq_true, decide_eq_true_eq] at hw
  simp only [R.ARR_CTRL]; omega)
theorem residualCorrection (t : Nat) (a : Nat) (np : Bool) (stalled : Bool) : Statement (.residualCorrection t a np stalled) := no_access rfl
theorem cover (t : Nat) (a : Nat) (np : Bool) (held : Bool) : Statement (.cover t a np held) := no_access rfl
theorem coverStaging (t : Nat) : Statement (.coverStaging t) := no_access rfl
theorem panelFetch (t : Nat) (a : Nat) (panel : Nat) : Statement (.panelFetch t a panel) := no_access rfl
theorem stationaryOperandFetch (t : Nat) (tensor : Nat) (waited : Nat) : Statement (.stationaryOperandFetch t tensor waited) := no_access rfl
theorem opeCntClr (t : Nat) : Statement (.opeCntClr t) := fun hw _ _ e => one (o := R.OPE_CTRL t) e (by
  replace hw : (decide (t < 512)) = true := hw
  simp only [decide_eq_true_eq] at hw
  simp only [R.OPE_CTRL]; omega)
theorem rewriteStart (t : Nat) (a : Nat) : Statement (.rewriteStart t a) := no_access rfl
theorem bankClear (t : Nat) (a : Nat) : Statement (.bankClear t a) := no_access rfl
theorem programmingCycle (t : Nat) : Statement (.programmingCycle t) := no_access rfl
theorem programmingSuspend (t : Nat) (a : Nat) : Statement (.programmingSuspend t a) := no_access rfl
theorem refreshIntervalExpiry : Statement .refreshIntervalExpiry := no_access rfl
theorem rvnow : Statement .rvnow := fun hw _ _ e => one (o := R.HUB_PRGCMD) e (by decide)
theorem remap (t : Nat) (a : Nat) (b : Nat) (j : Nat) (cause : Nat) : Statement (.remap t a b j cause) := no_access rfl
theorem activeBankReverify (t : Nat) (a : Nat) : Statement (.activeBankReverify t a) := no_access rfl
theorem residualMeasurement (t : Nat) (a : Nat) : Statement (.residualMeasurement t a) := no_access rfl
theorem factorBuild (t : Nat) (a : Nat) : Statement (.factorBuild t a) := no_access rfl
theorem pn4ImageBuild (t : Nat) (a : Nat) (b : Nat) : Statement (.pn4ImageBuild t a b) := no_access rfl
theorem groupSpill (t : Nat) : Statement (.groupSpill t) := no_access rfl
theorem groupReload (t : Nat) (acc : Nat) : Statement (.groupReload t acc) := no_access rfl
theorem itemSelect : Statement .itemSelect := no_access rfl
theorem phaseChange : Statement .phaseChange := no_access rfl
theorem halfDrained (half : Nat) : Statement (.halfDrained half) := no_access rfl
theorem stepBoundary : Statement .stepBoundary := no_access rfl
theorem feedDescriptorCopy (ring : Nat) : Statement (.feedDescriptorCopy ring) := no_access rfl
theorem bucketSend : Statement .bucketSend := no_access rfl
theorem reductionSegment (payload : List Byte) : Statement (.reductionSegment payload) := no_access rfl
theorem segmentDelivery (shard : Nat) (offset : Nat) : Statement (.segmentDelivery shard offset) := no_access rfl
theorem contrib (step : Nat) (span : Nat) (hi : W32) (lo : W32) (sat : Bool) : Statement (.contrib step span hi lo sat) := no_access rfl
theorem clipMessage (gnorm : W32) (kappa : W32) : Statement (.clipMessage gnorm kappa) := no_access rfl
theorem updateApplyComplete (n : Nat) : Statement (.updateApplyComplete n) := no_access rfl
theorem report (step : Nat) (span : Nat) (status : Nat) (part : Nat) (layers : List LayerSums) : Statement (.report step span status part layers) := no_access rfl
theorem trust (step : Nat) (down : Bool) (span : Nat) (part : Nat) (layers : List LayerSums) : Statement (.trust step down span part layers) := no_access rfl
theorem vreq (step : Nat) (cause : Nat) (shard : Nat) (source : Nat) : Statement (.vreq step cause shard source) := no_access rfl
theorem outcome (step : Nat) (veto : Bool) (cause : Nat) (ratios : List W32) : Statement (.outcome step veto cause ratios) := no_access rfl
theorem ack (step : Nat) (source : Nat) : Statement (.ack step source) := no_access rfl
theorem parameterMessage (payload : List Byte) : Statement (.parameterMessage payload) := no_access rfl
theorem ready (id : W64) (crc : W32) (source : Nat) : Statement (.ready id crc source) := no_access rfl
theorem activationMessage (back : Bool) (mb : Nat) (tensor : Nat) (off : Nat) (bytes : List Byte) : Statement (.activationMessage back mb tensor off bytes) := no_access rfl
theorem creditReturn (back : Bool) (n : Nat) : Statement (.creditReturn back n) := no_access rfl
theorem freCntClr : Statement .freCntClr := fun hw _ _ e => one (o := R.FRE_CTRL) e (by decide)
theorem freOutcomeRead : Statement .freOutcomeRead := fun hw _ _ e => one (o := R.FRE_OUTCOME) e (by decide)
theorem updGnormRead (n : Nat) : Statement (.updGnormRead n) := fun hw _ _ e => one (o := R.UPD_GNORM n) e (by
  replace hw : (decide (n < 8)) = true := hw
  simp only [decide_eq_true_eq] at hw
  simp only [R.UPD_GNORM]; omega)
theorem linkTraining (p : Nat) (t : Training) : Statement (.linkTraining p t) := no_access rfl
theorem trainingRetry (p : Nat) (t : Training) : Statement (.trainingRetry p t) := no_access rfl
theorem linkFrame (p : Nat) (b : List Byte) : Statement (.linkFrame p b) := no_access rfl
theorem retryTimeout (p : Nat) : Statement (.retryTimeout p) := no_access rfl
theorem laneLoss (p : Nat) (lane : Nat) (uncorrectable : Nat) : Statement (.laneLoss p lane uncorrectable) := no_access rfl
theorem portDown (p : Nat) : Statement (.portDown p) := no_access rfl
theorem fabricMessage (p : Nat) : Statement (.fabricMessage p) := no_access rfl
theorem flowGapTimeout (src : Nat) (cls : Nat) : Statement (.flowGapTimeout src cls) := no_access rfl
theorem unreachableTimeout : Statement .unreachableTimeout := no_access rfl
theorem discovery (others : List (Nat × GraphNode)) : Statement (.discovery others) := no_access rfl
theorem discoveryAnnouncement (p : Nat) (n : GraphNode) : Statement (.discoveryAnnouncement p n) := no_access rfl
theorem tableSet (root : W16) (num : W16) (epoch : W32) (grp : List W32) (mem : List W32) : Statement (.tableSet root num epoch grp mem) := no_access rfl
theorem dctrlStart (others : List (Nat × GraphNode)) : Statement (.dctrlStart others) := fun hw _ _ e => one (o := R.FAB_DCTRL) e (by decide)
theorem retrain (p : Nat) : Statement (.retrain p) := fun hw _ _ e => one (o := R.FAB_PCTRL p) e (by
  replace hw : (decide (p < 32)) = true := hw
  simp only [decide_eq_true_eq] at hw
  simp only [R.FAB_PCTRL]; omega)
theorem portEnableWrite (p : Nat) (enable : Bool) : Statement (.portEnableWrite p enable) := fun hw _ _ e => one (o := R.FAB_PCTRL p) e (by
  replace hw : (decide (p < 32)) = true := hw
  simp only [decide_eq_true_eq] at hw
  simp only [R.FAB_PCTRL]; omega)
theorem fabCntClr : Statement .fabCntClr := fun hw _ _ e => one (o := R.FAB_DCTRL) e (by decide)
theorem checkpointStream : Statement .checkpointStream := no_access rfl
theorem checkpointBufferTimeout : Statement .checkpointBufferTimeout := no_access rfl
theorem calibration (t : Nat) (a : Nat) (windows : Nat) : Statement (.calibration t a windows) := no_access rfl
theorem calibrationSuspend (t : Nat) (a : Nat) : Statement (.calibrationSuspend t a) := no_access rfl
theorem redundancyCompare (t : Nat) (partner : W32) (third : W32) : Statement (.redundancyCompare t partner third) := no_access rfl
theorem testRequest (t : Nat) (kind : Nat) (mode : Nat) (array : Nat) (col : Nat) (steps : Nat) : Statement (.testRequest t kind mode array col steps) := no_access rfl
theorem testEnd (t : Nat) : Statement (.testEnd t) := no_access rfl
theorem injCtrlWrite (v : W32) : Statement (.injCtrlWrite v) := fun hw _ _ e => one (o := R.INJ_CTRL) e (by decide)
theorem memoryCorrectableError (addr : Nat) : Statement (.memoryCorrectableError addr) := no_access rfl
theorem memoryUncorrectableError (addr : Nat) : Statement (.memoryUncorrectableError addr) := no_access rfl
theorem watchdogExpiry (ukind : Nat) (unit : Nat) (hung : List (Nat × TileCmd)) (others : List (Nat × TileCmd)) : Statement (.watchdogExpiry ukind unit hung others) := no_access rfl
theorem suspectReplay (hangs : Bool) : Statement (.suspectReplay hangs) := no_access rfl
theorem stewardHeartbeatTimeout (half : Nat) : Statement (.stewardHeartbeatTimeout half) := no_access rfl
theorem stewardRestartComplete (half : Nat) : Statement (.stewardRestartComplete half) := no_access rfl
theorem stateRecord : Statement .stateRecord := no_access rfl
theorem stateRecordConfirm : Statement .stateRecordConfirm := no_access rfl
theorem ensignOnlyAction (half : Nat) (epoch : W32) : Statement (.ensignOnlyAction half epoch) := no_access rfl
theorem arrayOutOfService (t : Nat) (a : Nat) : Statement (.arrayOutOfService t a) := no_access rfl
theorem fault (cls : Nat) (halt : Bool) (source : Nat) : Statement (.fault cls halt source) := no_access rfl
theorem rollback (o : W64) (recov : Nat) : Statement (.rollback o recov) := no_access rfl
theorem flushcnt (source : Nat) (next1 : Nat) (next2 : Nat) (next3 : Nat) : Statement (.flushcnt source next1 next2 next3) := no_access rfl
theorem rback (source : Nat) (localDone : Bool) (sent : Nat) (drained : Nat) : Statement (.rback source localDone sent drained) := no_access rfl
theorem resume : Statement .resume := no_access rfl
theorem oreq (step : W64) (source : Nat) : Statement (.oreq step source) := no_access rfl
theorem halt : Statement .halt := no_access rfl
theorem rbackTimeout : Statement .rbackTimeout := no_access rfl
theorem faultResendTimeout : Statement .faultResendTimeout := no_access rfl
theorem crst : Statement .crst := fun hw _ _ e => one (o := R.RST_CTRL) e (by decide)
theorem prst (mask : Nat) : Statement (.prst mask) := fun hw _ _ e => one (o := R.RST_CTRL) e (by decide)
theorem dump : Statement .dump := fun hw _ _ e => one (o := R.RST_CTRL) e (by decide)
theorem dumpUnitTimeout (unit : Nat) : Statement (.dumpUnitTimeout unit) := no_access rfl
theorem dumpStream : Statement .dumpStream := no_access rfl
theorem release : Statement .release := fun hw _ _ e => one (o := R.RST_CTRL) e (by decide)
theorem rstCntClr : Statement .rstCntClr := fun hw _ _ e => one (o := R.RST_CTRL) e (by decide)
theorem rstFltclsRead : Statement .rstFltclsRead := fun hw _ _ e => one (o := R.RST_FLTCLS) e (by decide)
theorem cntRdvalLoRead (t : Nat) : Statement (.cntRdvalLoRead t) := fun hw _ _ e => one (o := R.CNT_RDVAL_LO t) e (by
  replace hw : (decide (t < 512)) = true := hw
  simp only [decide_eq_true_eq] at hw
  simp only [R.CNT_RDVAL_LO]; omega)
theorem folioDrain (t : Nat) : Statement (.folioDrain t) := no_access rfl
theorem syncRecord (t : Nat) : Statement (.syncRecord t) := no_access rfl
theorem traceMessage (records : List Byte) : Statement (.traceMessage records) := no_access rfl
theorem folConsWrite (v : W32) : Statement (.folConsWrite v) := fun hw _ _ e => one (o := R.FOL_CONS_LO) e (by decide)
theorem folCntClr : Statement .folCntClr := fun hw _ _ e => one (o := R.FOL_CTRL) e (by decide)
theorem ledgerRequest (warden : Bool) (type : W16) (key : W32) (value : List Byte) (delete : Bool) : Statement (.ledgerRequest warden type key value delete) := no_access rfl
theorem ledgerCommit (n : Nat) (ok : Bool) : Statement (.ledgerCommit n ok) := no_access rfl
theorem append (type : Nat) (len : Nat) : Statement (.append type len) := fun hw _ _ e => one (o := R.LDG_CMD) e (by decide)
theorem lookup (type : Nat) : Statement (.lookup type) := fun hw _ _ e => one (o := R.LDG_CMD) e (by decide)
theorem delete (type : Nat) : Statement (.delete type) := fun hw _ _ e => one (o := R.LDG_CMD) e (by decide)
theorem update : Statement .update := fun hw _ _ e => one (o := R.SEC_CTRL) e (by decide)
theorem svncommit : Statement .svncommit := fun hw _ _ e => one (o := R.SEC_CTRL) e (by decide)
theorem revoke (rkey : Nat) : Statement (.revoke rkey) := fun hw _ _ e => one (o := R.SEC_CTRL) e (by decide)
theorem hubEvtmaskWrite (v : W32) : Statement (.hubEvtmaskWrite v) := fun hw _ _ e => one (o := R.HUB_EVTMASK) e (by decide)
theorem hubEnsignRead : Statement .hubEnsignRead := fun hw _ _ e => one (o := R.HUB_ENSIGN) e (by decide)
theorem hubChstatRead : Statement .hubChstatRead := fun hw _ _ e => one (o := R.HUB_CHSTAT) e (by decide)
theorem govStatRead : Statement .govStatRead := fun hw _ _ e => one (o := R.GOV_STAT) e (by decide)
theorem ctxLasterrRead (c : Nat) : Statement (.ctxLasterrRead c) := fun hw _ _ e => one (o := R.CTX_LASTERR c) e (by
  replace hw : (decide (c < 16)) = true := hw
  simp only [decide_eq_true_eq] at hw
  simp only [R.CTX_LASTERR]; omega)
theorem loRegisterRead (off' : Nat) : Statement (.loRegisterRead off') := by
  intro h off write e
  replace h : decide (off' < 2 ^ 26) = true := h
  simp only [decide_eq_true_eq] at h
  replace e : (if isLo off' then some (off', false) else none) = some (off, write) := e
  split at e <;> simp at e
  omega
theorem hiRegisterWrite (off' : Nat) (v : W32) : Statement (.hiRegisterWrite off' v) := by
  intro h off write e
  replace h : decide (off' < 2 ^ 26) = true := h
  simp only [decide_eq_true_eq] at h
  replace e : (if isRwHi off' then some (off', true) else none) = some (off, write) := e
  split at e <;> simp at e
  omega
theorem narrowAccess (addr : Nat) (n : Nat) (write : Bool) : Statement (.narrowAccess addr n write) := no_access rfl
theorem unmappedAccess (off : Nat) (write : Bool) : Statement (.unmappedAccess off write) := fun hw _ _ e => one (o := off) e (by
  replace hw : (decide (off < 2 ^ 26)) = true := hw
  simp only [decide_eq_true_eq] at hw
  omega)
theorem registerNoResponse (off : Nat) (write : Bool) : Statement (.registerNoResponse off write) := no_access rfl
theorem resetUnitAccess (off : Nat) (write : Bool) : Statement (.resetUnitAccess off write) := no_access rfl
theorem bar2OutOfRange (offset : Nat) (n : Nat) (write : Bool) : Statement (.bar2OutOfRange offset n write) := no_access rfl
theorem registerWrite (off' : Nat) (v : W32) : Statement (.registerWrite off' v) := by
  intro h off write e
  replace h : decide (off' < 2 ^ 26) = true := h
  simp only [decide_eq_true_eq] at h
  replace e : (if ownRow off' || isRwHi off' then none else some (off', true)) = some (off, write) := e
  split at e <;> simp at e
  omega
theorem perstNDeassert : Statement .perstNDeassert := no_access rfl
theorem pkgFaultNRelease (vin : Nat) : Statement (.pkgFaultNRelease vin) := no_access rfl
theorem bar2Write (offset : Nat) (bytes : List Byte) : Statement (.bar2Write offset bytes) := no_access rfl
theorem trustPassOneComplete (n : Nat) : Statement (.trustPassOneComplete n) := no_access rfl
theorem reductionCreditGrant (granted : Bool) (lowest : Bool) (dev : Nat) : Statement (.reductionCreditGrant granted lowest dev) := no_access rfl
theorem portLossReport (serial : W64) (port : Nat) : Statement (.portLossReport serial port) := no_access rfl

end Sys2Proof.Laws.Bar0
end

