-- ==== Sys2Proof/Tests/Slice0.lean ====
section
/-! SUPPORT. Small tests: states and operands that meet the hypotheses of the statements, ill-formed commands that are
refused, and single steps whose results are worked out from the spec.
-/

namespace Sys2Proof.Tests

set_option Elab.async false

open Sys2Proof.Machine

/-! ### Small states -/

/-- A powered package with its link up, and both Stewards up, else straight from reset. -/
def on : State := { State.reset with
  power := { on := true, qualified := true, rails := 0xFF, vio18 := true }, hal := { linkUp := true },
  ens := { up := 3, epoch := 1, epoch0 := 1, epoch1 := 1 } }

/-- As on, with a job that runs under an empty charter in which this unnumbered device is the step root. -/
def busy : State := { on with job := { running := true }, charter := some { shards := [{ device := 0xFFFF }] } }

/-- The state after a command. -/
def after (c : Instr) (s : State) : State :=
  match exec c s with
  | .next t => t
  | _ => s

/-! ### States and operands that meet the hypotheses of the statements: the package -/

theorem test_meets_stepRunsFront : { on with pending := [.swap] }.pending = Instr.swap :: [] := rfl

theorem test_meets_emptyQueueTicks : on.pending = [] := rfl

theorem test_meets_unpoweredInert : State.reset.power.on = false ∧ Instr.supply .swap = false := by decide

theorem test_meets_lossSoundStep : State.reset.lossSound ∧ step State.reset = .next State.reset := by
  refine ⟨fun _ => ?_, rfl⟩
  simp [State.dark, State.reset]

theorem test_meets_supplyLegalStep : on.power.legal = true ∧ step on = .next { on with osc := 1 } := ⟨by decide, rfl⟩

theorem test_meets_sentinelBoundedStep : on.snc.bounded = true ∧ step on = .next { on with osc := 1 } := ⟨by decide, rfl⟩

/-- A package whose input has been qualified. -/
def ready : State := { State.reset with power := { vin := 192000, qualified := true } }

theorem test_meets_powerComes : ∃ t, exec (.powerUp false true) ready = .next t ∧ ready.power.on = false ∧ t.power.on = true := by
  obtain ⟨u, h1, h2⟩ : ∃ u, exec (.powerUp false true) ready = finish ready u ∧ u.power.on = true := ⟨_, rfl, rfl⟩
  obtain ⟨t, h3, h4⟩ := finish_ends ready u
  exact ⟨t, h1.trans h3, rfl, by rw [h4.frame.2.1.1]; exact h2⟩

theorem test_meets_powerGoes : ∃ t, exec .inputOvercurrent on = .next t ∧ on.power.on = true ∧ t.power.on = false :=
  ⟨_, rfl, rfl, by decide⟩

theorem test_meets_tileCommandRoundTrip : 255 < 256 ∧ TileCmd.fits { acc := 2 ^ 64 - 1, tile := 511, mode := 255 } = true := by
  decide

theorem test_meets_inputAndPins : (39000 ≤ 39000 ∧ 61000 ≤ 61000 ∧ ready.power.locked = false) ∧
    (38999 < 39000 ∧ 61000 < 61001 ∧ { ready.power with locked := true }.locked = true) ∧
    (on.power.on = true ∧ { on.power with droop := 128 }.droop.testBit 7 = true) := by decide

theorem test_meets_inputLossPowersDown : (62000 < 62001 ∧ 37999 < 38000 ∧ 9999 < 10000) ∧
    (on.power.on = true ∧ on.power.rails.testBit 2 = true ∧ on.power.rails.testBit 6 = true) := by decide

theorem test_meets_railTrips : on.power.on = true ∧ 7 < 8 ∧ 7 ≠ 2 ∧ 7 ≠ 6 ∧ on.power.rails.testBit 7 = true ∧
    on.job.running = false ∧ ∀ p < 32, on.portUp p = false := by decide

theorem test_meets_inputLimits : (60000 < 60001 ∧ 62000 ≤ 62000) ∧ (38000 ≤ 38000 ∧ 39999 < 40000) ∧ on.power.on = true := by
  decide

theorem test_meets_phases : on.power.on = true ∧ 7 < 8 ∧ on.power.rails.testBit 7 = true ∧ on.phasesLost 7 < 2 ∧
    (after (.phaseLoss 7 false) on).phasesLost 7 < 2 := by decide

theorem test_meets_powerUpBoots : ready.power.on = false ∧ ready.power.qualified = true ∧ ready.power.locked = false := by decide

theorem test_meets_perstResets : on.fld F.SEC_BOOT_STATE ≠ 3 ∧ (on.setFld F.SEC_BOOT_STATE 3).fld F.SEC_BOOT_STATE = 3 ∧
    (on.setFld F.SEC_BOOT_STATE 3).power.on = true := by decide

theorem test_meets_governorWrites : Reach on R.GOV_SET ∧ Reach on R.GOV_CTRL := by unfold Reach; decide

theorem test_meets_governorMeasures : on.power.on = true ∧ 31 < 32 ∧ 32 ≤ 32 := by decide

theorem test_meets_governorInterval : Unarmed (on.setFld F.GOV_STAT_VCORE 600) ∧
    600 ≤ (on.setFld F.GOV_STAT_VCORE 600).fld F.GOV_STAT_VCORE := by unfold Unarmed; decide

/-- A package whose first diode, of channel 16, reads a temperature. -/
def hot (v : Nat) : State := (on.setFld (F.SNC_VAL_VALID 16) 1).setFld (F.SNC_VAL_VALUE 16) v

theorem test_meets_throttleAndTrip : ((16, 43265) ∈ (hot 43265).diodes ∧ 256 * (105 + 64) < 43265) ∧
    ((∀ d ∈ ((hot 43008).setFld F.GOV_STAT_THROT 1).diodes, d.2 ≤ 256 * (104 + 64)) ∧
      ((hot 43008).setFld F.GOV_STAT_THROT 1).flag F.GOV_STAT_THROT = true) ∧
    ((16, 44544) ∈ (hot 44544).diodes ∧ 256 * (110 + 64) ≤ 44544 ∧ (hot 44544).flag F.GOV_STAT_TRIP = false) ∧
    (∀ d ∈ (hot 41983).diodes, d.2 < 256 * (100 + 64)) ∧ (∀ e ∈ (hot 41983).tiles, e.2.seqWait = []) := by decide

theorem test_meets_ceilings : (2, 900) ∈ (0, { on with gov := { on.gov with flowCeil := some 900 } }.modeCeil) ::
    { on with gov := { on.gov with flowCeil := some 900 } }.outerCeils := by decide

theorem test_meets_haltingFaults : on.power.on = true ∧ (on.setFld F.GOV_STAT_TRIP 1).flag F.GOV_STAT_TRIP = true ∧
    busy.job.running = true ∧ on.job.running = false := by decide

/-! ### The Sentinel -/

/-- The converter with one enabled entry, the last: channel 15, two results a pass, w more of its second word. -/
def seq (w : W32) : State :=
  { (on.wr (R.SNC_SEQA_W0 47) 15).wr (R.SNC_SEQA_W1 47) (0x101 ||| w) with snc := { powered := true, entry := 47 } }

theorem test_meets_sequencerResults : (seq 0).snc.powered = true ∧ (seq 0).seqEntry (seq 0).snc.entry = some 47 ∧
    [0, 4095].length = bits ((seq 0).seqWord 47 1) 5 0 + 1 ∧ (seq 0).snc.clearFor [0, 4095].length = true ∧ bit ((seq 0).seqWord 47 1) 9 = false ∧
    bit ((seq 0).seqWord 47 1) 12 = false ∧ bits ((seq 0).seqWord 47 0) 5 0 < 16 ∧ bit ((seq 0x200).seqWord 47 1) 9 = true ∧
    (seq 0).snc.queue.length < 512 ∧ 512 ≤ (List.replicate 512 ({ word := 0, count := 0, time := 0 } : SncResult)).length := by
  decide +kernel

/-- A result of the queue. -/
def res : SncResult := { word := 0x803F0000, count := 2 ^ 48 - 1, time := 7 }

theorem test_meets_queueRead : Reach { on with snc := { queue := [res] } } R.SNC_QSTAT ∧ Reach on R.SNC_QSTAT ∧
    { on with snc := { queue := [res] } }.snc.queue = res :: [] ∧ res.count < 2 ^ 48 ∧ on.snc.queue = [] := by
  unfold Reach; decide

/-- A converter with n urgent requests. -/
def urgent (n : Nat) : State := { on with snc := { powered := true, urgent := List.replicate n (63, .host), ahead := List.replicate n 10 } }

theorem test_meets_urgentConversions : ((urgent 1).snc.powered = true ∧ (urgent 1).snc.urgent = (63, .host) :: []) ∧
    (63 < 64 ∧ (urgent 63).snc.urgent.length < 64) ∧ (64 ≤ (urgent 64).snc.urgent.length ∧ UrgBy.warden ≠ .host) ∧
    Reach (urgent 64) R.SNC_URG := by unfold Reach; decide

theorem test_meets_sequencerControl : ((seq 0).snc.powered = true ∧ (seq 0).snc.urgent = [] ∧
      ((seq 0).wr (R.SNC_SEQA_W0 47) 0x1A000F).idlePeriods ≤ ((seq 0).wr (R.SNC_SEQA_W0 47) 0x1A000F).nextDelay) ∧
    (on.snc.powered = false ∧ on.snc.starting = false) ∧ Reach on R.SNC_CTRL ∧
    (47 < 48 ∧ 1 < 2 ∧ Reach on (R.SNC_SEQB_W1 47)) ∧
    (48 ≤ { on with snc := { entry := 48, swap := true } }.snc.entry) ∧ (63 < 64 ∧ Reach on (R.SNC_THR 63)) := by
  unfold Reach; decide

/-! ### Accesses -/

theorem test_meets_readsLatch : on.inRecovery = false ∧ Instr.wf (.tilNstatRead 511) = true ∧
    Instr.wf (.ctxLasterrRead 15) = true ∧ Instr.wf (.updGnormRead 7) = true := by decide

theorem test_meets_pairs : (Reach on R.SEC_UPDSRC_LO ∧ isLo R.SEC_UPDSRC_LO = true ∧ ruleLatched R.SEC_UPDSRC_LO = none) ∧
    (Reach on R.HAL_WIN_HI ∧ isRwHi R.HAL_WIN_HI = true ∧ on.ringFrozen R.HAL_WIN_HI = false) ∧ Reach on R.HAL_WIN_LO := by
  unfold Reach; decide

theorem test_meets_unallocatedAccess : on.power.on = true ∧ findReg 0x3FFFFFC = none := by decide

/-- Recovery mode. -/
def recov : State := on.wr R.SEC_BOOT 0xE0000000

theorem test_meets_recoveryServes : recov.inRecovery = true ∧ Instr.bar0 (.registerWrite R.HUB_PRGCFG 0) = some (R.HUB_PRGCFG, true) ∧
    ¬(0x40000 ≤ R.HUB_PRGCFG ∧ R.HUB_PRGCFG < 0x60000) ∧ R.HUB_PRGCFG ≠ R.HUB_ID ∧ R.HUB_PRGCFG ≠ R.HUB_ERR := by decide

theorem test_meets_unservedAccess : (on.inRecovery = false ∧ 0 < 3 ∧ 3 ≤ 4 ∧ 3 < 4) ∧ (6 % 4 ≠ 0 ∧ 4 < 6 % 4 + 4) ∧
    ((findReg (R.UPD_STAT 7)).isSome = true ∧ 0x80000 ≤ R.UPD_STAT 7) ∧ on.rd R.HUB_ERR = 0 ∧
    (3 < 4 ∧ (R.HUB_ID + 1) % 4 + 3 ≤ 4 ∧ on.served R.HUB_ID = true ∧ (findReg R.HUB_ID).isSome = true ∧
      R.HUB_ID ≠ R.SNC_QSTAT) := by decide

theorem test_meets_memoryWindow : (on.linkUp = true ∧ on.inRecovery = false ∧ 2 ^ 36 - 2 + [1, 2].length ≤ 2 ^ (30 + on.hal.bar2) ∧
      on.window (2 ^ 36 - 2) + [1, 2].length ≤ 640 * 2 ^ 30) ∧
    recov.power.on = true ∧ recov.inRecovery = true ∧ 640 * 2 ^ 30 < on.window (640 * 2 ^ 30 - 3) + 4 := by decide

theorem test_meets_registerWrites : Reach on R.HUB_SCRATCH ∧ Reach on R.HUB_PRGCFG ∧ on.myPlacements = [] ∧ Reach on R.GOV_EVT ∧
    Reach on R.HUB_EVTMASK := by
  unfold Reach; decide

theorem test_meets_counterClears : Reach on (R.ARR_CTRL 511 7) ∧ Instr.wf (.arrCntClr 511 7) = true ∧ Reach on (R.OPE_CTRL 511) ∧
    Reach on R.FOL_CTRL ∧ Reach on R.FAB_DCTRL ∧ Reach on R.SNC_CTRL ∧ Reach on R.FRE_CTRL ∧ Reach on R.RST_CTRL := by
  unfold Reach; decide

/-! ### Rings and host commands -/

theorem test_meets_doorbellRange : on.power.on = true ∧ Unarmed on ∧ 16 < 17 ∧ 63 < 64 ∧ on.hal.ckProd < 2 ^ 32 ∧
    Reach on (R.HAL_CTRL 16) ∧ on.fld (F.HAL_CTRL_EN 16) = 0 ∧ on.fld (F.HAL_STAT_STOPPING 16) = 0 := by
  unfold Unarmed Reach; decide

/-- A management halyard that is enabled, with some commands fetched. -/
def halyard (fs : List Fetched) : State := (on.setFld (F.HAL_CTRL_EN 16) 1).putHalyard 16 { fetched := fs, pos := fs.length }

/-- The management halyard's first command. -/
def acc0 : Nat := 16 * 2 ^ 48

theorem test_meets_halyardEnable : Reach on (R.HAL_CTRL 16) ∧ on.fld (F.HAL_CTRL_EN 16) = 0 ∧ on.fld (F.HAL_STAT_STOPPING 16) = 0 ∧
    (halyard []).fld (F.HAL_CTRL_EN 16) = 1 := by unfold Reach; decide

theorem test_meets_halyardStop : Reach (halyard []) (R.HAL_CTRL 16) ∧
    (∀ f ∈ ((halyard [{ acc := acc0, bytes := [], running := true }]).halyard 16).fetched, f.running = true) ∧
    (∀ f ∈ ((halyard [{ acc := acc0, bytes := [] }]).halyard 16).fetched, accKind f.acc = 0 ∧ accSource f.acc = 16) := by
  unfold Reach; decide

theorem test_meets_halyardStopped : (on.setFld (F.HAL_STAT_STOPPING 16) 1).fld (F.HAL_STAT_STOPPING 16) = 1 ∧
    ((on.setFld (F.HAL_STAT_STOPPING 16) 1).halyard 16).fetched = [] ∧ ((on.setFld (F.HAL_STAT_STOPPING 16) 1).halyard 16).held = [] := by
  decide

/-- A ring with one completion that the host has not taken for 1 µs, and its vector armed. -/
def armed : State :=
  { (((on.setFld (F.HAL_CQTAIL_COUNT 16) 1).setFld (F.HAL_IRQ_ARM 16) 1).setFld (F.HAL_IRQ_TIME 16) 1).putHalyard 16 { stamps := [0] }
    with osc := 100 }

theorem test_meets_completionRing : Reach armed (R.HAL_CQHEAD 16) ∧ (armed.halyard 16).held = [] ∧ Reach armed (R.HAL_IRQ 16) ∧
    bit (0x80000000 : W32) 31 = true ∧ armed.rd (R.HAL_CQTAIL 16) ≠ armed.rd (R.HAL_CQHEAD 16) ∧
    armed.fld (F.HAL_IRQ_ARM 16) = 1 ∧ armed.fld (F.HAL_IRQ_TIME 16) ≠ 0 ∧ 0 < armed.cqDepth 16 ∧
    on.rd (R.HAL_CQTAIL 16) = on.rd (R.HAL_CQHEAD 16) ∧ (armed.halyard 16).stamps.head? = some 0 ∧
    0 + 100 * armed.fld (F.HAL_IRQ_TIME 16) ≤ armed.osc := by unfold Reach; decide

/-- A halyard whose ring, at 0 in host memory, holds one command: 64 bytes of zeros, with an opcode. -/
def ringed (h op : Nat) : State :=
  ((on.setFld (F.HAL_CTRL_EN h) 1).setFld (F.HAL_SQPROD_COUNT h) 1).putHost 12 (leBytes 1 op)

theorem test_meets_fetch : Unarmed (ringed 0 0) ∧ (ringed 0 0).mayFetch 0 = true ∧
    (leNat (((ringed 0 0).hostBytes 0 64).take 8) = 0 * 2 ^ 48 + ((ringed 0 0).halyard 0).pos % 2 ^ 48 ∧
      fetchRefusal 0 ((ringed 0 0).hostBytes 0 64) = 0) ∧
    (fetchRefusal 0 ((ringed 0 255).hostBytes 0 64) ≠ 0 ∧ (ringed 0 255).mayFetch 0 = true ∧ (ringed 0 255).canComplete 0) ∧
    (leNat (((ringed 1 0).hostBytes 0 64).take 8) ≠ 1 * 2 ^ 48 + ((ringed 1 0).halyard 1).pos % 2 ^ 48 ∧
      (ringed 1 0).mayFetch 1 = true) := by unfold Unarmed State.canComplete; decide

/-- A host tensor's record: 1 row of 1 FP32 value at 2^20 of stack 7. -/
def record : List Byte :=
  leBytes 4 0xFFFF0000 ++ [0, 0, 0, 7] ++ leBytes 8 0x100000 ++ leBytes 4 1 ++ leBytes 4 1 ++ leBytes 4 16 ++ zeros 20

/-- The 64 bytes of a command with a number, an opcode and the fields of its body. -/
def bodied (acc op : Nat) (body : List (Nat × Nat × Nat)) : List Byte :=
  (List.range 64).map (fun i => match body.find? (fun f => f.1 ≤ i && i < f.1 + f.2.1) with
    | some f => BitVec.ofNat 8 (f.2.2 / 256 ^ (i - f.1))
    | none => if i = 12 then BitVec.ofNat 8 op else if i < 8 then BitVec.ofNat 8 (acc / 256 ^ i) else 0)

/-- A state whose halyard has fetched a host command. -/
def give (s : State) (c : Instr) : State :=
  match c.hostOp with
  | some (acc, op, body) => s.putHalyard (accSource acc) { fetched := [{ acc, bytes := bodied acc op body }], pos := acc % 2 ^ 48 + 1 }
  | none => s

/-- The check that a state has been asked for a command. -/
def asks (s : State) (c : Instr) (acc : Nat := acc0) : Bool :=
  match c.hostOp with
  | some (a, op, body) => a == acc && s.power.on && decide (accSource acc < 17) && s.hostMay acc op body
  | none => false

theorem test_asks_asked {s : State} {c : Instr} {acc : Nat} (h : asks s c acc = true) : s.asked c acc := by
  unfold asks at h
  split at h
  · next a op body e =>
    simp only [Bool.and_eq_true, beq_iff_eq, decide_eq_true_eq] at h
    obtain ⟨⟨⟨rfl, h2⟩, h3⟩, h4⟩ := h
    exact ⟨op, body, e, h2, h3, h4⟩
  · simp at h

/-- The check that its completion can be written, too. -/
def mayAsk (s : State) (c : Instr) (acc : Nat := acc0) : Bool :=
  asks s c acc && s.linkUp && (s.halyard (accSource acc)).held.isEmpty && decide (s.cqDepth (accSource acc) < s.ringSize (accSource acc))

theorem test_mayAsk_hostReady {s : State} {c : Instr} {acc : Nat} (h : mayAsk s c acc = true) : s.hostReady c acc := by
  simp only [mayAsk, Bool.and_eq_true, decide_eq_true_eq, List.isEmpty_iff] at h
  obtain ⟨⟨⟨h1, h2⟩, h3⟩, h4⟩ := h
  exact ⟨test_asks_asked h1, h2, h3, h4⟩

theorem test_meets_hostReady : ∀ c ∈ ([.nop acc0, .stop acc0 0, .copy acc0 0 32 16 1 1, .copy acc0 0 (deviceBytes - 16) 16 0 1,
    .copy acc0 0 32 16 1 0, .unload acc0, .load acc0 0 0, .restore acc0 0 0, .retire acc0 511 7 1 511,
    .abort acc0 (acc0 + 1)] : List Instr), (give on c).hostReady c acc0 := by
  have h : ∀ c ∈ ([.nop acc0, .stop acc0 0, .copy acc0 0 32 16 1 1, .copy acc0 0 (deviceBytes - 16) 16 0 1,
    .copy acc0 0 32 16 1 0, .unload acc0, .load acc0 0 0, .restore acc0 0 0, .retire acc0 511 7 1 511,
    .abort acc0 (acc0 + 1)] : List Instr), mayAsk (give on c) c = true := by decide +kernel
  exact fun c hc => test_mayAsk_hostReady (h c hc)

theorem test_meets_hostCommands : (give on (.tensor (3 * 2 ^ 48) record)).hostReady (.tensor (3 * 2 ^ 48) record) (3 * 2 ^ 48) ∧ on.job.running = false ∧ on.copyRefusal 0 32 16 1 1 = 0 ∧
    on.copyRefusal 0 (deviceBytes - 16) 16 0 1 = 0 ∧ on.copyRefusal 0 32 16 1 0 = 0 ∧
    on.cplSlot (accSource acc0) + 32 ≤ 32 ∧ tensorRefusal record = 0 :=
  ⟨test_mayAsk_hostReady (by decide +kernel), by decide⟩

/-- As on, with a charter that is ready, at a step root that has ordered the start. -/
def prepared : State := { on.setFld F.HUB_CHSTAT_STATE 2 with root := { started := true } }

/-- In digital forward mode, so that no array awaits a start-up rewrite. -/
theorem test_meets_jobCommands : ((give prepared (.start acc0 0)).asked (.start acc0 0) acc0 ∧ prepared.startRefusal 0 = 0 ∧
      prepared.root.started = true) ∧
    ((give busy (.stop acc0 0)).asked (.stop acc0 0) acc0 ∧ busy.job.running = true ∧ busy.job.stop = none) ∧
    (give on (.checkpoint acc0)).asked (.checkpoint acc0) acc0 ∧
    (give on (.test acc0 511 5 2 65535)).asked (.test acc0 511 5 2 65535) acc0 ∧
    (testRefusal 511 1 2 8191 = 0x12 ∧ testRefusal 511 5 2 65535 = 0 ∧ (on.tile 511).test = none) :=
  ⟨⟨test_asks_asked (by decide +kernel), by decide⟩, ⟨test_asks_asked (by decide +kernel), by decide⟩,
    test_asks_asked (by decide +kernel), test_asks_asked (by decide +kernel), by decide⟩

/-- A record of a checkpoint's stream. -/
def ckRec (kind seq : Nat) (data : List Byte) : List Byte :=
  let h := leBytes 2 kind ++ zeros 14 ++ leBytes 4 data.length ++ leBytes 4 seq ++ zeros 4
  h ++ leBytes 4 (crc32c (h ++ data)).toNat ++ data

/-- The stream of a checkpoint of step 8 without tensors: its head and its end, in one buffer that the last descriptor of
the list at 0 names. -/
def stored : State :=
  let b := ckRec 1 0 (zeros 8 ++ leBytes 8 8 ++ leBytes 2 0xFFFF ++ zeros 6) ++ ckRec 0xFF 1 (leBytes 4 2)
  { (on.putHost 0 (leBytes 8 64 ++ leBytes 4 b.length ++ leBytes 4 (2 ^ 31 + b.length))).putHost 64 b with charter := some {} }

theorem test_meets_restore : (give stored (.restore acc0 0 1)).hostReady (.restore acc0 0 1) acc0 ∧ (Unarmed stored ∧
      stored.job.running = false ∧ stored.charter.isSome = true ∧ stored.streamOk (stored.streamRecords 0 1 0) = true) ∧
    on.charter = none :=
  ⟨test_mayAsk_hostReady (by decide +kernel), by unfold Unarmed; decide +kernel, by decide⟩

theorem test_meets_retireAndLoad : on.ens.up ≠ 0 ∧ on.job.running = false ∧ Unarmed on ∧
    on.fld F.HUB_CHSTAT_STATE ∉ [1, 2] ∧ (firstReason (on.charterChecks (on.memBytes 0 0))).isSome = true ∧
    (on.setFld F.HUB_CHSTAT_STATE 2).fld F.HUB_CHSTAT_STATE ∈ [1, 2] ∧
    (bit ((on.putRemap 511 7 1 0 0x80000000).remapEntry 511 7 1 1) 31 = false ∧
      ∀ m < 1, bit ((on.putRemap 511 7 1 0 0x80000000).remapEntry 511 7 1 m) 31 = true) := by
  unfold Unarmed; decide +kernel

/-- As on, with a halyard whose first command has completed, and whose second is to abort one. -/
def used (target : Nat) : State :=
  on.putHalyard 16 { fetched := [{ acc := acc0 + 1, bytes := bodied (acc0 + 1) 5 [(16, 8, target)] }], pos := 2 }

/-- A command of that halyard's second place is asked for, and its completion can be written. -/
theorem test_meets_hostRefused : ((used acc0).hostMay (acc0 + 1) 5 [(16, 8, acc0)] = true ∧ accKind acc0 = 0 ∧
      acc0 % 2 ^ 48 < ((used acc0).halyard (accSource acc0)).pos ∧
      ∀ f ∈ ((used acc0).halyard (accSource acc0)).fetched, f.acc ≠ acc0) ∧
    ((used (acc0 + 2)).hostMay (acc0 + 1) 5 [(16, 8, acc0 + 2)] = true ∧ ((used (acc0 + 2)).halyard 16).pos ≤ (acc0 + 2) % 2 ^ 48) ∧
    (accSource (acc0 + 1) = accSource acc0 ∧ (used acc0).canComplete 16) ∧
    (mayAsk (give busy (.unload acc0)) (.unload acc0) = true ∧ busy.job.running = true ∧ busy.ens.up ≠ 0) ∧
    on.copyRefusal 0 (deviceBytes - 15) 16 0 1 ≠ 0 := by unfold State.canComplete; decide +kernel

/-- As on, with a ring of 64 entries and two commands fetched: an ABORT, and its target, a NOP or a COPY, behind it. -/
def waits (op : Nat) : State :=
  (on.setFld (F.HAL_SIZE_LOG2 16) 6).putHalyard 16 { pos := 2, fetched := [
    { acc := acc0, bytes := bodied acc0 5 [(16, 8, acc0 + 1)] }, { acc := acc0 + 1, bytes := bodied (acc0 + 1) op [] }] }

theorem test_meets_abortIdle : asks (waits 0) (.abort acc0 (acc0 + 1)) = true ∧ accKind (acc0 + 1) = 0 ∧ accSource (acc0 + 1) < 17 ∧
    accSource acc0 = accSource (acc0 + 1) ∧ (acc0 + 1) % 2 ^ 48 < ((waits 0).halyard 16).pos ∧ (waits 0).canComplete 16 ∧
    (waits 0).cqDepth 16 + 1 < (waits 0).ringSize 16 ∧
    ((waits 0).halyard 16).fetched.find? (fun g => g.acc == acc0 + 1) = some { acc := acc0 + 1, bytes := bodied (acc0 + 1) 0 [] } ∧
    leAt (bodied (acc0 + 1) 0 []) 12 1 ∉ [2, 3, 5] ∧
    (∀ e ∈ (waits 0).tiles, (∀ p ∈ e.2.redPend, p.cmd.acc ≠ acc0 + 1) ∧ ∀ q ∈ e.2.seqWait, q.2.acc ≠ acc0 + 1) := by
  unfold State.canComplete; decide +kernel

theorem test_meets_hostLink : on.hal.linkUp = true ∧ on.power.perst = false ∧ (∀ h < 17, (on.halyard h).held = []) ∧
    (waits 8).canComplete 16 ∧ (∃ f ∈ ((waits 8).halyard 16).fetched, f.acc = acc0 + 1 ∧ leAt f.bytes 12 1 ∈ [6, 7, 8]) ∧
    (waits 8).hal.ckStream = none := by unfold State.canComplete; decide +kernel

/-- A request of an SPDM code under a version, n bytes long. -/
def spdm (version code n : Nat) : List Byte := leBytes 1 version ++ leBytes 1 code ++ zeros (n - 2)

/-- It has at least n bytes, its code and its version. -/
def isReq (req : List Byte) (version code n : Nat) : Bool :=
  decide (n ≤ req.length) && leAt req 1 1 == code && leAt req 0 1 == version

theorem test_meets_spdmAnswers : on.linkUp = true ∧
    (∀ q ∈ [(0x10, 0x84, 4), (0x12, 0xE1, 4), (0x12, 0xE3, 32), (0x12, 0x81, 4), (0x12, 0x82, 8), (0x12, 0x83, 36), (0x12, 0xE0, 4)],
      isReq (spdm q.1 q.2.1 q.2.2) q.1 q.2.1 q.2.2 = true) ∧
    leAt (spdm 0x11 0x84 4) 0 1 ≠ 0x10 ∧ leAt (spdm 0x11 0x81 4) 0 1 ≠ 0x12 ∧ leAt (spdm 0x12 0x83 36) 2 1 = 0 ∧
    (leAt (spdm 0x12 0xE0 4) 2 1 % 2 = 0 ∧ leAt (spdm 0x12 0xE0 4) 3 1 = 0) ∧ (spdm 0x12 0x81 3).length < 4 := by decide

theorem test_meets_spdmCertificate : isReq (spdm 0x12 0x82 8) 0x12 0x82 8 = true ∧ leAt (spdm 0x12 0x82 8) 2 1 % 16 = 0 ∧
    leAt (spdm 0x12 0x82 8) 4 2 ≤ chainBytes.length :=
  ⟨by decide, by decide, Nat.zero_le _⟩

/-! ### Tile commands -/

/-- A layout of one element in a row, of a format, in stack 0. -/
def cell (id base : Nat) (desc : W16) : Tensor :=
  { id, desc, base, rows := 1, rowlen := 1, pitch := 16, param := true }

/-- A tile command over one-element tensors: an FP8 operand and result in FP32, scale 1. -/
def cmd (p1 : Nat) : TileCmd :=
  { acc := 3 * 2 ^ 48, ta := 0xFFFF0000, tb := 0xFFFF0000, tc := 0xFFFF0001, td := 0xFFFF0000, da := 3, db := 3, dd := 3, tile := 511,
    nr := 1, k := 0x3F800000, p1, p2 := 0xFFFF0000 }

/-- A state in which they run: digital forward mode, and a statistics group that the command's bytes 44 to 51 name. -/
def shop : State :=
  { on with
    hal := { linkUp := true, tensors := [cell 0xFFFF0000 0 3, cell 0xFFFF0001 16 0, cell 0xFFFF0002 32 14, { cell 0xFFFF0003 0 14 with place := 15 }] }
    charter := some { dfwd := true, regions := [{ kind := 0x22, stack := 15, unit := 511, length := 1024 }] }
    tiles := [(511, { groups := [{ acc := 2 ^ 32, first := 0, count := 1, recs := [(0, 0)] }] })] }

/-- A context's halyard has fetched a tile command. -/
def fetch (s : State) (op : Nat) (c : TileCmd) : State :=
  s.putHalyard 3 { fetched := [{ acc := c.acc, bytes := c.bytes op }], pos := 1 }

/-- An XENT command, whose TD takes pairs. -/
def lossCmd (td : Nat) : TileCmd := { cmd 0x3F800000 with td, dd := 14 }

/-- The check that a state meets canRun, for a command whose group and target it finds. -/
def runs (s : State) (op : Nat) (c : TileCmd) : Bool :=
  s.power.on && s.power.short.isNone && s.mayStart c.acc && s.issuedCmd op c && decide (c.tile < 512)
    && ((accKind c.acc == 0 && decide (accSource c.acc < 17)) || accKind c.acc == 1) && s.tileRefusal op c == 0
    && !s.flag F.INJ_CTRL_ARM && s.phaseOpen c && !s.bufferBusy op c && !s.behind op c && (op != 0x40 || s.dfwd)
    && (s.group c).all (fun g => !g.spilled) && (s.target c).all (fun x => !s.scaleLost x) && !s.flag (F.TIL_REDSTAT_ON c.tile)

theorem test_runs_canRun {s : State} {op : Nat} {c : TileCmd} (h : runs s op c = true) : s.canRun op c := by
  simp only [runs, Bool.and_eq_true, Bool.or_eq_true, decide_eq_true_eq, beq_iff_eq, Bool.not_eq_true', bne_iff_ne,
    Option.isNone_iff_eq_none, Option.all_eq_true] at h
  obtain ⟨⟨⟨⟨⟨⟨⟨⟨⟨⟨⟨⟨⟨⟨h1, h2⟩, h3⟩, h4⟩, h5⟩, h6⟩, h7⟩, h8⟩, h9⟩, h10⟩, h11⟩, h12⟩, h13⟩, h14⟩, h15⟩ := h
  exact ⟨⟨h1, h2, h3, h4, h5, h6⟩, h7, h8, h9, h10, h11, fun e => .inl (h12.resolve_left (fun n => n e)),
    fun _ _ _ g hg => h13 g hg, fun _ x hx => h14 x hx, h15⟩

/-- The commands that a halyard may carry, with those operands (R702). -/
def shopOps : List (Instr × Nat × TileCmd) :=
  [(.mvm (cmd 0), 0x40, cmd 0), (.opeProduct (cmd 1), 0x41, cmd 1), (.dpaProduct (cmd 1), 0x42, cmd 1),
   (.lnf (cmd 0x3F800000), 0x43, withOp (cmd 0x3F800000) 0), (.rmsf (cmd 0x3F800000), 0x43, withOp (cmd 0x3F800000) 1),
   (.smf (cmd 0x3F800000), 0x43, withOp (cmd 0x3F800000) 2), (.lnb (cmd 0x3F800000), 0x43, withOp (cmd 0x3F800000) 3),
   (.rmsb (cmd 0x3F800000), 0x43, withOp (cmd 0x3F800000) 4), (.smb (cmd 0x3F800000), 0x43, withOp (cmd 0x3F800000) 5),
   (.xent (lossCmd 0xFFFF0002), 0x43, withOp (lossCmd 0xFFFF0002) 6), (.convert (cmd 0), 0x44, cmd 0), (.amax (cmd 0), 0x45, cmd 0)]

theorem test_meets_tileHost : ∀ e ∈ shopOps, e.1.tileOp = some e.2 ∧ (fetch shop e.2.1 e.2.2).canRun e.2.1 e.2.2 := by
  have h : ∀ e ∈ shopOps, e.1.tileOp = some e.2 ∧ runs (fetch shop e.2.1 e.2.2) e.2.1 e.2.2 = true := by decide +kernel
  exact fun e he => ⟨(h e he).1, test_runs_canRun (h e he).2⟩

/-- A job's command over charter tensors. -/
def jobCmd : TileCmd := { acc := 2 ^ 60, tc := 1, da := 3, tile := 511, nr := 1 }

/-- A state in which a job's item has issued a command under an opcode, and runs no job time: its phase is open. The stash
of the tile's half holds, for the item's micro-batch, one compressed row of TC. -/
def jobShop (op : Nat) (c : TileCmd) : State :=
  { (shop.setFld F.FAB_DEVNUM_VALID 1).putMem 4096 (compress 0 (zeros 4)) with
    charter := some { tensors := [cell 0 0 3, cell 1 16 0], regions := [{ kind := 1, unit := 1, base := 4096, length := 4096 }] }
    job := { left := [(op, c)],
             stash1 := [{ mb := 0, bytes := 4096, tail := 0, used := 0, items := [(stashKey 1 0, 511, 0, (compress 0 (zeros 4)).length)] }] } }

/-- The job's commands; one SEND of another class than activations, and one of activations. -/
def jobOps : List (Instr × Nat × TileCmd) :=
  [(.stash jobCmd, 0x48, jobCmd), (.unstash jobCmd, 0x49, jobCmd), (.send jobCmd, 0x4A, jobCmd),
   (.send { jobCmd with p2 := 3 }, 0x4A, { jobCmd with p2 := 3 }), (.gradadd jobCmd, 0x4B, jobCmd)]

theorem test_meets_tileJob : ∀ e ∈ jobOps, e.1.tileOp = some e.2 ∧ (jobShop e.2.1 e.2.2).canRun e.2.1 e.2.2 := by
  have h : ∀ e ∈ jobOps, e.1.tileOp = some e.2 ∧ runs (jobShop e.2.1 e.2.2) e.2.1 e.2.2 = true := by decide +kernel
  exact fun e he => ⟨(h e he).1, test_runs_canRun (h e he).2⟩

theorem test_meets_tileRefused : (fetch shop 0x44 { cmd 0 with da := 2 }).takes 0x44 { cmd 0 with da := 2 } ∧
    shop.tileRefusal 0x44 { cmd 0 with da := 2 } ≠ 0 := by
  unfold State.takes; decide +kernel

/-- A job runs in its backward phase, a forward command waits on the tile, and one with the flags given is fetched. -/
def waiting (flags : Nat) : State :=
  fetch { shop with job := { running := true }, tiles := [(511, { seqWait := [(0x44, { cmd 0 with flags := 1 })] })] } 0x44
    { cmd 0 with flags }

theorem test_meets_tileWaits : ((waiting 1).takes 0x44 { cmd 0 with flags := 1 } ∧ (waiting 1).tileRefusal 0x44 { cmd 0 with flags := 1 } = 0 ∧
      (waiting 1).phaseOpen { cmd 0 with flags := 1 } = false ∧ (waiting 1).bufferBusy 0x44 { cmd 0 with flags := 1 } = false) ∧
    ((waiting 2).takes 0x44 { cmd 0 with flags := 2 } ∧ (waiting 2).tileRefusal 0x44 { cmd 0 with flags := 2 } = 0 ∧
      (waiting 2).behind 0x44 { cmd 0 with flags := 2 } = true ∧ (waiting 2).bufferBusy 0x44 { cmd 0 with flags := 2 } = false) := by
  unfold State.takes; decide +kernel

theorem test_meets_tileStores : Unarmed shop ∧ accKind (cmd 0).acc = 0 ∧ (cmd 0).add = false ∧ (cmd 0).nr = 1 ∧
    shop.layout acc0 0xFFFF0000 = some (cell 0xFFFF0000 0 3) ∧ shop.layout acc0 0xFFFF0001 = some (cell 0xFFFF0001 16 0) ∧
    (shop.ratio (cmd 0) (some (cell 0xFFFF0000 0 3)) none (some (cell 0xFFFF0001 16 0))).isSome = true ∧
    (shop.tile 511).records false + 1 ≤ 28672 ∧ (shop.group (withOp (cmd 0) 5)).isSome = true ∧ (withOp (cmd 0) 5).sel = 5 ∧
    runs (fetch shop 0x43 (withOp (lossCmd 0xFFFF0003) 6)) 0x43 (withOp (lossCmd 0xFFFF0003) 6) = true ∧
    (shop.layout acc0 0xFFFF0003).map (·.place) = some 15 := by
  unfold Unarmed; decide +kernel

theorem test_meets_stashRows : ((jobShop 0x48 jobCmd).layout jobCmd.acc 0).map ((jobShop 0x48 jobCmd).fed jobCmd) = some (cell 0 0 3) ∧
    ((jobShop 0x48 jobCmd).region 1 (halfOf 511)).map (·.length) = some 4096 ∧
    (((jobShop 0x48 jobCmd).stashRing (halfOf 511)).find? (fun r => r.mb == (jobShop 0x48 jobCmd).itemMb)).isSome = true ∧
    (compress 3 ((jobShop 0x48 jobCmd).rowsBytes 511 (cell 0 0 3) 0 1)).length ≤ 4096 ∧
    (jobShop 0x49 jobCmd).layout jobCmd.acc 1 = some (cell 1 16 0) ∧
    (((jobShop 0x49 jobCmd).stashRing 1).flatMap (·.items)).find? (fun i => i.1 == stashKey 1 0 && ((0 : Nat) != 15 || i.2.1 == 511)) =
      some (stashKey 1 0, 511, 0, (compress 0 (zeros 4)).length) ∧
    ((decompress 0 (pageCount 0 4) ((jobShop 0x49 jobCmd).ringBytes { kind := 1, unit := 1, base := 4096, length := 4096 } 0
      (compress 0 (zeros 4)).length)).take 4).length = 4 := by decide +kernel

theorem test_meets_sends : jobCmd.p2 ≠ 3 ∧ (jobShop 0x4A jobCmd).flag F.FAB_DEVNUM_VALID = true ∧
    (jobShop 0x4A { jobCmd with p2 := 3 }).fld (creditFld (jobShop 0x4A { jobCmd with p2 := 3 }).itemBack) = 0 ∧
    ((jobShop 0x4A { jobCmd with p2 := 3 }).layout jobCmd.acc 0).map ((jobShop 0x4A { jobCmd with p2 := 3 }).fed { jobCmd with p2 := 3 }) =
      some (cell 0 0 3) ∧
    ((jobShop 0x4B jobCmd).target jobCmd).isSome = true := by decide +kernel
/-! ### Arrays, engines, programming -/

/-- As on, with array 7 of tile 511. -/
def arrd (x : Arr) : State := (on.setFld (F.ARR_STAT_INSVC 511 7) 1).putArr 511 7 x

theorem test_meets_arrayVectors : ((arrd {}).fld (F.ARR_STAT_INSVC 511 7) = 1 ∧ ((arrd {}).arr 511 7).out = false ∧
      (arrd {}).windowHeld 511 7 = false) ∧
    [(0 : Int), 0].all (· = 0) = true ∧ [(0 : Int), 1].all (· = 0) = false := by decide

/-- Array 7 of tile 511 with one vector at its edge and column 511 covered. -/
def edged (v : EdgeVec) : State := arrd { edge := [v], cover := [511] }

theorem test_meets_edge : ((edged {}).arr 511 7).edge.find? (fun v => !v.done) = some {} ∧ (edged {}).coveredCols 511 7 ≠ [] ∧
    ((edged { full := true, covered := true }).arr 511 7).edge.find? (fun v => !v.done) = some { full := true, covered := true } ∧
    ((edged { full := true }).arr 511 7).edge.find? (fun v => v.full && !v.covered && !v.done) = some { full := true } := by decide

/-- A job's charter: the cover region of tile 511, both banks' digital copies, and digital forward mode. -/
def copies : State :=
  { on with charter := some { dfwd := true, regions := [{ kind := 0x21, stack := 15, unit := 511, length := 524288 },
    { kind := 4, unit := 0xFFFF, length := 2 ^ 31 }, { kind := 8, unit := 511, length := 16 },
    { kind := 6, unit := 0xFFFF, stack := 1, length := 2 ^ 31 }] } }

/-- A tile of it with a statistics group. -/
def grouped (spilled : Bool) : State := copies.putTileRec 511 { groups := [{ acc := 5, first := 0, count := 2, recs := if spilled then [] else [(0, 0), (0, 0)], spilled }] }

theorem test_meets_engineMemory : copies.region 0x21 511 = some { kind := 0x21, stack := 15, unit := 511, length := 524288 } ∧
    copies.dfwd = true ∧ copies.copyAddr (copies.active 511 7) 511 7 = some (524288 * 4095) ∧
    copies.region 8 511 = some { kind := 8, unit := 511, length := 16 } ∧
    (((grouped false).tile 511).groups.find? (fun g => !g.spilled)).isSome = true ∧
    ((grouped false).tile 511).records true + 2 ≤ (grouped false).spillRoom 511 ∧
    (copies.freeSlots 511 2)[1]? = some 1 ∧ [((0 : W32), (0 : W32)), (0, 0)][1]? = some (0, 0) ∧
    (((grouped true).tile 511).groups.find? (fun g => g.acc == 5 && g.spilled)).isSome = true ∧
    ((grouped true).tile 511).seqWait = [] ∧ ((grouped true).tile 511).records false + 2 ≤ 28672 := by decide

/-- Column 511 of array 7 of tile 511 covered, its copy written or not. -/
def staging (copied : Bool) : State := copies.putArr 511 7 { cover := [511], bank0 := { copied } }

theorem test_meets_coverStaging : (∃ a < 8, ((staging false).arr 511 a).cover ≠ [] ∧
      (((staging false).arr 511 a).bank ((staging false).active 511 a)).copied = false) ∧
    (∀ a < 8, ((staging true).arr 511 a).cover ≠ [] → (((staging true).arr 511 a).bank ((staging true).active 511 a)).copied = true) ∧
    ((List.range 8).flatMap (fun a => ((staging true).arr 511 a).cover.map (fun j => (a, j))))[0]? = some (7, 511) ∧
    ((staging true).copyAddr ((staging true).active 511 7) 511 7).isSome = true := by decide

theorem test_meets_rewriteStart : ((arrd { bank1 := { copied := true } }).arr 511 7).startup = false ∧
    1 - (arrd { bank1 := { copied := true } }).active 511 7 = 1 ∧
    (((arrd { bank1 := { copied := true } }).arr 511 7).bank 1).copied = true ∧
    (((arrd { bank1 := { copied := true } }).arr 511 7).bank 1).awaited = false ∧
    (((arrd { bank1 := { copied := true } }).arr 511 7).bank 1).oweFull = true ∧
    (arrd { bank1 := { copied := true } }).dfwd = false ∧ (arrd { bank1 := { copied := true } }).arrayTime = true ∧
    (arrd { bank1 := { copied := true } }).calibrating 511 7 = false ∧
    (arrd { bank1 := { copied := true } }).prgState 511 7 = 0 := by decide

/-- Array 7 of tile 511 in a state of its program. -/
def programs (state : Nat) (x : Arr) : State := (arrd x).setFld (F.ARR_PRGSTAT_STATE 511 7) state

theorem test_meets_rewriteSteps : ((programs 1 { rew := { bank := 1 } }).prgState 511 7 = 1 ∧
      ((programs 1 { rew := { bank := 1 } }).arr 511 7).rew.bank < 2 ∧ (programs 1 { rew := { bank := 1 } }).arrayTime = true ∧
      (programs 1 { rew := { bank := 1 } }).dfwd = false ∧ (programs 1 { rew := { bank := 1 } }).arrayHeld = false ∧
      (programs 1 { rew := { bank := 1 } }).calibrating 511 7 = false ∧
      (programs 1 { rew := { bank := 1 } }).fld (F.ARR_PRGSTAT_SUSP 511 7) = 0) ∧
    ((programs 2 { rew := { phase := .closing 2 } }).programming 511 7 = true ∧
      ((programs 2 { rew := { phase := .closing 2 } }).arr 511 7).rew.phase = .closing 2) ∧
    ((programs 2 {}).admissions 511).getLast? = some 7 ∧ (programs 2 {}).programming 511 6 = false ∧
    (((arrd {}).setFld (F.ARR_STAT_IDLEBUSY 511 7) 1).fld (F.ARR_STAT_IDLEBUSY 511 7) = 1 ∧
      ((arrd {}).setFld (F.ARR_STAT_IDLEBUSY 511 7) 1).fld (F.ARR_PRGSTAT_SUSP 511 7) = 0) ∧
    (((arrd { reverify := true }).arr 511 7).reverify = true ∧ (arrd { reverify := true }).arrayTime = true ∧
      (arrd { reverify := true }).dfwd = false ∧ (arrd { reverify := true }).calibrating 511 7 = false) := by decide

theorem test_meets_refreshAndRemap : (on.setFld F.HUB_PRGCFG_RVINT 1).fld F.HUB_PRGCFG_RVINT ≠ 0 ∧ Reach on R.HUB_PRGCMD ∧
    (on.setFld F.HUB_PRGCFG_RVINT 0).fld F.HUB_PRGCFG_RVINT = 0 ∧
    (bit ((on.putRemap 511 7 1 0 0x80000000).remapEntry 511 7 1 1) 31 = false ∧
      ∀ m < 1, bit ((on.putRemap 511 7 1 0 0x80000000).remapEntry 511 7 1 m) 31 = true) := by unfold Reach; decide

/-- Array 7 of tile 511 at a pattern of its measurement. -/
def measures (pattern : Nat) : State := programs 3 { rew := { pattern, rank := 4 } }

theorem test_meets_measure : (measures 510).prgState 511 7 = 3 ∧ (measures 510).arrayTime = true ∧
    ((measures 510).dfwd = false ∧ (measures 510).arrayHeld = false ∧ (measures 510).calibrating 511 7 = false) ∧
    (measures 510).fld (F.ARR_PRGSTAT_SUSP 511 7) = 0 ∧ ((measures 510).arr 511 7).rew.measured = false ∧
    ((measures 510).arr 511 7).rew.pattern < 511 ∧ ((measures 0).arr 511 7).rew.pattern = 0 ∧
    (((measures 511).arr 511 7).rew.pattern = 511 ∧ ((measures 511).arr 511 7).rew.built = false ∧
      ((measures 511).arr 511 7).rew.rank ≠ 0 ∧ (measures 511).scratchTaken 511 7 = false) := by decide

/-- A measured array in job time, with or without the scratch region. -/
def measured (regions : List Region) : State :=
  { programs 3 { rew := { bank := 1, measured := true, rank := 4 } } with charter := some { regions } }

theorem test_meets_factors : ((measured []).arr 511 7).rew.bank = 1 ∧ ((measured []).arr 511 7).rew.measured = true ∧
    ((measured []).arr 511 7).rew.built = false ∧ (measured []).arrayTime = true ∧ (measured []).factorAddr 511 7 = none ∧
    ((measured [{ kind := 7, unit := 511, length := 2 ^ 20 }]).factorAddr 511 7).isSome = true := by decide

/-- Array 7 of tile 511 in a calibration with a count of windows. -/
def calibrating (windows : Nat) : State := programs 3 { cal := { windows } }

theorem test_meets_calibrate : (copies.region 6 0xFFFF).isSome = true ∧
    (((copies.putArr 511 7 { bank1 := { copied := true } }).arr 511 7).bank 1).copied = true ∧
    (((copies.putArr 511 7 { bank1 := { copied := true } }).arr 511 7).bank 1).imaged = false ∧ copies.arrayTime = true ∧
    (calibrating 255).arrayTime = true ∧ (calibrating 255).prgState 511 7 ∉ [1, 2] ∧ (calibrating 255).prgState 511 7 ≠ 5 ∧
    (calibrating 255).dfwd = false ∧ (calibrating 255).arrayHeld = false ∧ (calibrating 255).calDue 511 7 = true ∧
    ((calibrating 255).arr 511 7).cal.windows + 0 < 256 ∧ 256 ≤ ((calibrating 255).arr 511 7).cal.windows + 1 ∧
    (on.setFld (F.ARR_CALSTAT_STATE 511 7) 1).fld (F.ARR_CALSTAT_STATE 511 7) = 1 := by decide

/-! ### The step -/

/-- A running job of one micro-batch in a phase, at a place of its step. -/
def stepping (phase : Nat) (j : Job) : State := { busy.setFld F.HUB_STEPSTAT_PHASE phase with job := { j with running := true } }

theorem test_meets_itemSelect : (stepping 1 {}).mayIssue = true ∧ (stepping 1 {}).job.item = none ∧ (stepping 1 {}).job.want = none ∧
    (stepping 1 {}).readyF = true ∧ (stepping 1 {}).readyB = false ∧ (stepping 1 {}).fld F.HUB_STEPSTAT_PHASE = 1 ∧
    ((stepping 2 {}).fld F.HUB_STEPSTAT_PHASE ≠ 1 ∧ (stepping 2 {}).fld F.HUB_STEPSTAT_PHASE ≠ 3) ∧
    (stepping 1 { item := some (.forward, 0, 0) }).job.item = some (.forward, 0, 0) := by decide

theorem test_meets_phaseChange : (stepping 2 { want := some (.forward, 0) }).mayIssue = true ∧
    (stepping 2 { want := some (.forward, 0) }).job.want.isSome = true ∧
    (stepping 2 {}).fld F.HUB_STEPSTAT_PHASE ≠ 3 ∧ (stepping 3 { drained := 1 }).fld F.HUB_STEPSTAT_PHASE = 3 ∧
    (stepping 3 { drained := 1 }).job.drained ||| 2 ^ 1 = 3 ∧ (stepping 3 { drained := 1 }).mayOrder = true ∧
    (∀ e ∈ (stepping 3 {}).tiles, e.2.seqWait = []) ∧ (stepping 3 { drained := 1 }).job.drained ||| 2 ^ 0 ≠ 3 := by decide

/-- A step whose items are done, where one Steward runs, with a job's first step, a policy, placements and outcomes handled. -/
def closing (handled first : Nat) (lag1 : Bool) (arrays : List Placement) : State :=
  { stepping 2 { nextF := 1, nextB := 1, handled, first } with
    ens := { up := 1 }
    charter := some { shards := [{ device := 0xFFFF }], lag1, arrays }
    arrs := [(8 * 511 + 7, { condemned := true })] }

/-- As closing, with a STOP that awaits its outcome. -/
def stopping (lag1 : Bool) (arrays : List Placement) : State :=
  { closing 0 0 lag1 arrays with job := { (closing 0 0 lag1 arrays).job with stop := some (acc0, none) } }

/-- With its swap ordered, where some Stewards run. -/
def due (up : Nat) : State :=
  { closing 1 0 false [] with ens := { up, swapDue := some (closing 1 0 false []).step } }

/-- A recovery owes its swap. -/
def owing : State := { closing 1 0 false [] with job := { (closing 1 0 false []).job with oweSwap := true } }

theorem test_meets_owedSwap : owing.mayOrder = true ∧ owing.job.oweSwap = true ∧ owing.job.item = none ∧
    owing.myPlacements.all owing.bankReady = true := by decide

theorem test_meets_stepBoundary : (closing 1 0 false []).mayIssue = true ∧
    ((due 1).recordHeld = true ∧ (due 3).recordHeld = false) ∧ (closing 1 0 false []).stopTests = [] ∧ 1 = (closing 1 0 false []).chart.micro ∧
    (closing 1 0 false [{ tile := 511, array := 7 }]).boundaryReady 0 = true ∧
    (closing 0 0 false []).boundaryReady 0 = false ∧ (closing 0 0 false []).chart.lag1 = false ∧
    ((stopping true []).boundaryReady 0 = false ∧ (stopping true []).myPlacements.all (stopping true []).bankReady = true) ∧
    ((stopping true [{ tile := 511, array := 6 }]).boundaryReady 0 = false ∧
      (stopping true [{ tile := 511, array := 6 }]).myPlacements.all (stopping true [{ tile := 511, array := 6 }]).bankReady = false) ∧
    (closing 1 0 false []).step = 0 := by decide

/-- One of two micro-batches has run forward, and the order runs the second before the first goes back. -/
def ordered : State :=
  { stepping 1 { nextF := 1 } with charter := some { micro := 2, order := [(0, 1), (0, 1), (0, 2), (0, 2)] } }

theorem test_meets_forwardFirst : ordered.forwardFirst = true := by decide

/-- A device whose feed ring 63, of 64 entries, holds a descriptor with a length and a sequence number. -/
def feeds (len seq : Nat) : State :=
  { ((on.setFld (F.HAL_FDSIZE_LOG2 63) 6).setFld (F.HAL_FDPROD_COUNT 63) 1).putHost 8 (leBytes 4 len ++ leBytes 4 seq) with
    charter := some { feeds := [{ device := 0xFFFF, ring := 63, mbbytes := 16, slots := 2 }], regions := [{ kind := 12, length := 32 }] } }

theorem test_meets_feedDescriptor : Unarmed (feeds 16 0) ∧
    ((feeds 16 0).myFeeds.find? (fun f => f.ring == 63)).isSome = true ∧ (feeds 16 0).fld (F.HAL_FDSIZE_LOG2 63) ≠ 0 ∧
    (feeds 16 0).fld (F.HAL_FDCONS_COUNT 63) ≠ (feeds 16 0).fld (F.HAL_FDPROD_COUNT 63) ∧ 63 ∉ (feeds 16 0).hal.feedErr ∧
    (feeds 16 0).job.rolling = none ∧
    ((feeds 16 0).fld (F.HAL_FDCONS_COUNT 63) + 2 ^ 32 - (feeds 16 0).consumedMb % 2 ^ 32) % 2 ^ 32 < 2 ∧
    (leAt ((feeds 16 0).hostBytes 0 16) 8 4 = 16 ∧ leAt ((feeds 16 0).hostBytes 0 16) 12 4 = 0) ∧
    leAt ((feeds 17 0).hostBytes 0 16) 8 4 ≠ 16 ∧ leAt ((feeds 16 1).hostBytes 0 16) 12 4 ≠ 0 := by unfold Unarmed; decide

/-! ### The gradient exchange -/

/-- A device with one shard of 32 parameters, on engine 7. -/
def sharded : State :=
  { on with charter := some { shards := [{ length := 32, device := 0xFFFF, engine := 7 }], groups := [{ opt := 2 }],
                              regions := [{ kind := 9, unit := 7, length := 65536 }, { kind := 2, unit := 0xFFFF, length := 128 }] } }

/-- A segment of one value, with its CRC plus an error. -/
def segment (error : W32) : List Byte := zeros 28 ++ leBytes 4 (crc32c (zeros 28 ++ zeros 4) + error).toNat ++ zeros 4

/-- The root segment of that shard, of a step. -/
def rootSlot (step : Nat) : Slot := { step, bucket := 0, shard := 0, offset := 0, level := 0, vals := [0], svf := false, sat := false, own := true }

/-- The outcome of step 0 has been handled. -/
def issuedHandled : State := { sharded with job := { handled := 1 } }

/-- The device with it. -/
def rooted (step : Nat) : State := { sharded with fre := { slots := [rootSlot step], full := [(0, 0)] } }

theorem test_meets_reduction : (rooted 0).fre.full = (0, 0) :: [] ∧ ((rooted 0).region (2 + b2n (rooted 0).chart.gbuf * (0 % 2)) 0xFFFF).isSome = true ∧
    (∀ e ∈ (rooted 0).tiles, e.2.seqWait = []) ∧ (rooted 0).chart.replicas ≤ 1 ∧
    { on with job := { rolling := some 3 } }.job.rolling.isSome = true ∧ sharded.power.on = true ∧ sharded.job.rolling = none ∧
    Unarmed sharded ∧ leAt (segment 1) 28 4 ≠ (crc32c ((segment 1).take 28 ++ (segment 1).drop 32)).toNat ∧
    leAt (segment 0) 28 4 = (crc32c ((segment 0).take 28 ++ (segment 0).drop 32)).toNat ∧ sharded.job.handled ≤ leAt (segment 0) 0 8 ∧
    leAt (segment 0) 0 8 < issuedHandled.job.handled ∧ (∀ y ∈ sharded.fre.slots, y.own = false) := by
  unfold Unarmed; decide +kernel

theorem test_meets_delivery : (rooted 0).fre.slots.find? (fun y => y.own && y.level == clog2 (rooted 0).chart.replicas && y.shard == 0 && y.offset == 0) = some (rootSlot 0) ∧
    (((rooted 0).shardsAt 7).find? (fun y => y.num == 0)).isSome = true ∧ ((rooted 1).engine 7).handled < (rootSlot 1).step ∧
    (rootSlot 0).step = ((rooted 0).engine 7).handled ∧ lookup (fun _ => 0) ((rooted 0).engine 7).got 0 + 1 ≠ 32 ∧
    (rootSlot 0).step < ((rooted 0).putEngine 7 { handled := 1 } |>.engine 7).handled := by decide

/-- Two ranks, of which this device, number 0, owns the shard: the other's half is due from device 1. -/
def ranked : State :=
  { on.setFld F.FAB_DEVNUM_VALID 1 with
    charter := some { replicas := 2, bucket := 4, devices := [{ device := 0 }, { device := 1, rank := 1 }],
                      shards := [{ length := 32, device := 0, engine := 7 }],
                      tensors := [{ cell 0 0 1 with rows := 32 }] } }

/-- With a slot reserved for device 1, and a segment for it that waits. -/
def reserved (handled : Nat) : State :=
  { ranked with job := { handled }, fre := { reserved := [(1, 1)], out := [{ dest := 1, payload := zeros 36 }] } }

theorem test_meets_credits : ranked.segmentsOpen.head?.map (·.2) = some 1 ∧
    (ranked.segmentsOpen.head?.filter (fun k => ranked.segmentsDue.head? == some k)).map (·.2) = some 1 ∧
    on.segmentsOpen.head? = none ∧ on.segmentsOpen.head?.filter (fun k => on.segmentsDue.head? == some k) = none ∧
    ranked.slotsUsed + ranked.reservedAll + 64 < 2048 ∧ ranked.flag F.FAB_DEVNUM_VALID = true ∧
    ((reserved 0).senderOf (segKey (segment 0)) = some 1 ∧ (reserved 0).reservedFor 1 ≠ 0 ∧ segKey (segment 0) ∉ (reserved 0).fre.came ∧
      (∀ y ∈ (reserved 0).fre.slots, y.own = false) ∧ leAt (segment 0) 0 8 < (reserved 1).job.handled ∧
      (reserved 1).senderOf (segKey (segment 0)) = some 1 ∧ (reserved 1).reservedFor 1 ≠ 0) ∧
    (ranked.reservedFor 1 = 0 ∧ on.senderOf (segKey (segment 0)) = none) := by decide +kernel

/-- The device with its engine in a state. -/
def engine (n : Nat) (e : Engine) : State := (sharded.putEngine 7 e).setFld (F.UPD_STAT_STATE 7) n

theorem test_meets_clip : 7 ∈ (engine 2 {}).ownEngines ∧ (engine 2 {}).fld (F.UPD_STAT_STATE 7) = 2 ∧ ((engine 2 {}).engine 7).held = false ∧
    (engine 2 {}).ckHolds 7 = false ∧
    { engine 2 { handled := 2 } with hal := { ckStream := some {} } }.ckHolds 7 = true := by decide

/-- A device with the second of two shards, complete on its engine in a state; another device is the step root. -/
def complete (n : Nat) (e : Engine) : State :=
  { engine n { e with got := [(1, 32)] } with
    charter := some { shards := [{ length := 32, device := 1 }, { first := 32, length := 32, device := 0xFFFF, engine := 7 }],
                      groups := [{ opt := 2 }], regions := [{ kind := 9, unit := 7, length := 65536 }] } }

theorem test_meets_engines : ((complete 3 {}).fld (F.UPD_STAT_STATE 7) = 3 ∧ (complete 3 {}).chart.usesTrust = true ∧
      ((complete 3 {}).engine 7).trusted = false) ∧ ((complete 3 {}).shardsLeft 7 []).map (·.num) = [1] ∧
    (complete 3 {}).allShards 7 [1] = true ∧ (complete 3 {}).allShards 7 [] = false ∧
    (((complete 3 { trusted := true, vreq := true }).engine 7).trusted = true ∧ ((complete 3 { trusted := true, vreq := true }).engine 7).vreq = true) ∧
    (((complete 3 { trusted := true }).engine 7).vreq = false ∧ (complete 3 {}).devNum ≠ (complete 3 {}).chart.stepRoot) ∧
    ((engine 3 { trusted := true }).devNum = (engine 3 {}).chart.stepRoot ∧ ((engine 3 { trusted := true }).engine 7).trusted = true) := by decide

/-- A step root that issued the outcome of step 5, with a second device in its job. -/
def issued : State := { busy with charter := some { shards := [{ device := 0xFFFF }], devices := [{ device := 0xFFFF }, { device := 1 }] },
                                  root := { issued := some (5, 0, 0) }, job := { running := true, handled := 5 } }

/-- A step root whose job has issued no outcome yet. -/
def fresh : State := { issued with root := {}, job := { running := true } }

theorem test_meets_trees : (4 < issued.job.handled ∧ issued.job.handled ≤ 5 ∧ Unarmed issued) ∧
    (Nat.testBit 0x7F 7 = false ∧ Nat.testBit 0x80 7 = true ∧ ((treeOf issued.treeR 5).part 0 0x80 []).1 = some []) ∧
    issued.treeRoot ((treeOf issued.treeC 5).put 1 {}) = none ∧
    ((issued.treeRoot ((treeOf issued.treeC 5).put 0 {})).isSome = true ∧
      ((treeOf issued.treeC 5).put 0 {}).sent.contains 0 = false ∧ (ofFP32 (0 : W32)).isFinite = true) ∧
    (fresh.issuedStep ≠ some 0 ∧ fresh.root.recovery = false ∧ fresh.root.wait = none ∧ fresh.allAcked = true ∧ fresh.job.handled ≤ 0) ∧
    ({ engine 2 {} with charter := (engine 2 {}).charter }.treeRoot ((treeOf [] 0).put 0 {})).isSome = true ∧
    ((engine 4 { handled := 0 }).fld (F.UPD_STAT_STATE 7) = 4 ∧ ((engine 4 { handled := 0 }).engine 7).handled = 0 ∧
      7 ∈ (engine 4 { handled := 0 }).ownEngines) := by unfold Unarmed; decide

/-- A veto of step 6 that waits for the acknowledgements of step 5. -/
def vetoWaits : State := { issued with root := { issued.root with acks := [0xFFFF], wait := some { step := 6, cause := 1, dev := 1, shard := 0 } } }

theorem test_meets_outcomes : (15 < 16 ∧ issued.issuedStep = some 5 ∧ 5 ≤ 5 ∧ 5 < 6) ∧
    (issued.root.recovery = false ∧ issued.root.wait = none ∧ issued.allAcked = false) ∧ vetoWaits.root.wait.isSome = true ∧
    (∃ d ∈ issued.chart.devices, d.device ≠ 0xFFFF ∧ d.device ∉ issued.root.acks) ∧
    ((∀ d ∈ vetoWaits.chart.devices, d.device = 1 ∨ d.device ∈ vetoWaits.root.acks) ∧ vetoWaits.issuedStep = some 5 ∧
      vetoWaits.root.wait.map (fun w => (w.step, w.cause)) = some (6, 1) ∧ vetoWaits.root.recovery = false) := by decide

/-- A device of stage 0 of a job of two stages, whose charter is ready. -/
def staged : State := { on.setFld F.HUB_CHSTAT_STATE 2 with charter := some { stages := 2, shards := [{ device := 1 }] } }

theorem test_meets_ready : (staged.fld F.HUB_CHSTAT_STATE = 2 ∧ staged.devNum ≠ staged.chart.stepRoot ∧ 1 = staged.chart.stepRoot) ∧
    (prepared.fld F.HUB_CHSTAT_STATE = 2 ∧ on.fld F.HUB_CHSTAT_STATE ≠ 2) ∧
    ({ prepared with root := {}, charter := issued.charter }.devNum = { prepared with charter := issued.charter }.chart.stepRoot ∧
      { prepared with root := {}, charter := issued.charter }.root.started = false ∧ 1 < 2 ^ 16 ∧
      { prepared with charter := issued.charter }.chart.id < 2 ^ 64 ∧ (1 : W64).toNat ≠ { prepared with charter := issued.charter }.chart.id ∧
      ∃ d ∈ { prepared with charter := issued.charter }.chart.devices, readyKey 0 0 d.device ∉ ([] : List Nat)) := by decide

/-- A step root that has its own READY, and awaits that of device 1. -/
def gathering : State := { prepared with charter := issued.charter, root := { ready := [readyKey 0 0 0xFFFF] } }

theorem test_meets_lastReady : gathering.fld F.HUB_CHSTAT_STATE = 2 ∧ gathering.devNum = gathering.chart.stepRoot ∧
    gathering.root.started = false ∧ gathering.fld F.HUB_CHSTAT_MISMATCH = 0 ∧
    (∀ k ∈ gathering.root.ready, k = readyKey gathering.chart.id gathering.chart.crc.toNat (k % 65536)) ∧
    ∀ d ∈ gathering.chart.devices, d.device = 1 ∨ readyKey gathering.chart.id gathering.chart.crc.toNat d.device ∈ gathering.root.ready := by
  decide

/-- A message of one parameter of shard 0, of a step. -/
def param (step : Nat) : List Byte := leBytes 8 step ++ zeros 24 ++ [0x80, 0x3F]

/-- A device whose one array holds that parameter, in a state. -/
def placedOn (x : Arr) : State :=
  { on.putArr 511 7 x with charter := some { arrays := [{ tile := 511, array := 7, rows := 1, cols := 1 }], shards := [{ length := 32 }],
                                             regions := [{ kind := 4, unit := 0xFFFF, length := 2 ^ 31 }, { kind := 5, unit := 0xFFFF, stack := 1, length := 2 ^ 31 }] } }

theorem test_meets_parameters : { on with job := { rolling := some 3 } }.job.rolling.isSome = true ∧ on.job.rolling = none ∧
    (placedOn {}).job.rolling = none ∧ leAt (param 0) 16 2 = 0 ∧ leAt (param 0) 0 8 = 0 ∧
    (placedOn {}).chart.arrays.find? (fun q => q.stage == (placedOn {}).stage && decide (q.pbase ≤ 0) && decide (0 < q.pbase + q.rows * q.cols)) =
      some { tile := 511, array := 7, rows := 1, cols := 1 } ∧ (placedOn {}).targetBank 511 7 0 = 1 ∧
    ((placedOn { bank1 := { awaited := true } }).copyTakes { tile := 511, array := 7, rows := 1, cols := 1 } 1 0 = true ∧
      ((placedOn { bank1 := { awaited := true } }).arr 511 7).startup = false ∧
      ((placedOn {}).weightAddr 1 { tile := 511, array := 7, rows := 1, cols := 1 } 0).isSome = true ∧ 1 * 1 ≤ 0 + 1) ∧
    { placedOn { bank1 := { copied := true } } with job := { handled := 0 } }.copyTakes { tile := 511, array := 7, rows := 1, cols := 1 } 1 0 = false ∧
    (on.chart.arrays.find? (fun q => q.stage == on.stage && decide (q.pbase ≤ 0) && decide (0 < q.pbase + q.rows * q.cols)) = none ∧
      (if on.job.running then on.job.first else on.step) < (0 + 1) % 2 ^ 64) := by decide

/-- The device of stage 0, whose B item of micro-batch 0 runs. -/
def receiving : State :=
  { staged with charter := some { stages := 2, shards := [{ device := 1 }], regions := [{ kind := 12, unit := 0xFFFF, length := 65536 }] }
                job := { item := some (.backward, 0, 0) } }

theorem test_meets_activations : { on with job := { rolling := some 3 } }.job.rolling.isSome = true ∧ staged.job.rolling = none ∧
    (staged.feeder true).isSome = true ∧ staged.job.item = none ∧ staged.outbound true = [] ∧
    ((receiving.feeder true).isSome = true ∧ receiving.job.item.isSome = true ∧ receiving.itemBack = true ∧ receiving.itemMb = 0 ∧
      (∀ m ∈ receiving.inbound true, m.mb ≠ 0) ∧ (receiving.region (inboundKind true) 0xFFFF).isSome = true ∧
      receiving.roomIn true 16 = true ∧ receiving.job.inLoaded + 16 ≤ 65536) ∧
    (staged.roomIn true 16 = false ∧ { receiving with job := {} }.roomIn true 65536 = true ∧ on.feeder false = none ∧
      ({ receiving with job := {} }.feeder true).isSome = true) := by decide

/-- A message of activations that waits for credit. -/
def waitsOut : State := { on.setFld F.FAB_DEVNUM_VALID 1 with job := { fout := [{ mb := 0, tensor := 1, off := 0, bytes := [1] }] } }

theorem test_meets_creditReturn : waitsOut.outbound false = [{ mb := 0, tensor := 1, off := 0, bytes := [1] }] ∧
    waitsOut.nextOut false { mb := 0, tensor := 1, off := 0, bytes := [1] } = true ∧ waitsOut.credit false = 0 ∧
    waitsOut.flag F.FAB_DEVNUM_VALID = true := by decide

/-! ### The fabric -/

/-- Port 31 up on its lanes, in a state. -/
def linked (x : Port) (lanes : Nat) : State :=
  (on.putPort 31 x).wr (R.FAB_PSTAT 31) (if lanes = 15 then 0x20000000 else 0x30000000) |>.setFld (F.FAB_PSTAT_LANES 31) lanes

theorem test_meets_training : 31 < 32 ∧ on.fld (F.FAB_PSTAT_STATE 31) ≤ 1 ∧ (on.setFld (F.FAB_PSTAT_STATE 31) 1).fld (F.FAB_PSTAT_STATE 31) = 1 ∧
    (∀ k < 4, [3, 2, 1, 0].getD k 4 = 3 - k) ∧ (∀ k < 4, [0, 1, 2, 3].getD k 4 = k) ∧
    (∀ k < 4, [1, 0, 2, 3].getD k 4 < 4) ∧ (∃ k < 4, [1, 0, 2, 3].getD k 4 ≠ k) ∧ (∃ k < 4, [1, 0, 2, 3].getD k 4 ≠ 3 - k) ∧
    ((∀ k < 4, [0, 1, 4, 4].getD k 4 < 4 → [0, 1, 4, 4].getD k 4 = k) ∧
      ((List.range 4).filter (fun k => [0, 1, 4, 4].getD k 4 == k)).length < 3) := by decide

theorem test_meets_trained : 2 ≤ (linked {} 15).fld (F.FAB_PSTAT_STATE 31) := by decide

theorem test_meets_ports : (linked {} 15).portUp 31 = true ∧ (linked {} 15).fld (F.FAB_PSTAT_STATE 31) = 2 ∧
    ((linked {} 15).fld (F.FAB_PSTAT_LANES 31)).testBit 3 = true ∧
    (∀ f ∈ ((linked { buf := [{ seq := 0, vc := 0, flags := 3, data := [], sends := 15 }] } 15).port 31).buf, f.sends < 16) ∧
    (∃ f ∈ ((linked { buf := [{ seq := 0, vc := 0, flags := 3, data := [], sends := 16 }] } 15).port 31).buf, 16 ≤ f.sends) ∧
    (linked {} 14).fld (F.FAB_PSTAT_STATE 31) = 3 ∧ Reach (linked {} 15) (R.FAB_PCTRL 31) ∧ on.portUp 31 = false := by
  unfold Reach; decide

/-- A link frame: sequence number, acknowledgement, flags, data, with its CRC plus an error. -/
def frame (seq flags : Nat) (data : List Byte) (error : W32) : List Byte :=
  let b := leBytes 2 seq ++ leBytes 2 9 ++ [0] ++ leBytes 1 flags ++ leBytes 2 (data.length - 1) ++ data
  b ++ leBytes 4 (crc32c b + error).toNat

theorem test_meets_frames : Unarmed (linked {} 15) ∧ frameLength (frame 0 3 [1] 0) 9 = true ∧ frameLength (frame 0 3 [] 0) 8 = false ∧
    (frame 0 3 [1] 0).length = 13 ∧ leAt (frame 0 3 [1] 0) 9 4 = (crc32c ((frame 0 3 [1] 0).take 9)).toNat ∧
    leAt (frame 0 3 [1] 1) 9 4 ≠ (crc32c ((frame 0 3 [1] 1).take 9)).toNat ∧
    leAt (frame 0 3 [1] 0) 5 1 / 8 % 2 = 0 ∧ leAt (frame 0 3 [1] 0) 0 2 = ((linked {} 15).port 31).rxSeq ∧
    leAt (frame 1 3 [1] 0) 0 2 ≠ ((linked {} 15).port 31).rxSeq ∧ leAt (frame 0 3 [1] 0) 5 1 % 4 = 3 ∧
    leAt (frame 0 1 [1] 0) 5 1 / 2 % 2 = 0 ∧ leAt (frame 0 3 [1] 0) 5 1 / 4 % 2 = 0 ∧ ((linked {} 15).port 31).queue = [] ∧
    (∀ f ∈ ((linked {} 15).port 31).buf, f.seq ≠ leAt (frame 0 3 [1] 0) 2 2) := by unfold Unarmed; decide +kernel

/-- Port 31 with a frame that the neighbour has not acknowledged. -/
def unacked : State := linked { buf := [{ seq := 9, vc := 0, flags := 3, data := [] }] } 15

theorem test_meets_acks : frameLength (frame 0 8 [] 0) 8 = true ∧ leAt (frame 0 8 [] 0) 8 4 = (crc32c ((frame 0 8 [] 0).take 8)).toNat ∧ leAt (frame 0 8 [] 0) 5 1 / 8 % 2 = 1 ∧
    leAt (frame 0 8 [] 0) 5 1 / 4 % 2 = 0 ∧ (unacked.port 31).queue = [] ∧
    (unacked.port 31).buf.findIdx? (fun f => f.seq == leAt (frame 0 8 [] 0) 2 2) = some 0 := by decide +kernel

/-- A message for device 2 from device 1, to be forwarded over some hops. -/
def msg (hops : Nat) : Msg := { dest := 2, src := 1, cls := 4, hops, payload := [7] }

/-- Device d, which has received it whole on port 31. -/
def received (d hops : Nat) : State := (linked { whole := [(msg hops).bytes] } 15).wr R.FAB_DEVNUM (BitVec.ofNat 32 (2 ^ 31 + d))

/-- Device 3, whose table sends what is for member 2 to its port 31. -/
def forwards : State :=
  ((linked { whole := [(msg 1).bytes], joined := true } 15).wr R.FAB_DEVNUM (BitVec.ofNat 32 (2 ^ 31 + 3))).wr (R.FAB_MEMTBL 2) 0x10001F

theorem test_meets_messages : ((received 2 1).port 31).whole = (msg 1).bytes :: [] ∧
    msgOf (msg 1).bytes (slice (msg 1).bytes 32 (leAt (msg 1).bytes 20 4)) = msg 1 ∧
    leAt (msg 1).bytes 28 4 = (crc32c ((msg 1).bytes.take 28)).toNat ∧ leAt (zeros 33) 28 4 ≠ (crc32c ((zeros 33).take 28)).toNat ∧
    (received 2 1).flag F.FAB_DEVNUM_VALID = true ∧ (msg 1).dest = (received 2 1).devNum ∧ (msg 0).dest ≠ (received 3 0).devNum ∧
    leAt (msg 1).bytes 33 4 = (crc32c (msg 1).payload).toNat ∧ (received 2 1).fab.held = [] ∧
    (msg 1).flow = lookup (fun _ => 0) (received 2 1).fab.rx (8 * 1 + 4) ∧ (msg 0).hops = 0 ∧ (msg 1).hops ≠ 0 ∧
    (received 2 1).job.rolling = none ∧ (received 2 1).job.running = false ∧ Unarmed (received 2 1) ∧ (msg 1).cls < 5 ∧ (msg 1).linkLocal = false ∧
    (received 3 1).route { msg 1 with hops := 0 } false = none ∧
    forwards.route { msg 1 with hops := 0 } false = some 31 := by unfold Unarmed; decide +kernel

theorem test_meets_gaps : ({ on with fab := { held := [msg 0] } }.fab.held.find? (fun (m : Msg) => m.src == 1 && m.cls == 4)).isSome = true ∧
    on.fab.held.find? (fun (m : Msg) => m.src == 1 && m.cls == 4) = none ∧ { on with fab := { wait := [msg 0] } }.fab.wait ≠ [] ∧
    on.fab.wait = [] := by decide

theorem test_meets_discovery : on.sec.bootLoad = false ∧ Reach on R.FAB_DCTRL ∧ on.fld F.HUB_CHSTAT_STATE ≠ 2 ∧
    staged.fld F.HUB_CHSTAT_STATE = 2 ∧ (linked {} 15).portUp 31 = true ∧ on.isRoot = false ∧ (linked {} 15).fab.graph = [] := by
  unfold Reach
  refine ⟨by decide, by decide, by decide, by decide, by decide, ?_, by decide⟩
  simp [State.isRoot, show on.fld F.FAB_EPOCH_EPOCH = 0 by decide]

/-- A device that is not this one. -/
theorem test_meets_announcement : ({ serial := mySerial + 1, links := [] } : GraphNode).serial ≠ mySerial := Nat.succ_ne_self _

/-- This device as the fabric's root. -/
def root : State := (on.setPair F.FAB_ROOT_LO_SERIAL F.FAB_ROOT_HI_SERIAL mySerial).setFld F.FAB_EPOCH_EPOCH 1

theorem test_meets_portLoss : root.isRoot = true := by
  have h : mySerial < 2 ^ 64 := Config.serial.isLt
  have hl : root.fld F.FAB_ROOT_LO_SERIAL = mySerial % 2 ^ 32 := by
    simp only [root, State.setPair]
    rw [fld_setFld_other _ _ _ _ (by decide) (by decide) (by decide), fld_setFld_other _ _ _ _ (by decide) (by decide) (by decide),
      fld_setFld_same _ _ _ (by decide) (by decide)]
    rfl
  have hh : root.fld F.FAB_ROOT_HI_SERIAL = mySerial / 2 ^ 32 % 2 ^ 32 := by
    simp only [root, State.setPair]
    rw [fld_setFld_other _ _ _ _ (by decide) (by decide) (by decide), fld_setFld_same _ _ _ (by decide) (by decide)]
    rfl
  have he : root.fld F.FAB_EPOCH_EPOCH = 1 := fld_setFld_same _ _ _ (by decide) (by decide)
  simp [State.isRoot, State.pair, hl, hh, he]
  omega

/-! ### Faults, rollback, Stewards -/

/-- A step root whose recovery awaits the RBACK of device 1. -/
def recovering : State := { issued with root := { issued.root with recovery := true }, job := { issued.job with fault := some (0x10, false), faultSends := 3 } }

theorem test_meets_halts : busy.job.running = true ∧ busy.job.halted = false ∧ busy.job.ctx < 16 ∧ busy.ens.up ≠ 0 ∧ recovering.ens.up ≠ 0 ∧
    (recovering.root.recovery = true ∧ ∃ d ∈ recovering.chart.devices, ∀ r ∈ recovering.root.rbacks, r.1 ≠ d.device) ∧
    (recovering.job.fault.isSome = true ∧ 3 ≤ recovering.job.faultSends) ∧ busy.devNum = busy.chart.stepRoot ∧
    { busy with job := { busy.job with fault := some (0x10, false), faultSends := 2 } }.job.faultSends < 3 := by decide

theorem test_meets_haltsNothing : on.job.running = false ∧ on.root.recovery = false ∧ on.job.fault = none ∧ on.job.rolling = none ∧
    on.root.issued = none ∧ State.reset.ens.up = 0 := by decide

theorem test_meets_rollback : (issued.job.running = true ∧ issued.ens.up ≠ 0 ∧ issued.devNum = issued.chart.stepRoot) ∧ issued.job.rolling = none ∧
    (∃ d ∈ recovering.chart.devices, d.device ≠ 1 ∧ ∀ r ∈ recovering.root.rbacks, r.1 ≠ d.device) ∧
    { busy with job := { rolling := some 6 } }.job.rolling = some 6 ∧
    (issued.root.issued = some ((5 : W64).toNat, 0, 0) ∧ issued.flag F.FAB_DEVNUM_VALID = false ∧
      { issued.setFld F.FAB_DEVNUM_VALID 1 with root := issued.root }.flag F.FAB_DEVNUM_VALID = true) := by decide

/-- The host commands of some contexts are held after a hang. -/
def suspects (hosts : List Nat) : State := { on with hang := { hosts } }

theorem test_meets_hangs : 15 ∈ hostContexts [(0, { acc := 15 * 2 ^ 48 })] ∧ on.hang.hosts = [] ∧
    (0 ∈ (suspects [15, 0]).hang.hosts ∧ ∀ k ∈ (suspects [15, 0]).hang.hosts, 0 ≤ k) ∧
    (15 ∈ (suspects [15]).hang.hosts ∧ ∀ k ∈ (suspects [15]).hang.hosts, 15 ≤ k) ∧
    ((suspects [0]).job.suspect = false ∨ (suspects [0]).job.ctx ≠ 0) ∧ (∀ h ∈ (suspects [0]).hang.held, h.1 ≠ 0) ∧
    ∃ h ∈ { on with hang := { hosts := [0], held := [(0, 0x44, {})] } }.hang.held, h.1 = 0 := by decide

/-- Some Stewards up, bit n for half n. -/
def stewards (up : Nat) : State := { on with ens := { up, epoch := 7, epoch0 := 7, epoch1 := 7 } }

/-- Both up, and the record that the ensign sent last. -/
def recorded : State := { stewards 3 with ens := { (stewards 3).ens with sentRec := some (stewards 3).record, ackDue := [(0, 0)] } }

theorem test_meets_stewards : (stewards 2).ens.up.testBit (0 % 2) = false ∧ (stewards 3).ens.up = 3 ∧ (stewards 1).ens.up = 2 ^ (0 % 2) ∧
    (0 % 2 = (stewards 3).ens.half ∧ 1 % 2 ≠ (stewards 3).ens.half) ∧
    (stewards 0).ens.up.testBit (1 % 2) = false ∧ (stewards 0).ens.up = 0 ∧ (stewards 1).ens.up.testBit (1 % 2) = false ∧
    (stewards 3).ens.sentRec = none ∧ (stewards 0).sec.bootLoad = false ∧ (stewards 0).job.fault = none ∧
    recovering.job.fault.isSome = true := by decide

theorem test_meets_records : (stewards 3).ens.sentRec.or (stewards 3).ens.standby ≠ some (stewards 3).record ∧
    (recorded.ens.up = 3 ∧ recorded.ens.sentRec.or recorded.ens.standby = some recorded.record ∧ recorded.ens.sentRec.isSome = true) ∧
    ((stewards 1).ens.up ≠ 0 ∧ (stewards 1).ens.up ≠ 3) := by decide

theorem test_meets_ensignActions : Unarmed (stewards 3) ∧
    ((7 : W32).toNat = (stewards 3).ens.epoch ∧ 0 % 2 = (stewards 3).ens.half ∧ (stewards 3).ens.up.testBit (0 % 2) = true) ∧
    (8 : W32).toNat ≠ (stewards 3).ens.epoch ∧ 1 % 2 ≠ (stewards 3).ens.half ∧ (stewards 2).ens.up.testBit (0 % 2) = false := by
  unfold Unarmed; decide

theorem test_meets_resets : Reach on R.RST_CTRL ∧ on.ens.up ≠ 0 ∧ Nat.testBit 8 (partOf 511) = true ∧ Nat.testBit 7 (partOf 511) = false ∧
    (busy.job.running = true ∧ busy.job.fault = none ∧ busy.job.rolling = none ∧ busy.ens.up ≠ 0) := by unfold Reach; decide

/-- A dump in a state. -/
def dumped (n : Nat) : State := on.setFld F.RST_DUMPSTAT_STATE n

theorem test_meets_dumps : Reach (dumped 3) R.RST_CTRL ∧ (dumped 3).fld F.RST_DUMPSTAT_STATE ∈ [1, 2, 3] ∧
    (dumped 4).fld F.RST_DUMPSTAT_STATE ∉ [1, 2, 3] ∧ (dumped 1).fld F.RST_DUMPSTAT_STATE = 1 ∧ 0 ∉ (dumped 1).dump.unreach ∧
    (dumped 1).linkUp = true ∧ { on with hal := {} }.linkUp = false := by unfold Reach; decide

/-- A checkpoint's stream with two records left, and a ring of 16 buffers of which one is ready. -/
def streaming : State :=
  { (on.setFld F.HAL_CKSIZE_LOG2 4) with
    hal := { linkUp := true, ckProd := 1, ckStream := some { begun := true, todo := [zeros 32, zeros 32] } } }

theorem test_meets_checkpoints : streaming.linkUp = true ∧ streaming.fld F.HAL_CKSIZE_LOG2 ≠ 0 ∧
    streaming.fld F.HAL_CKCONS_COUNT ≠ streaming.hal.ckProd ∧ (streaming.hal.ckStream.map (·.begun)) = some true ∧
    fitting (leAt (streaming.hostBytes 0 16) 8 4) [zeros 32, zeros 32] < 2 := by decide

/-- A checkpoint's stream, of one command, that the next buffer ends. -/
def ending : State :=
  { (on.setFld F.HAL_CKSIZE_LOG2 4) with
    hal := { linkUp := true, ckProd := 1, ckStream := some { begun := true, accs := [acc0] } } }

theorem test_meets_checkpointEnd : ending.linkUp = true ∧ (ending.hal.ckStream.map (·.accs)) = some [acc0] ∧
    fitting (leAt (ending.hostBytes 0 16) 8 4) [] = ([] : List (List Byte)).length ∧ accKind acc0 = 0 ∧ accSource acc0 = 16 ∧
    ending.canComplete 16 ∧ ending.fld F.HAL_CKCONS_COUNT ≠ ending.hal.ckProd ∧
    ({ on with hal := { linkUp := true, ckStream := some { accs := [acc0] } } }.fld F.HAL_CKSIZE_LOG2 = 0 ∧
      { on with hal := { linkUp := true, ckStream := some { accs := [acc0] } } }.canComplete 16) := by
  unfold State.canComplete; decide

/-! ### Tests, injection, observation, ledger, security -/

/-- A tile with a test that runs, in a mode, and some that wait. -/
def testing (kind mode n : Nat) : State :=
  (on.putTileRec 511 { test := some { kind, mode }, waiting := List.replicate n { kind := 1, mode } }).setFld (F.TIL_TESTSTAT_STATE 511) 2

theorem test_meets_tests : (on.tile 511).test = none ∧ ((testing 3 2 8).tile 511).test = some { kind := 3, mode := 2 } ∧
    ({ kind := 3, mode := 2 } : TestReq).covers { kind := 4, mode := 2, array := 7 } = false ∧ 8 ≤ ((testing 3 2 8).tile 511).waiting.length ∧
    (testing 3 2 0).testRipe 511 { kind := 3, mode := 2 } = true ∧ (testing 3 2 0).fld (F.TIL_TESTSTAT_VERDICT 511) ≠ 5 ∧
    ((testing 3 2 0).tile 511).waiting = [] ∧ (testing 3 1 0).testRipe 511 { kind := 3, mode := 1 } = true := by decide

/-- A tile with a command that awaits its comparison. -/
def duplicated : State := on.putTileRec 511 { redPend := [{ op := 0x44, cmd := cmd 0, unit := 14, status := 0, num := {}, crc := 5 }] }

theorem test_meets_redundancy : (on.tile 511).redPend = [] ∧ ((duplicated.tile 511).redPend.map (·.cmd.tile)) = [511] ∧ Unarmed duplicated ∧
    (accKind (cmd 0).acc = 0 ∧ accSource (cmd 0).acc < 17) ∧ (5 : W32) ≠ 6 := by unfold Unarmed; decide

theorem test_meets_injection : Reach on R.INJ_CTRL ∧ (on.setFld F.INJ_STAT_LOCKED 1).fld F.INJ_STAT_LOCKED = 1 ∧
    (on.setFld F.INJ_STAT_LOCKED 0).fld F.INJ_STAT_LOCKED = 0 ∧ (injModes 36).1 = true ∧ (injModes 37).1 = false ∧ (injModes 8).2 = true ∧ (injModes 9).2 = false := by
  unfold Reach; decide

theorem test_meets_memoryErrors : deviceBytes - 1 < deviceBytes ∧
    (copies.regionOf 0).isSome = true ∧ { copies with job := { running := true } }.job.running = true ∧
    (on.setFld (F.ARR_BSTAT_INBUD 511 7) 1).fld (F.ARR_BSTAT_INBUD 511 7) = 1 ∧
    ((on.putArr 511 7 { out := true }).arr 511 7).out = true ∧ (on.arr 511 7).out = false ∧ copies.dfwd = true ∧
    on.covered 511 - (on.arr 511 7).cover.length = 0 ∧
    (on.putArr 511 6 { cover := [0] }).covered 511 - ((on.putArr 511 6 { cover := [0] }).arr 511 7).cover.length ≠ 0 := by decide

/-- A tile whose folio holds bytes in one record. -/
def folio (n : Nat) : State := on.putTileRec 511 { folio := [zeros n] }

/-- A ring of 64 KiB in the last stack, or another destination, a count of bytes produced, and credit for a record. -/
def draining (dest prod : Nat) : State :=
  { (((((((folio 40).setFld F.GOV_BEAT_RATE 1024).setFld F.FOL_CTRL_EN 1).setFld F.FOL_CTRL_STACK 7).setFld F.FOL_CTRL_DEST dest).setFld F.FOL_SIZE_LOG2 16).setFld
      F.FAB_DEVNUM_VALID 1).setPair F.FOL_PROD_LO_BYTES F.FOL_PROD_HI_BYTES prod with osc := 1000 }

theorem test_meets_drain : ((draining 0 0).tile 511).folio = zeros 40 :: [] ∧ (draining 0 0).drainable 511 = true ∧
    (draining 0 0).drainTurn 511 = true ∧ (draining 0 0).fld F.FOL_CTRL_EN = 1 ∧ (draining 0 0).fld F.FOL_CTRL_DEST = 0 ∧
    (draining 0 0).fld F.FOL_CTRL_STACK < 8 ∧ (draining 0 0).fld F.FOL_CTRL_WRAP = 0 ∧
    (draining 0 0).folUsed + (zeros 40).length ≤ (draining 0 0).folSize ∧
    (draining 0 65497).folSize < (draining 0 65497).folUsed + (zeros 40).length := by decide +kernel

theorem test_meets_drainAway : (draining 2 0).drainable 511 = true ∧ (draining 2 0).drainTurn 511 = true ∧
    (draining 2 0).fld F.FOL_CTRL_EN = 1 ∧ (draining 2 0).fld F.FOL_CTRL_DEST = 2 ∧ (draining 2 0).flag F.FAB_DEVNUM_VALID = true ∧
    on.drainable 511 = false ∧ { draining 0 0 with drain := { last := 510 }, tiles := (draining 0 0).tiles }.drainTurn 511 = true ∧
    ((draining 0 0).putTileRec 0 { folio := [zeros 40] }).drainTurn 511 = false ∧ ((folio 40).fld F.FOL_CTRL_EN = 0) := by decide +kernel

/-- A record of 40 bytes. -/
def traced : List Byte := [0x20, 0, 40, 0] ++ zeros 36

theorem test_meets_traces : (on.folRing = false ∧ (draining 0 0).folRing = true) ∧ traced.length ≠ 0 ∧ leAt traced 2 2 = traced.length ∧
    (draining 0 0).folUsed + traced.length ≤ (draining 0 0).folSize ∧
    (draining 0 65497).folSize < (draining 0 65497).folUsed + traced.length ∧ Reach on R.FOL_CONS_LO := by unfold Reach; decide +kernel

/-- A ledger with a request of the host. -/
def asked : State := { on with ledger := { queue := [{ src := 2, type := 0x15, key := 0, value := zeros 4 }],
                                           live := [{ type := 0x15, key := 0, value := zeros 4, count := 0 }] } }

theorem test_meets_ledger : Reach asked R.LDG_CMD ∧ asked.ledgerBusy = true ∧ on.ledgerBusy = false ∧ hostType 0x16 = false ∧
    hostType 0x15 = true ∧ ledgerLen 0x15 = some 4 ∧ asked.liveVal 0x15 0 = some (zeros 4) ∧ on.liveVal 0x15 0 = none ∧ Unarmed on ∧
    ((0x25 : W16).toNat ∈ [0x24, 0x25] ∧ ledgerLen 0x25 = some 0) ∧
    (on.inRecovery = false ∧ on.ens.up ≠ 0 ∧ 0x20 ≤ (0x23 : W16).toNat ∧ (0x23 : W16).toNat ≤ 0x23) := by
  unfold Reach Unarmed; decide

theorem test_meets_commit : asked.ledger.readOnly = false ∧ batchFits asked.ledger.queue 1 = true ∧ batchFits asked.ledger.queue 2 = false := by
  decide

/-- Running images under key set 1. -/
def booted : State := { on with sec := { images := [(1, { svn := 3, keyset := 1 })] } }

theorem test_meets_warden : booted.sec.images ≠ [] ∧ on.sec.images = [] ∧ (∀ e ∈ booted.sec.images, 0 < e.2.keyset) ∧
    (∃ e ∈ booted.sec.images, e.2.keyset ≤ 3) := by decide

/-! ### UPDATE's cases -/

/-- The first 80 bytes of a boot header (R645) that meets R644 in a flash of 64 MiB: two slots of 4 MiB, no stored charter,
two ledger regions of 12 MiB. -/
def layout : List Byte :=
  leBytes 4 0x4842564F ++ leBytes 4 1 ++ zeros 8 ++ leBytes 8 0x100000 ++ leBytes 8 0x500000 ++ leBytes 4 0x400000 ++
    zeros 20 ++ leBytes 8 0x1000000 ++ leBytes 8 0x2000000 ++ leBytes 4 0xC00000 ++ zeros 4

/-- A header: its layout, 4,012 further bytes and its CRC. -/
def header (z : List Byte) : List Byte := (layout ++ z) ++ leBytes 4 (crc32c (layout ++ z)).toNat

/-- A powered package whose flash holds the header twice. -/
def headed (z : List Byte) : State := (on.putFlash 0 (header z)).putFlash 4096 (header z)

theorem test_layout_length : layout.length = 80 := by decide

/-- What the header says is what its layout says. -/
theorem test_header_reads (x : List Byte) (o n : Nat) (h : o + n ≤ 80) : leAt (layout ++ x) o n = leAt layout o n := by
  have hl := test_layout_length
  unfold leAt slice
  rw [List.drop_append_of_le_length (by omega), List.take_append_of_le_length (by rw [List.length_drop]; omega)]

theorem test_layout_says : leAt layout 0 4 = 0x4842564F ∧ leAt layout 9 1 = 0 ∧ leAt layout 16 8 = 0x100000 ∧
    leAt layout 24 8 = 0x500000 ∧ leAt layout 32 4 = 0x400000 ∧ leAt layout 56 8 = 0x1000000 ∧ leAt layout 64 8 = 0x2000000 ∧
    leAt layout 72 4 = 0xC00000 := by decide

theorem test_header_areas (x : List Byte) : headerAreas (layout ++ x) =
    [(0, 65536), (0x100000, 0x400000), (0x500000, 0x400000), (0x1000000, 0xC00000), (0x2000000, 0xC00000)] := by
  obtain ⟨-, h1, h2, h3, h4, h5, h6, h7⟩ := test_layout_says
  simp only [headerAreas, test_header_reads x _ _ (show 16 + 8 ≤ 80 by decide), test_header_reads x _ _ (show 24 + 8 ≤ 80 by decide),
    test_header_reads x _ _ (show 32 + 4 ≤ 80 by decide), test_header_reads x _ _ (show 56 + 8 ≤ 80 by decide),
    test_header_reads x _ _ (show 64 + 8 ≤ 80 by decide), test_header_reads x _ _ (show 72 + 4 ≤ 80 by decide),
    test_header_reads x _ _ (show 9 + 1 ≤ 80 by decide), h1, h2, h3, h4, h5, h6, h7]
  rfl

/-- In a flash of at least 64 MiB the header is valid. -/
theorem test_header_valid (z : List Byte) (hz : z.length = 4012) (room : 2 ^ 26 ≤ Config.flashSize) :
    headerValid (header z) = true := by
  have hlen : (layout ++ z).length = 4092 := by rw [List.length_append, hz, test_layout_length]
  have hc : leAt (header z) 4092 4 = (crc32c ((header z).take 4092)).toNat := by
    have ht : (header z).take 4092 = layout ++ z := by rw [header, ← hlen, List.take_left]
    rw [ht, leAt, slice, header, ← hlen, List.drop_left, List.take_of_length_le (by simp), leNat_leBytes]
    have := (crc32c (layout ++ z)).isLt
    omega
  have ha : header z = layout ++ (z ++ leBytes 4 (crc32c (layout ++ z)).toNat) := List.append_assoc ..
  have h1 : leAt (header z) 0 4 = 0x4842564F := by rw [ha, test_header_reads _ _ _ (by decide)]; exact test_layout_says.1
  have h2 : leAt (header z) 32 4 = 0x400000 := by
    rw [ha, test_header_reads _ _ _ (by decide)]; exact test_layout_says.2.2.2.2.1
  have h3 : leAt (header z) 72 4 = 0xC00000 := by
    rw [ha, test_header_reads _ _ _ (by decide)]; exact test_layout_says.2.2.2.2.2.2.2
  have h4 : headerAreas (header z) = headerAreas (layout ++ (z ++ leBytes 4 (crc32c (layout ++ z)).toNat)) := by rw [← ha]
  rw [test_header_areas] at h4
  have h6 : areasClash [(0, 65536), (0x100000, 0x400000), (0x500000, 0x400000), (0x1000000, 0xC00000), (0x2000000, 0xC00000)] = false := by
    decide
  unfold headerValid
  rw [hc, h1, h2, h3, h4]
  simp [h6]
  omega

/-- A staged set of no bytes fails its first image's header check. -/
theorem test_empty_set : on.setCause [] = 1 := by
  have h : imageOffsets [] = [0, 8192, 16384] := by decide
  have i : on.imageCause [] 0 1 = 1 := by unfold State.imageCause; simp [leAt, slice, leNat]
  simp [State.setCause, h, i]

/-- The flash's size is the configuration's, so a valid header is shown for a flash of at least 64 MiB; which signatures
verify is the configuration's too, so no set of images is shown to pass every check. -/
theorem test_meets_update (z : List Byte) (hz : z.length = 4012) (room : 2 ^ 26 ≤ Config.flashSize) :
    (headed z).power.on = true ∧ (headed z).bootHeader = some (0, header z) ∧
    (headed z).stagedSet.length ≤ leAt (header z) 32 4 ∧ (headed z).setCause (headed z).stagedSet ≠ 0 := by
  have hl : (header z).length = 4096 := by simp [header, hz, test_layout_length]
  have hv := test_header_valid z hz room
  have f1 : (headed z).flashBytes 4096 4096 = header z := by
    have := flashBytes_putFlash (on.putFlash 0 (header z)) 4096 (header z)
    rwa [hl] at this
  have f0 : (headed z).flashBytes 0 4096 = header z := by
    apply List.ext_getElem
    · simp [State.flashBytes, hl]
    · intro i h1 h2
      simp only [State.flashBytes, headed, State.putFlash, readMany_getElem, lookup_writeMany]
      rw [if_neg (by omega), if_pos (by omega)]
      simp [List.getElem?_eq_getElem h2]
  have hs : (headed z).stagedSet = [] := by
    have : (headed z).stagedSet = on.stagedSet := rfl
    rw [this]
    decide
  have hcause : (headed z).setCause [] = 1 := test_empty_set
  refine ⟨rfl, ?_, ?_, ?_⟩
  · simp [State.bootHeader, f0, f1, hv]
  · rw [hs]
    exact Nat.zero_le _
  · rw [hs, hcause]
    decide

/-- A flash whose two copies of the header begin with a zero byte has no valid one. -/
theorem test_meets_update_none : ((on.putFlash 0 [0]).putFlash 4096 [0]).bootHeader = none := by
  have bad (h : List Byte) (hh : h[0]? = some 0) : headerValid h = false := by
    have : leAt h 0 4 ≠ 0x4842564F := by
      cases h with
      | nil => simp at hh
      | cons b bs =>
        simp only [List.getElem?_cons_zero, Option.some.injEq] at hh
        subst hh
        intro e
        have e' : (0 : Byte).toNat + 256 * leNat (bs.take 3) = 0x4842564F := e
        have : (0 : Byte).toNat = 0 := rfl
        omega
    simp [headerValid, this]
  have zero (a : Nat) (ha : a = 0 ∨ a = 4096) :
      (((on.putFlash 0 [0]).putFlash 4096 [0]).flashBytes a 4096)[0]? = some 0 := by
    rw [List.getElem?_eq_getElem (by simp [State.flashBytes])]
    simp only [State.flashBytes, State.putFlash, readMany_getElem, lookup_writeMany]
    obtain rfl | rfl := ha <;> simp
  have z0 := bad _ (zero 0 (.inl rfl))
  have z1 := bad _ (zero 4096 (.inr rfl))
  unfold State.bootHeader
  simp only [z0, z1]

/-! ### A charter that passes every check (R406) -/

/-- A directory entry of a charter (R391). -/
def sect (type count offset : Nat) : List Byte :=
  leBytes 2 type ++ leBytes 2 (sectionSize type) ++ leBytes 4 count ++ leBytes 8 offset

/-- The first 60 bytes of a charter of 832 bytes: one device, one micro-batch. -/
def charterHead : List Byte :=
  leBytes 4 0x4843564F ++ leBytes 2 1 ++ leBytes 2 12 ++ leBytes 8 832 ++ zeros 20 ++ leBytes 4 4 ++ zeros 8 ++ leBytes 4 1 ++ zeros 8

/-- Its directory, and the device record up to its serial number. -/
def charterDir : List Byte :=
  sect 1 1 256 ++ sect 2 1 272 ++ sect 3 1 320 ++ sect 4 1 352 ++ sect 5 0 0 ++ sect 6 1 528 ++ sect 7 0 0 ++ sect 8 1 560
    ++ sect 9 2 768 ++ sect 10 1 784 ++ sect 12 0 0 ++ sect 14 1 800 ++ (leBytes 2 1 ++ zeros 6)

/-- The records behind it: a tensor, a region, an array of one weight, a group, a schedule, the order, a layer, and no
checkpoints. -/
def charterRest : List Byte :=
  (zeros 16 ++ leBytes 4 1 ++ leBytes 4 1 ++ leBytes 4 16 ++ zeros 20) ++ (leBytes 1 2 ++ zeros 5 ++ leBytes 2 0xFFFF ++ zeros 8 ++ leBytes 8 4096 ++ zeros 8)
    ++ (zeros 6 ++ leBytes 1 1 ++ zeros 11 ++ leBytes 2 1 ++ leBytes 2 1 ++ zeros 146 ++ zeros 8)
    ++ (leBytes 1 1 ++ zeros 31) ++ (leBytes 1 1 ++ zeros 199 ++ zeros 8) ++ (leBytes 4 0x10000 ++ leBytes 4 0x20000 ++ zeros 8)
    ++ (zeros 8 ++ leBytes 8 1) ++ zeros 32

/-- What stands behind the checksum: the serial number is the package's own. -/
def charterTail : List Byte := charterDir ++ (leBytes 8 Config.serial.toNat ++ charterRest)

/-- The charter. -/
def charterBytes : List Byte := charterHead ++ (leBytes 4 (crc32c (charterHead ++ charterTail)).toNat ++ charterTail)

/-- As on, numbered 1, with the charter at the start of device memory and its LOAD fetched. -/
def chartered : State := (give ((on.setFld F.FAB_DEVNUM_VALID 1).setFld F.FAB_DEVNUM_MEMBER 1) (.load acc0 0 832)).putMem 0 charterBytes

theorem test_charter_crc : leAt charterBytes 60 4 = (crc32c (charterBytes.take 60 ++ charterBytes.drop 64)).toNat := by
  have h60 : charterHead.length = 60 := by decide
  have ht : charterBytes.take 60 = charterHead := by rw [charterBytes, ← h60, List.take_left]
  have hd : charterBytes.drop 64 = charterTail := by
    rw [charterBytes, show 64 = charterHead.length + 4 from rfl, List.drop_length_add_append]
    exact List.drop_left' (leBytes_length 4 _)
  have hl : leAt charterBytes 60 4 = (crc32c (charterHead ++ charterTail)).toNat % 2 ^ 32 := by
    rw [leAt, slice, charterBytes, ← h60, List.drop_left, List.take_left' (leBytes_length 4 _), leNat_leBytes, show (256 : Nat) ^ 4 = 2 ^ 32 from by norm_num]
  rw [ht, hd, hl]
  have := (crc32c (charterHead ++ charterTail)).isLt
  omega

/-- The device record that the charter gives. -/
theorem test_charter_device : (parseCharter charterBytes).devices = [{ device := 1, stage := 0, rank := 0, serial := Config.serial.toNat }] := by
  have h : (parseCharter charterBytes).devices = [{ device := 1, stage := 0, rank := 0, serial := leNat (leBytes 8 Config.serial.toNat) }] := rfl
  have := Config.serial.isLt
  rw [h, leNat_leBytes, Nat.mod_eq_of_lt (by omega)]

/-- No check finds a violation. -/
theorem test_no_reason (qs : List (Nat × (Unit → List Viol))) (h : ∀ q ∈ qs, q.2 () = []) : firstReason qs = none := by
  induction qs with
  | nil => rfl
  | cons q qs ih => simp [firstReason, h q (.head _), leastViol, ih (fun r hr => h r (.tail _ hr))]

theorem test_charter_container : badContainer charterBytes = [] := by
  have h : (leAt charterBytes 60 4 != (crc32c (charterBytes.take 60 ++ charterBytes.drop 64)).toNat) = false := by
    rw [test_charter_crc]; exact bne_self_eq_false _
  simp only [badContainer, h]
  decide +kernel

theorem test_charter_self : chartered.badSelf (parseCharter charterBytes) = [] := by
  have hn : chartered.devNum = 1 := by decide +kernel
  have hv : chartered.flag F.FAB_DEVNUM_VALID = true := by decide +kernel
  simp [State.badSelf, test_charter_device, hn, hv, viol]

/-- The charter passes every check. -/
theorem test_charter_good : firstReason (chartered.charterChecks charterBytes) = none := by
  apply test_no_reason
  intro q hq
  simp only [State.charterChecks, List.cons_append, List.nil_append, List.mem_cons, List.not_mem_nil, or_false] at hq
  rcases hq with rfl | rfl | rfl | rfl | hq
  · exact test_charter_container
  · decide +kernel
  · exact test_charter_self
  · decide +kernel
  · rcases hq with rfl | rfl | rfl | rfl | rfl | rfl | rfl | rfl | rfl | rfl | rfl | rfl | rfl | rfl | rfl | rfl | rfl | rfl | rfl | rfl | rfl | rfl <;>
      decide +kernel

theorem test_meets_load : chartered.hostReady (.load acc0 0 832) acc0 ∧ chartered.ens.up ≠ 0 ∧ chartered.job.running = false ∧ Unarmed chartered ∧
    chartered.fld F.HUB_CHSTAT_STATE ∉ [1, 2] ∧ firstReason (chartered.charterChecks (chartered.memBytes 0 832)) = none := by
  have hl : charterBytes.length = 832 := by decide +kernel
  have hb : chartered.memBytes 0 832 = charterBytes := by
    have h := memBytes_putMem (s := give ((on.setFld F.FAB_DEVNUM_VALID 1).setFld F.FAB_DEVNUM_MEMBER 1) (.load acc0 0 832)) 0 charterBytes
    rw [hl] at h
    exact h
  rw [hb]
  exact ⟨test_mayAsk_hostReady (by decide +kernel), by decide +kernel, by decide +kernel, by unfold Unarmed; decide +kernel, by decide +kernel,
    test_charter_good⟩
/-! ### Ill-formed commands are refused: one for each check -/

theorem test_ill_formed_1 : ∀ i ∈ (
  [.efuseTrip 8, .phaseLoss 8 false, .railBackInBand 8, .sentinelResult false [4096], .urgentRequest 64 .host,
   .sncUrgWrite 64, .sncThrWrite 64 0, .shadowTableWrite 48 0 0, .shadowTableWrite 0 2 0, .hostMemoryFault (2 ^ 64),
   .commandDoorbell 17 0, .feedDoorbell 64 0] : List Instr), i.wf = false := by decide

theorem test_ill_formed_2 : ∀ i ∈ (
  [.halEnable 17, .halStop 17, .halyardStopped 17, .commandFetch 17, .halCqheadWrite 17 0, .halIrqWrite 17 0,
   .irqAgeTimeout 17, .nop (2 ^ 64), .load (2 ^ 64) 0 0, .start (2 ^ 64) 0, .stop (2 ^ 64) 0, .unload (2 ^ 64)] : List Instr), i.wf = false := by decide

theorem test_ill_formed_3 : ∀ i ∈ (
  [.abort (2 ^ 64) 0, .checkpoint (2 ^ 64), .restore (2 ^ 64) 0 0, .copy (2 ^ 64) 0 0 0 0 0, .retire (2 ^ 64) 0 0 0 0,
   .test (2 ^ 64) 0 0 0 0, .tensor (2 ^ 64) (List.replicate 48 0), .tensor 0 [], .tilNstatRead 512, .tilRseLossHiRead 512,
   .arrayMvm 512 0 0 0 0 false 0 (List.replicate 512 0), .arrayMvm 0 8 0 0 0 false 0 (List.replicate 512 0)] : List Instr), i.wf = false := by decide

theorem test_ill_formed_4 : ∀ i ∈ (
  [.arrayMvm 0 0 (2 ^ 64) 0 0 false 0 (List.replicate 512 0), .arrayMvm 0 0 0 0 3 false 0 (List.replicate 512 0), .arrayMvm 0 0 0 0 0 false 0 [0],
   .converterPowerDown 512 0, .converterPowerDown 0 8, .arrCntClr 512 0, .arrCntClr 0 8,
   .residualCorrection 512 0 false false, .residualCorrection 0 8 false false, .cover 512 0 false false,
   .cover 0 8 false false, .coverStaging 512] : List Instr), i.wf = false := by decide

theorem test_ill_formed_5 : ∀ i ∈ (
  [.panelFetch 512 0 0, .panelFetch 0 8 0, .stationaryOperandFetch 512 0 0, .opeCntClr 512, .rewriteStart 512 0,
   .rewriteStart 0 8, .bankClear 512 0, .bankClear 0 8, .programmingCycle 512, .programmingSuspend 512 0,
   .programmingSuspend 0 8, .remap 512 0 0 0 0] : List Instr), i.wf = false := by decide

theorem test_ill_formed_6 : ∀ i ∈ (
  [.remap 0 8 0 0 0, .remap 0 0 2 0 0, .remap 0 0 0 512 0, .activeBankReverify 512 0, .activeBankReverify 0 8,
   .residualMeasurement 512 0, .residualMeasurement 0 8, .factorBuild 512 0, .factorBuild 0 8, .pn4ImageBuild 512 0 0,
   .pn4ImageBuild 0 8 0, .pn4ImageBuild 0 0 2] : List Instr), i.wf = false := by decide

theorem test_ill_formed_7 : ∀ i ∈ (
  [.groupSpill 512, .groupReload 512 0, .groupReload 0 (2 ^ 64), .halfDrained 2, .feedDescriptorCopy 64,
   .updateApplyComplete 8, .updGnormRead 8, .linkTraining 32 { lanes := [], serial := 0, port := 0 },
   .trainingRetry 32 { lanes := [], serial := 0, port := 0 }, .linkFrame 32 [], .retryTimeout 32, .laneLoss 32 0 0] : List Instr), i.wf = false := by decide

theorem test_ill_formed_8 : ∀ i ∈ (
  [.laneLoss 0 4 0, .portDown 32, .fabricMessage 32, .flowGapTimeout 65536 0, .flowGapTimeout 0 5,
   .discoveryAnnouncement 32 { serial := 0, links := [] }, .retrain 32, .portEnableWrite 32 false, .calibration 512 0 0, .calibration 0 8 0,
   .calibrationSuspend 512 0, .calibrationSuspend 0 8] : List Instr), i.wf = false := by decide

theorem test_ill_formed_9 : ∀ i ∈ (
  [.redundancyCompare 512 0 0, .testRequest 512 0 0 0 0 0, .testRequest 0 6 0 0 0 0, .testRequest 0 0 3 0 0 0,
   .testRequest 0 0 0 8 0 0, .testEnd 512, .memoryCorrectableError (640 * 2 ^ 30), .memoryUncorrectableError (640 * 2 ^ 30),
   .watchdogExpiry 16 0 [] [], .stewardHeartbeatTimeout 2, .stewardRestartComplete 2, .ensignOnlyAction 2 0] : List Instr), i.wf = false := by decide

theorem test_ill_formed_10 : ∀ i ∈ (
  [.arrayOutOfService 512 0, .arrayOutOfService 0 8, .fault 256 false 0, .fault 0 false 65536, .prst 16,
   .dumpUnitTimeout 8204, .cntRdvalLoRead 512, .folioDrain 512, .syncRecord 512, .append 65536 0, .append 0 2049,
   .lookup 65536] : List Instr), i.wf = false := by decide

theorem test_ill_formed_11 : ∀ i ∈ (
  [.delete 65536, .revoke 4, .ctxLasterrRead 16, .loRegisterRead (2 ^ 26), .hiRegisterWrite (2 ^ 26) 0,
   .narrowAccess (2 ^ 26) 0 false, .narrowAccess 0 5 false, .unmappedAccess (2 ^ 26) false,
   .registerNoResponse (2 ^ 26) false, .resetUnitAccess (2 ^ 26) false, .registerWrite (2 ^ 26) 0, .trustPassOneComplete 8] : List Instr), i.wf = false := by decide

theorem test_ill_formed_12 : ∀ i ∈ (
  [.reductionCreditGrant false false 65536, .portLossReport 0 32] : List Instr), i.wf = false := by decide

theorem test_ill_formed_tile : ∀ c ∈ (
  [{ acc := 2 ^ 64 }, { layer := 65536 }, { oper := 65536 }, { flags := 256 }, { unitsel := 256 }, { mode := 8 },
   { tile := 512 }, { ofs := 65536 }, { da := 65536 }, { db := 65536 }, { dc := 65536 }, { dd := 65536 }, { ta := 2 ^ 32 },
   { tb := 2 ^ 32 }, { tc := 2 ^ 32 }, { td := 2 ^ 32 }, { r0 := 2 ^ 32 }, { nr := 2 ^ 32 }, { k := 2 ^ 32 },
   { p1 := 2 ^ 32 }, { p2 := 2 ^ 32 }] : List TileCmd), c.wf = false ∧ Instr.wf (.convert c) = false := by decide

theorem test_ill_formed_rows : ∀ i ∈ (
  [.mvm { tile := 512 }, .opeProduct { tile := 512 }, .dpaProduct { tile := 512 }, .lnf { tile := 512 },
   .rmsf { tile := 512 }, .smf { tile := 512 }, .lnb { tile := 512 }, .rmsb { tile := 512 }, .smb { tile := 512 },
   .xent { tile := 512 }, .convert { tile := 512 }, .amax { tile := 512 }, .stash { tile := 512 }, .unstash { tile := 512 },
   .send { tile := 512 }, .gradadd { tile := 512 }] : List Instr), i.wf = false := by decide

/-! ### Single steps -/

/-- R464, the standing queue: a step takes the oldest command and leaves the rest. -/
theorem test_step_takes_front : step { on with pending := [.swap, .sncCntClr] } =
    .next { on with pending := [.sncCntClr], snc := { swap := true } } := rfl

/-- R515: GOV_SET is clamped to 1,800 W. -/
theorem test_gov_set_clamps : (after (.govSetWrite 2000) on).fld F.GOV_SET_WATTS = 1800 ∧
    (after (.govSetWrite 2000) on).fld F.GOV_EVT_SETCLAMP = 1 := by decide

/-- R520: one step of throttling takes 5 mV. -/
theorem test_throttle_takes_5_mV : (after .throttle ((hot 43265).setFld F.GOV_STAT_VCORE 800)).fld F.GOV_STAT_VCORE = 795 := by decide

/-- R473, R474: a NOP's completion: its accession number, status 0, PHASE 1. -/
theorem test_nop_completes : (after (.nop acc0) (give on (.nop acc0))).hostBytes 0 32 =
    leBytes 8 acc0 ++ [0, 0, 128] ++ zeros 21 := by decide +kernel

/-- R464: a doorbell within the ring moves the count, one beyond it is an error. -/
theorem test_doorbell : (after (.commandDoorbell 16 1) (halyard [])).fld (F.HAL_SQPROD_COUNT 16) = 1 ∧
    (after (.commandDoorbell 16 65) (((halyard []).setFld (F.HAL_SIZE_LOG2 16) 6))).fld (F.HAL_EVT_DBERR 16) = 1 := by decide +kernel

/-- R673: a read of an unallocated offset returns 0. -/
theorem test_unallocated_read : (after (.unmappedAccess 0x3FFFFFC false) { on with readData := 5 }).readData = 0 ∧
    (after (.unmappedAccess 0x3FFFFFC false) on).fld F.HUB_ERR_UNMAPPED = 1 := by decide

/-- R678: W1C bits are cleared where the write has a 1. -/
theorem test_w1c : (after (.registerWrite R.GOV_EVT 2) (on.wr R.GOV_EVT 3)).rd R.GOV_EVT = 1 := by decide

/-- R421: lanes in reverse order bring the port up reversed. -/
theorem test_training_reversed : (after (.linkTraining 31 { lanes := [3, 2, 1, 0], serial := 9, port := 4 }) on).fld (F.FAB_PSTAT_REV 31) = 1 := by
  decide

/-- R428: a lost lane leaves three. -/
theorem test_lane_loss : (after (.laneLoss 31 3 2) (linked {} 15)).fld (F.FAB_PSTAT_LANES 31) = 7 ∧
    (after (.laneLoss 31 3 2) (linked {} 15)).fld (F.FAB_PCNT_FECUNC_COUNT 31) = 2 := by decide +kernel

/-- R200: a remap entry holds VALID, its cause and its logical column. -/
theorem test_remap_entry : (after (.remap 511 7 1 511 4) on).remapEntry 511 7 1 0 = 0x804001FF := by decide +kernel

/-- R296, R297: three zero granules are one token in a page of 16 bytes, and the index follows. -/
theorem test_stash_zero_run : compress 3 (zeros 48) = [5, 0, 0, 0, 0x82] ++ zeros 11 ++ zeros 4 := by decide +kernel

/-- R634: a sync record has type 0x20 and 48 bytes. -/
theorem test_sync_record : ((after (.syncRecord 511) on).tile 511).folio.map (fun r => (r.take 4, r.length)) =
    [([0x20, 0, 48, 0], 48)] := by decide +kernel

/-- R670: a LOOKUP answers the length of a value. -/
theorem test_lookup : (after (.lookup 0x15) { asked with ledger := { asked.ledger with queue := [] } }).rd R.LDG_RES = 0x80000004 := by
  decide

/-- R539: a full urgent queue drops the host's request. -/
theorem test_urgent_drop : (after (.sncUrgWrite 5) (urgent 64)).fld F.SNC_EVT_UDROP = 1 := by decide

/-- Conversion to BF16 rounds a tie to the even neighbour. -/
theorem test_bf16_tie : encodeFloat fmtBF16 (FVal.num false 257 (-8)) = 0x3F80 := by decide +kernel

/-- The CRC's check value: that of the nine digits (log 6). -/
theorem test_crc32c : crc32c [0x31, 0x32, 0x33, 0x34, 0x35, 0x36, 0x37, 0x38, 0x39] = 0xE3069283 := by decide +kernel

/-- R582: a second uncorrectable error at an address asks for a halt. -/
theorem test_second_error_halts : (after (.memoryUncorrectableError 5) { busy with hang := { ueSeen := [5] } }).job.fault = some (0x10, true) := by
  decide

/-- R607: the standby's restart moves neither the token nor the standing of the ensign. -/
theorem test_standby_lost : (after (.stewardHeartbeatTimeout 1) (stewards 3)).ens.half = 0 ∧
    (after (.stewardHeartbeatTimeout 1) (stewards 3)).ens.up = 1 := by decide

/-- R649: REVOKE fails where a running image uses the key set. -/
theorem test_revoke_refused : (after (.revoke 3) booted).fld F.SEC_EVT_UPDFAIL = 1 ∧ (after (.revoke 3) booted).sec = booted.sec := by decide


end Sys2Proof.Tests
end

section
/-! SUPPORT. The power supply and the Sentinel are kept by all that a tile command, or a command tried again, does: one lemma for
each operation of the units, in the order of the model's files. A proof (rfl) stands in brackets so that simp rewrites with its
lemma, where by rfl alone the kernel would unfold the whole operation again.
-/

namespace Sys2Proof.Machine

/-- The power supply and the Sentinel of a state: what a command of the other units leaves as it found it. -/
def State.supply (s : State) : Power × Sentinel := (s.power, s.snc)

theorem supply_eq_iff {s t : State} : t.supply = s.supply ↔ t.power = s.power ∧ t.snc = s.snc := by simp [State.supply]

theorem power_of_supply {s t : State} (h : t.supply = s.supply) : t.power = s.power := (supply_eq_iff.mp h).1

@[simp] theorem supply_mk (pending regs latch hiHold readData free osc mem host tstore flash msix power gov snc hal arrs tiles
    charter job engines fre treeC treeR treeT root fab ens injSeen ledger sec dump hang drain sent) :
    (State.mk pending regs latch hiHold readData free osc mem host tstore flash msix power gov snc hal arrs tiles charter job
      engines fre treeC treeR treeT root fab ens injSeen ledger sec dump hang drain sent).supply = (power, snc) := (rfl)

@[simp] theorem supply_eta (s : State) : (s.power, s.snc) = s.supply := (rfl)

@[simp] theorem supply_ite (p : Prop) [Decidable p] (s t : State) :
    (if p then s else t).supply = if p then s.supply else t.supply := apply_ite ..

@[simp] theorem supply_snd_ite {α : Type} (p : Prop) [Decidable p] (x y : α × State) :
    (if p then x else y).2.supply = if p then x.2.supply else y.2.supply := by split <;> rfl

@[simp] theorem supply_forEach {α : Type} (xs : List α) (f : State → α → State) (h : ∀ t x, (f t x).supply = t.supply)
    (s : State) : (forEach xs s f).supply = s.supply := by
  induction xs generalizing s with
  | nil => rfl
  | cons x xs ih => exact (ih (f s x)).trans (h s x)

/-! ### Registers, memories and units -/

variable (s : State)

@[simp] theorem supply_wr (off : Nat) (v : W32) : (s.wr off v).supply = s.supply := (rfl)
@[simp] theorem supply_setFld (f : Fld) (v : Nat) : (s.setFld f v).supply = s.supply := (rfl)
@[simp] theorem supply_setFlag (f : Fld) (b : Bool) : (s.setFlag f b).supply = s.supply := (rfl)
@[simp] theorem supply_event (f : Fld) : (s.event f).supply = s.supply := (rfl)
@[simp] theorem supply_bump (f : Fld) (n : Nat) : (s.bump f n).supply = s.supply := (rfl)
@[simp] theorem supply_setPair (lo hi : Fld) (v : Nat) : (s.setPair lo hi v).supply = s.supply := (rfl)
@[simp] theorem supply_bumpPair (lo hi : Fld) (n : Nat) : (s.bumpPair lo hi n).supply = s.supply := (rfl)
@[simp] theorem supply_putMem (a : Nat) (bs : List Byte) : (s.putMem a bs).supply = s.supply := (rfl)
@[simp] theorem supply_putHost (a : Nat) (bs : List Byte) : (s.putHost a bs).supply = s.supply := (rfl)
@[simp] theorem supply_putTile (t x : Nat) (bs : List Byte) : (s.putTile t x bs).supply = s.supply := (rfl)
@[simp] theorem supply_putPlace (place t off : Nat) (bs : List Byte) : (s.putPlace place t off bs).supply = s.supply := by
  simp [State.putPlace]
@[simp] theorem supply_putArr (t a : Nat) (x : Arr) : (s.putArr t a x).supply = s.supply := (rfl)
@[simp] theorem supply_putTileRec (t : Nat) (x : Tile) : (s.putTileRec t x).supply = s.supply := (rfl)
@[simp] theorem supply_draw : s.draw.2.supply = s.supply := (rfl)
@[simp] theorem supply_sendMsix (v : Nat) : (s.sendMsix v).supply = s.supply := by simp [State.sendMsix]

/-! ### Folio, counter pages, injection and tests (R566 to R574, R620 to R630) -/

@[simp] theorem supply_foldOcc (t : Nat) : (s.foldOcc t).supply = s.supply := (rfl)
@[simp] theorem supply_folioPut (t type flags layer oper unit acc : Nat) (payload : List Byte) :
    (s.folioPut t type flags layer oper unit acc payload).supply = s.supply := by
  simp [State.folioPut]
@[simp] theorem supply_countersRecord (t page flags layer oper unit acc : Nat) :
    (s.countersRecord t page flags layer oper unit acc).supply = s.supply := by
  simp [State.countersRecord]
@[simp] theorem supply_setPage (t page : Nat) (own run : Bool) (acc : Nat) :
    (s.setPage t page own run acc).supply = s.supply := by
  simp [State.setPage]
@[simp] theorem supply_takePage (t unit acc layer oper : Nat) : (s.takePage t unit acc layer oper).supply = s.supply := by
  simp [State.takePage]
@[simp] theorem supply_beginCmd (t unit acc layer oper : Nat) (bytes : List Byte) :
    (s.beginCmd t unit acc layer oper bytes).supply = s.supply := by
  simp [State.beginCmd]
@[simp] theorem supply_tally (t code n : Nat) : (s.tally t code n).supply = s.supply := by
  unfold State.tally; simp only; split <;> simp
@[simp] theorem supply_endCmd (t unit acc layer oper status nflags cause sat : Nat) :
    (s.endCmd t unit acc layer oper status nflags cause sat).supply = s.supply := by
  unfold State.endCmd; split <;> simp
@[simp] theorem supply_inject (point unit sub col acc : Nat) : (s.inject point unit sub col acc).2.supply = s.supply := by
  simp [State.inject]
@[simp] theorem supply_injectMany (point unit acc n : Nat) : (s.injectMany point unit acc n).2.supply = s.supply := by
  simp [State.injectMany]
@[simp] theorem supply_wantRed (t n : Nat) : (s.wantRed t n).supply = s.supply := by simp [State.wantRed]
@[simp] theorem supply_startTest (t : Nat) (r : TestReq) : (s.startTest t r).supply = s.supply := by simp [State.startTest]
@[simp] theorem supply_requestTest (t kind mode array col steps : Nat) (host : Option Nat) :
    (s.requestTest t kind mode array col steps host).supply = s.supply := by
  unfold State.requestTest; simp only; split <;> simp

/-! ### Messages and faults (R375, R427 to R436, R579) -/

@[simp] theorem supply_putPort (p : Nat) (x : Port) : (s.putPort p x).supply = s.supply := (rfl)
@[simp] theorem supply_transmit (p seq vc flags : Nat) (data : List Byte) (bad : Bool) :
    (s.transmit p seq vc flags data bad).supply = s.supply := (rfl)
@[simp] theorem supply_fillReplay (fuel p : Nat) : (s.fillReplay fuel p).supply = s.supply := by
  induction fuel generalizing s with
  | zero => rfl
  | succ n ih => unfold State.fillReplay; split <;> simp [ih]
@[simp] theorem supply_onPort (p : Nat) (m : Msg) : (s.onPort p m).supply = s.supply := by simp [State.onPort]
@[simp] theorem supply_deliver (m : Msg) : (s.deliver m).supply = s.supply := by simp [State.deliver]
@[simp] theorem supply_emit (m : Msg) (own : Bool) : (s.emit m own).supply = s.supply := by
  unfold State.emit
  split
  · simp
  · split <;> simp
@[simp] theorem supply_sendOn (dest cls stream : Nat) (payload : List Byte) :
    (s.sendOn dest cls stream payload).supply = s.supply := by simp [State.sendOn]
@[simp] theorem supply_sendCtrl (dest kind step : Nat) (fields : List Byte) :
    (s.sendCtrl dest kind step fields).supply = s.supply := by simp [State.sendCtrl]
@[simp] theorem supply_toRoot (kind step : Nat) (fields : List Byte) : (s.toRoot kind step fields).supply = s.supply := by
  simp [State.toRoot]
@[simp] theorem supply_recordFault (cls ukind unit acc : Nat) : (s.recordFault cls ukind unit acc).supply = s.supply := by
  simp [State.recordFault]
@[simp] theorem supply_sendFault (cls : Nat) (halt : Bool) : (s.sendFault cls halt).supply = s.supply := by
  simp [State.sendFault]
@[simp] theorem supply_raiseFault (cls ukind unit acc : Nat) (halt : Bool) :
    (s.raiseFault cls ukind unit acc halt).supply = s.supply := by simp [State.raiseFault]
@[simp] theorem supply_tileFault (t acc : Nat) : (s.tileFault t acc).supply = s.supply := by simp [State.tileFault]

/-! ### Arrays (R129 to R158, R213) -/

@[simp] theorem supply_convertersOn (t a : Nat) (mvm : Bool) : (s.convertersOn t a mvm).supply = s.supply := by
  simp [State.convertersOn]
@[simp] theorem supply_refFault (t a : Nat) : (s.refFault t a).supply = s.supply := by
  unfold State.refFault; simp only; split <;> simp
@[simp] theorem supply_refCheck (t a acc : Nat) (ref0 ref1 : Int) : (s.refCheck t a acc ref0 ref1).supply = s.supply := by
  simp [State.refCheck]
@[simp] theorem supply_chkMismatch (t a acc index : Nat) : (s.chkMismatch t a acc index).supply = s.supply := by
  unfold State.chkMismatch; simp only; split <;> simp
@[simp] theorem supply_chkCompare (t a b acc index : Nat) (d codes : List Int) (lsbs : List Nat) (chk : Int) (tripped : Bool) :
    (s.chkCompare t a b acc index d codes lsbs chk tripped).supply = s.supply := by simp [State.chkCompare]
@[simp] theorem supply_noteClips (t a : Nat) (tripped : List Bool) : (s.noteClips t a tripped).supply = s.supply := by
  simp [State.noteClips]
@[simp] theorem supply_slice (t a acc index : Nat) (d : List Int) (lim : Nat → Option (Int × Int)) :
    (s.slice t a acc index d lim).2.supply = s.supply := by
  unfold State.slice
  split
  · exact (supply_tally ..).trans (supply_bump ..)
  · simp
@[simp] theorem supply_vector (t a acc index : Nat) (p : Policy) (two : Bool) (m : List Int) (e : Int) :
    (s.vector t a acc index p two m e).2.2.2.supply = s.supply := by
  unfold State.vector; simp only; split <;> simp
@[simp] theorem supply_corrBeats (t a : Nat) (m : List Int) : (s.corrBeats t a m).supply = s.supply := by
  simp [State.corrBeats]

/-! ### Completions and numeric status (R108 to R110, R473 to R477) -/

@[simp] theorem supply_putHalyard (h : Nat) (x : Halyard) : (s.putHalyard h x).supply = s.supply := (rfl)
@[simp] theorem supply_halIrq (h : Nat) : (s.halIrq h).supply = s.supply := by simp [State.halIrq]
@[simp] theorem supply_writeCompletion (h : Nat) (c : HeldCpl) : (s.writeCompletion h c).supply = s.supply := by
  simp [State.writeCompletion]
@[simp] theorem supply_releaseHeld (fuel h : Nat) : (s.releaseHeld fuel h).supply = s.supply := by
  induction fuel generalizing s with
  | zero => rfl
  | succ n ih => unfold State.releaseHeld; simp only; split <;> simp [ih]
@[simp] theorem supply_drainHeld (h : Nat) : (s.drainHeld h).supply = s.supply := by simp [State.drainHeld]
@[simp] theorem supply_raiseCompletion (h : Nat) (c : HeldCpl) : (s.raiseCompletion h c).supply = s.supply := by
  simp [State.raiseCompletion]
@[simp] theorem supply_halStat (h : Nat) : (s.halStat h).supply = s.supply := by simp [State.halStat]
@[simp] theorem supply_countCtx (acc status : Nat) : (s.countCtx acc status).supply = s.supply := by simp [State.countCtx]
@[simp] theorem supply_completeWith (acc status nflags : Nat) (n : NumStat) (ref : Nat) :
    (s.completeWith acc status nflags n ref).supply = s.supply := by simp [State.completeWith]
@[simp] theorem supply_numStatus (t acc : Nat) (np : Bool) (n : NumStat) : (s.numStatus t acc np n).supply = s.supply := by
  simp [State.numStatus]

/-! ### Operands and memory errors (R300, R305 to R312, R581, R582) -/

@[simp] theorem supply_traffic (t : Nat) (x : Tensor) (write : Bool) (rows : Nat) :
    (s.traffic t x write rows).supply = s.supply := by simp [State.traffic]
@[simp] theorem supply_touchRow (x : Tensor) (r : Nat) : (s.touchRow x r).supply = s.supply :=
  supply_forEach _ _ (fun t i => by split <;> simp) s
@[simp] theorem supply_gradAddParam (p : Policy) (param : Nat) (v : FVal) :
    (s.gradAddParam p param v).2.2.2.supply = s.supply := by
  unfold State.gradAddParam
  split
  · rfl
  · rfl
@[simp] theorem supply_jit (x : Tensor) (amax : FVal) : (s.jit x amax).supply = s.supply := by
  unfold State.jit; split <;> simp
@[simp] theorem supply_putUse (id : Nat) (u : ScaleUse) : (s.putUse id u).supply = s.supply := (rfl)
@[simp] theorem supply_memCorrected (addr : Nat) : (s.memCorrected addr).supply = s.supply := by simp [State.memCorrected]
@[simp] theorem supply_memUncorrected (addr : Nat) : (s.memUncorrected addr).supply = s.supply := by
  unfold State.memUncorrected; simp only; split <;> simp
@[simp] theorem supply_readsMemory (acc : Nat) (xs : List (Option Tensor)) : (s.readsMemory acc xs).supply = s.supply := by
  simp [State.readsMemory]

/-! ### The tile sequencer (R24, R25, R471) -/

@[simp] theorem supply_keepOutput (c : TileCmd) (x : Tensor) (rows : List Nat) : (s.keepOutput c x rows).supply = s.supply := by
  simp [State.keepOutput]
@[simp] theorem supply_startBubble (cause : Nat) : (s.startBubble cause).supply = s.supply := by simp [State.startBubble]
@[simp] theorem supply_bucketFlags (op : Nat) (c : TileCmd) (num : NumStat) : (s.bucketFlags op c num).supply = s.supply := (rfl)
@[simp] theorem supply_jobDone (op : Nat) (c : TileCmd) : (s.jobDone op c).supply = s.supply := by simp [State.jobDone]
@[simp] theorem supply_waitCmd (op : Nat) (c : TileCmd) : (s.waitCmd op c).supply = s.supply := by simp [State.waitCmd]
@[simp] theorem supply_rseRegs (t : Nat) : (s.rseRegs t).supply = s.supply := by simp [State.rseRegs]
@[simp] theorem supply_putGroups (t : Nat) (gs : List StatGroup) : (s.putGroups t gs).supply = s.supply := by
  simp [State.putGroups]
@[simp] theorem supply_releaseGroup (op : Nat) (c : TileCmd) : (s.releaseGroup op c).supply = s.supply := by
  simp [State.releaseGroup]
@[simp] theorem supply_tileDone (op unit : Nat) (c : TileCmd) (status : Nat) (num : NumStat) :
    (s.tileDone op unit c status num).supply = s.supply := by simp [State.tileDone]
@[simp] theorem supply_tileRefuse (op unit : Nat) (c : TileCmd) (status : Nat) :
    (s.tileRefuse op unit c status).supply = s.supply := by simp [State.tileRefuse]
@[simp] theorem supply_suspend (s0 : State) (op unit : Nat) (c : TileCmd) (x : Tensor) (rows : List Nat) (beside : List Range)
    (num : NumStat) : (s.suspend s0 op unit c x rows beside num).supply = s.supply := by simp [State.suspend]

/-- What a command computes before its output conversion leaves the supply. -/
def Body.KeepsSupply (body : Body) : Prop := ∀ s : State, (body s).2.2.supply = s.supply

theorem supply_forEach_snd {α β : Type} (xs : List α) (f : β × State → α → β × State)
    (h : ∀ q x, (f q x).2.supply = q.2.supply) (q : β × State) : (forEach xs q f).2.supply = q.2.supply := by
  induction xs generalizing q with
  | nil => rfl
  | cons x xs ih => exact (ih (f q x)).trans (h q x)

@[simp] theorem supply_writeRows (t : Nat) (c : TileCmd) (x : Tensor) (k : FVal) (num : NumStat) (rows : List (Nat × List Elem)) :
    (s.writeRows t c x k num rows).2.supply = s.supply := by
  unfold State.writeRows
  exact supply_forEach_snd _ _ (fun q re => by dsimp only; split; simp) _
theorem supply_justInTime {c : TileCmd} {xa xb : Option Tensor} {x : Tensor} {body : Body} (h : body.KeepsSupply) :
    (s.justInTime c xa xb x body).supply = s.supply := by simp [State.justInTime, h s]
theorem supply_produce {t : Nat} {c : TileCmd} {xa xb : Option Tensor} {x : Tensor} {body : Body} (h : body.KeepsSupply) :
    (s.produce t c xa xb x body).2.supply = s.supply := by simp [State.produce, h s]

/-- A tile sequencer leaves the supply (R24, R471), where the command's computation and what follows it do. -/
theorem supply_runTile {op unit : Nat} {c : TileCmd} {refusal : Nat} {xa xb xc : Option Tensor} {outRows : List Nat}
    {dup : Bool} {body : Body} {after : NumStat × State → NumStat × State} {from' : TileCmd} {beside : List Range}
    (hb : body.KeepsSupply) (ha : ∀ q, (after q).2.supply = q.2.supply) :
    (s.runTile op unit c refusal xa xb xc outRows dup body after from' beside).supply = s.supply := by
  unfold State.runTile
  simp only
  cases xc <;> simp [supply_justInTime _ hb, supply_produce _ hb, ha]

/-! ### Segments, stash and inter-stage queues (R295 to R299, R361 to R372, R410 to R413) -/

@[simp] theorem supply_leave (o : OutSeg) : (s.leave o).supply = s.supply := by simp [State.leave]
@[simp] theorem supply_sendSegment (dest : Nat) (payload : List Byte) (stream : Option Nat) :
    (s.sendSegment dest payload stream).supply = s.supply := by simp [State.sendSegment]
@[simp] theorem supply_putStash (half : Nat) (q : List StashRes) : (s.putStash half q).supply = s.supply := by
  simp [State.putStash]
@[simp] theorem supply_putRing (r : Region) (pos : Nat) (bs : List Byte) : (s.putRing r pos bs).supply = s.supply := by
  simp [State.putRing]
@[simp] theorem supply_stashRows (c : TileCmd) (x : Tensor) : (s.stashRows c x).supply = s.supply := by
  unfold State.stashRows
  simp only
  split
  · split <;> simp
  · rfl
@[simp] theorem supply_putRows (t : Nat) (x : Tensor) (r0 : Nat) (bs : List Byte) : (s.putRows t x r0 bs).supply = s.supply :=
  supply_forEach _ _ (fun _ _ => supply_putPlace ..) s
@[simp] theorem supply_unstashRows (c : TileCmd) (x : Tensor) : (s.unstashRows c x).supply = s.supply := by
  unfold State.unstashRows
  simp only
  split
  · split <;> simp
  · rfl
@[simp] theorem supply_queueDepths : s.queueDepths.supply = s.supply := by simp [State.queueDepths]
@[simp] theorem supply_putQueue (kind pos : Nat) (q : List ActMsg) : (s.putQueue kind pos q).supply = s.supply := by
  unfold State.putQueue; split <;> simp
@[simp] theorem supply_putOutbound (back : Bool) (q : List ActMsg) : (s.putOutbound back q).supply = s.supply := by
  simp [State.putOutbound]
@[simp] theorem supply_putCredit (back : Bool) (n : Nat) : (s.putCredit back n).supply = s.supply := by simp [State.putCredit]
@[simp] theorem supply_creditWaitEnd (back : Bool) : (s.creditWaitEnd back).supply = s.supply := by
  unfold State.creditWaitEnd; split <;> simp
@[simp] theorem supply_creditWaitBegin (back : Bool) : (s.creditWaitBegin back).supply = s.supply := by
  simp [State.creditWaitBegin]
@[simp] theorem supply_countWait (m : ActMsg) : (s.countWait m).supply = s.supply := by simp [State.countWait]
@[simp] theorem supply_flushOut (fuel : Nat) (back : Bool) : (s.flushOut fuel back).supply = s.supply := by
  induction fuel generalizing s with
  | zero => rfl
  | succ n ih => unfold State.flushOut; split <;> simp [ih]
@[simp] theorem supply_enqueueOut (back : Bool) (m : ActMsg) : (s.enqueueOut back m).supply = s.supply := by
  simp [State.enqueueOut]
@[simp] theorem supply_sendRows (c : TileCmd) (x : Tensor) : (s.sendRows c x).supply = s.supply := by simp [State.sendRows]

/-! ### Checks, row registers and counters of the engines (R229 to R260, R560) -/

@[simp] theorem supply_checkHard (t acc n : Nat) : (s.checkHard t acc n).supply = s.supply := by simp [State.checkHard]
@[simp] theorem supply_checkFailed (t : Nat) : (s.checkFailed t).supply = s.supply := by simp [State.checkFailed]
@[simp] theorem supply_checkRuns (t acc point : Nat) (on : Bool) (n fails : Nat) (els : List (List Elem)) :
    (s.checkRuns t acc point on n fails els).2.supply = s.supply := by
  unfold State.checkRuns
  split
  · rfl
  · extract_lets s1
    have h1 : s1.supply = s.supply := by simp [s1]
    have h2 := supply_injectMany s1 point t acc n
    split
    · next hit => rw [hit] at h2; exact h2.trans h1
    · next hit => rw [hit] at h2; simp [h2, h1]
@[simp] theorem supply_checkCover (t acc : Nat) (first : Bool) (ws : List (Nat × List FVal)) (m : List Int) (runs : List Elem) :
    (s.checkCover t acc first ws m runs).2.supply = s.supply := by simp [State.checkCover]
@[simp] theorem supply_setKeep (c : TileCmd) (xb : Tensor) (depth : Nat) (b : List (List FVal)) :
    (s.setKeep c xb depth b).supply = s.supply := by simp [State.setKeep]
@[simp] theorem supply_opeMode (c : TileCmd) : (s.opeMode c).supply = s.supply := by simp [State.opeMode]
@[simp] theorem supply_opeCounts (c : TileCmd) (xa xb : Tensor) (n : Nat) (kept : Bool) :
    (s.opeCounts c xa xb n kept).supply = s.supply := by simp [State.opeCounts]
@[simp] theorem supply_dpaCounts (t m k n runs : Nat) : (s.dpaCounts t m k n runs).supply = s.supply := by
  simp [State.dpaCounts]
@[simp] theorem supply_attributeClips (t a : Nat) (x : Tensor) (before : List Nat) :
    (s.attributeClips t a x before).supply = s.supply := by simp [State.attributeClips]

/-! ### Statistics groups (R280 to R286) -/

@[simp] theorem supply_spillGroup (t : Nat) (g : StatGroup) : (s.spillGroup t g).supply = s.supply := by
  unfold State.spillGroup; simp only; split <;> simp
theorem supply_spillOldest {t : Nat} {keep : Option Nat} {u : State} (h : s.spillOldest t keep = some u) :
    u.supply = s.supply := by
  unfold State.spillOldest at h
  dsimp only at h
  split at h
  · split at h
    · cases h; simp
    · cases h
  · cases h
theorem supply_makeRoom {fuel t n : Nat} {keep : Option Nat} {s u : State} (h : s.makeRoom fuel t n keep = some u) :
    u.supply = s.supply := by
  induction fuel generalizing s with
  | zero => unfold State.makeRoom at h; split at h <;> simp_all
  | succ f ih =>
    unfold State.makeRoom at h
    split at h
    · simp_all
    · obtain ⟨v, hv, hu⟩ := Option.bind_eq_some_iff.mp h
      exact (ih hu).trans (supply_spillOldest s hv)
theorem supply_roomFor {t n : Nat} {keep : Option Nat} {u : State} (h : s.roomFor t n keep = some u) : u.supply = s.supply :=
  supply_makeRoom h
@[simp] theorem supply_roomFor_getD (t n : Nat) (keep : Option Nat) : ((s.roomFor t n keep).getD s).supply = s.supply := by
  cases h : s.roomFor t n keep with
  | none => rfl
  | some u => exact supply_roomFor s h
@[simp] theorem supply_reload (t acc : Nat) : (s.reload t acc).supply = s.supply := by
  unfold State.reload
  split
  · split
    · next h => simp [supply_roomFor s h]
    · rfl
  · rfl
@[simp] theorem supply_putGroup (c : TileCmd) (recs : List (W32 × W32)) : (s.putGroup c recs).supply = s.supply := by
  simp [State.putGroup]
@[simp] theorem supply_rseRefusalEvents (t r : Nat) (fwd : Bool) : (s.rseRefusalEvents t r fwd).supply = s.supply := by
  simp [State.rseRefusalEvents]
@[simp] theorem supply_noteLoss (t : Nat) : (s.noteLoss t).supply = s.supply := by simp [State.noteLoss]
@[simp] theorem supply_noteReload (t acc : Nat) : (s.noteReload t acc).supply = s.supply := by simp [State.noteReload]

/-! ### Computations of tile commands -/

/-- A computation that counts saturations, whatever its count so far, ends in a state with a given supply. -/
def Cnt.EndsWith {α : Type} (m : Cnt (α × State)) (q : Power × Sentinel) : Prop := ∀ n, (m.run n).1.2.supply = q

theorem Cnt.endsWith_pure {α : Type} (a : α) {s : State} {q : Power × Sentinel} (h : s.supply = q) :
    Cnt.EndsWith (pure (a, s)) q := fun _ => h

theorem Cnt.endsWith_bind {α β : Type} {m : Cnt α} {f : α → Cnt (β × State)} {q : Power × Sentinel}
    (h : ∀ a, Cnt.EndsWith (f a) q) : Cnt.EndsWith (m >>= f) q := fun n => h (m.run n).1 (m.run n).2

theorem Cnt.endsWith_bind_state {α β : Type} {m : Cnt (α × State)} {f : α × State → Cnt (β × State)} {q : Power × Sentinel}
    (hm : Cnt.EndsWith m q) (h : ∀ a, a.2.supply = q → Cnt.EndsWith (f a) q) : Cnt.EndsWith (m >>= f) q :=
  fun n => h (m.run n).1 (hm n) (m.run n).2

theorem supply_mvmVector (c : TileCmd) (xa : Tensor) (ws : List (Nat × List FVal)) (r : Nat) :
    Cnt.EndsWith (s.mvmVector c xa ws r) s.supply := by
  unfold State.mvmVector
  refine Cnt.endsWith_bind fun v => ?_
  split
  · exact Cnt.endsWith_pure _ (by simp)
  · dsimp only
    split <;> [skip; split]
    on_goal 1 => refine Cnt.endsWith_bind_state (Cnt.endsWith_pure _ rfl) ?_
    on_goal 2 => refine Cnt.endsWith_bind_state (Cnt.endsWith_pure _ (supply_vector ..)) ?_
    on_goal 3 => refine Cnt.endsWith_bind fun y => Cnt.endsWith_bind fun z =>
      Cnt.endsWith_bind_state (Cnt.endsWith_pure _ (by simp)) ?_
    all_goals exact fun q hq =>
      Cnt.endsWith_bind fun runs => Cnt.endsWith_bind fun out => Cnt.endsWith_pure _ (by simp [hq])

theorem supply_mvmRows (c : TileCmd) (xa : Tensor) (ws : List (Nat × List FVal)) (n : Nat) (rs : List Nat) :
    Cnt.EndsWith (State.mvmRows c xa ws n rs s) s.supply := by
  induction rs generalizing s with
  | nil => exact Cnt.endsWith_pure _ rfl
  | cons r rs ih =>
    refine Cnt.endsWith_bind_state (supply_mvmVector s c xa ws r) fun q hq => ?_
    exact Cnt.endsWith_bind_state (hq ▸ ih q.2) fun q hq => Cnt.endsWith_pure _ hq

theorem convertBody_keepsSupply (c : TileCmd) (x : Tensor) : (convertBody c x).KeepsSupply := fun s => by simp [convertBody]
theorem amaxBody_keepsSupply (c : TileCmd) (x : Tensor) : (amaxBody c x).KeepsSupply := fun s => by
  unfold amaxBody; dsimp only; split; simp
theorem gradBody_keepsSupply (c : TileCmd) (x : Tensor) : (gradBody c x).KeepsSupply := fun s => by
  unfold gradBody; dsimp only; split; simp
theorem opeBody_keepsSupply (c : TileCmd) (xa xb xc : Tensor) : (opeBody c xa xb xc).KeepsSupply := fun s => by
  unfold opeBody; dsimp only
  split; split; split
  simp
theorem dpaBody_keepsSupply (c : TileCmd) (xa xb xc : Tensor) : (dpaBody c xa xb xc).KeepsSupply := fun s => by
  unfold dpaBody; dsimp only
  split; split; split
  simp
theorem mvmBody_keepsSupply (c : TileCmd) (xa xc : Tensor) : (mvmBody c xa xc).KeepsSupply := fun s => by
  unfold mvmBody; dsimp only
  split
  next rows t sat hrun =>
    have h : t.supply = _ := (congrArg (fun r => r.1.2.supply) hrun).symm.trans
      (Cnt.endsWith_bind (fun ws => supply_mvmRows _ c xa ws _ _) 0)
    simp [h]
theorem forwardBody_keepsSupply (c : TileCmd) (xa xb xd : Tensor) (n : Nat) : (forwardBody c xa xb xd n).KeepsSupply := fun s => by
  unfold forwardBody; dsimp only
  split; split
  simp
theorem normBackBody_keepsSupply (c : TileCmd) (xa xb xd : Tensor) (n : Nat) : (normBackBody c xa xb xd n).KeepsSupply :=
    fun s => by
  unfold normBackBody; dsimp only
  split; split; split <;> simp
theorem smbBody_keepsSupply (c : TileCmd) (xa xd : Tensor) (n : Nat) : (smbBody c xa xd n).KeepsSupply := fun s => by
  unfold smbBody; dsimp only; split; simp
theorem xentBody_keepsSupply (c : TileCmd) (xa xb xd : Tensor) (n : Nat) : (xentBody c xa xb xd n).KeepsSupply := fun s => by
  unfold xentBody; dsimp only
  split; split
  simp

theorem supply_addNormGrads (c : TileCmd) (n : Nat) (q : NumStat × State) :
    (State.addNormGrads c n q).2.supply = q.2.supply := by
  unfold State.addNormGrads
  split
  · rfl
  · extract_lets word add q1
    have hadd (q : NumStat × State) (x : Option Tensor) (row : Nat) : (add q x row).2.supply = q.2.supply := by
      cases x with
      | none => rfl
      | some x => exact supply_forEach_snd _ _ (fun q i => by exact supply_gradAddParam ..) q
    simp [q1, hadd]

/-! ### Tile commands (R470) and those that wait, tried again (R471) -/

@[simp] theorem supply_convert (c : TileCmd) : (s.convert c).supply = s.supply := by
  unfold State.convert
  exact supply_runTile _ (convertBody_keepsSupply _ _) (fun _ => rfl)
@[simp] theorem supply_amaxCmd (c : TileCmd) : (s.amaxCmd c).supply = s.supply := by
  unfold State.amaxCmd
  exact supply_runTile _ (amaxBody_keepsSupply _ _) (fun _ => rfl)
@[simp] theorem supply_gradAdd (c : TileCmd) : (s.gradAdd c).supply = s.supply := by
  unfold State.gradAdd
  exact supply_runTile _ (gradBody_keepsSupply _ _) (fun _ => rfl)
@[simp] theorem supply_stash (c : TileCmd) : (s.stash c).supply = s.supply := by
  unfold State.stash
  exact supply_runTile _ (fun _ => rfl) (fun _ => by simp)
@[simp] theorem supply_unstash (c : TileCmd) : (s.unstash c).supply = s.supply := by
  unfold State.unstash
  exact supply_runTile _ (fun _ => rfl) (fun _ => by simp)
@[simp] theorem supply_sendCmd (c : TileCmd) : (s.sendCmd c).supply = s.supply := by
  unfold State.sendCmd
  exact supply_runTile _ (fun _ => rfl) (fun _ => by simp)
@[simp] theorem supply_opeProduct (c : TileCmd) : (s.opeProduct c).supply = s.supply := by
  unfold State.opeProduct
  exact supply_runTile _ (opeBody_keepsSupply _ _ _ _) (fun _ => rfl)
@[simp] theorem supply_dpaProduct (c : TileCmd) : (s.dpaProduct c).supply = s.supply := by
  unfold State.dpaProduct
  exact supply_runTile _ (dpaBody_keepsSupply _ _ _ _) (fun _ => rfl)
@[simp] theorem supply_mvm (c : TileCmd) : (s.mvm c).supply = s.supply := by
  unfold State.mvm
  dsimp only
  split
  · simp
  · exact supply_runTile _ (mvmBody_keepsSupply _ _ _) (fun _ => rfl)
@[simp] theorem supply_rse (c : TileCmd) : (s.rse c).supply = s.supply := by
  unfold State.rse
  split
  · rfl
  · extract_lets op xa xb xc xd n r back useB s1 spilled waits waited s2 src s3 body after
    have h2 : s2.supply = s.supply := by simp [s2, s1]
    have h3 : s3.supply = s.supply := by simp [s3, h2]
    have hb : body.KeepsSupply := by
      dsimp only [body]
      split
      · exact forwardBody_keepsSupply _ _ _ _ _
      · split
        · exact smbBody_keepsSupply _ _ _ _
        · split
          · exact xentBody_keepsSupply _ _ _ _ _
          · exact normBackBody_keepsSupply _ _ _ _ _
    have ha (q : NumStat × State) : (after q).2.supply = q.2.supply := by simp [after, supply_addNormGrads]
    split
    · simp [h2]
    · exact (supply_runTile _ hb ha).trans h3
@[simp] theorem supply_runOp (op : Nat) (c : TileCmd) : (s.runOp op c).supply = s.supply := by simp [State.runOp]
@[simp] theorem supply_rerun (t : Nat) : (s.rerun t).supply = s.supply := by simp [State.rerun]
@[simp] theorem supply_rerunAll : s.rerunAll.supply = s.supply := by simp [State.rerunAll]

@[simp] theorem supply_readReg (off : Nat) : (s.readReg off).2.supply = s.supply := (rfl)

end Sys2Proof.Machine
end

section
/-! SUPPORT. What a command leaves of an unpowered package (R4): the inversion lemma of exec (a command settles, or is an event of
the input or the pins), and the invariant that what is unpowered holds nothing volatile.
-/

namespace Sys2Proof.Machine

variable {s : State}

/-! ### What an unpowered package holds -/

theorem lossSound_of_on (h : s.power.on = true) : s.lossSound := fun h' => by simp [h] at h'

theorem lossSound_of_dark (h : s.dark) : s.lossSound := fun _ => h

/-- A state that keeps the supply of a powered package. -/
theorem withSupply_lossSound (h : s.power.on = true) (t : State) : (t.withSupply s).lossSound := lossSound_of_on h

/-- Registers at their reset values arm no injection. -/
theorem State.dark.unarmed (h : s.dark) : Unarmed s := by
  obtain ⟨⟨hregs, -⟩, -⟩ := h
  rw [Unarmed, State.flag, State.fld, State.rd, hregs]
  decide

/-- What a command that is no event of the supply answers: nothing of it reaches an unpowered package (R4), and a powered
one goes on in a state with the same queue that holds nothing volatile where the command took its power away. -/
structure Settled (s : State) (o : Outcome) : Prop where
  inert : s.power.on = false → o = .next s
  goesOn : s.power.on = true → ∃ t, o = .next t ∧ t.pending = s.pending ∧ t.lossSound

theorem settled_same : Settled s (.next s) := ⟨fun _ => rfl, fun hs => ⟨s, rfl, rfl, lossSound_of_on hs⟩⟩

theorem Settled.answers {o : Outcome} (h : Settled s o) : ∃ t, o = .next t ∧ t.pending = s.pending := by
  cases hs : s.power.on with
  | false => exact ⟨s, h.inert hs, rfl⟩
  | true =>
    obtain ⟨t, ho, hp, -⟩ := h.goesOn hs
    exact ⟨t, ho, hp⟩

theorem Settled.lossSound {o : Outcome} {t : State} (h : Settled s o) (hs : s.lossSound) (ho : o = .next t) : t.lossSound := by
  cases hon : s.power.on with
  | false =>
    cases ho.symm.trans (h.inert hon)
    exact hs
  | true =>
    obtain ⟨u, hu, -, hl⟩ := h.goesOn hon
    cases ho.symm.trans hu
    exact hl

/-- The end of a command changes neither the power nor what is lost with it. -/
theorem finish_lossSound (s u : State) : ∃ t, finish s u = .next t ∧ t.pending = s.pending ∧ (u.lossSound → t.lossSound) := by
  obtain ⟨n, h⟩ := finish_eq s u
  exact ⟨_, h, rfl, id⟩

theorem settled_act (s : State) (f : State → State) : Settled s (act s f) := by
  refine ⟨act_off s f, fun hs => ?_⟩
  obtain ⟨t, h, hp, hpow, -⟩ := act_frame s f
  exact ⟨t, h, hp, lossSound_of_on (hpow ▸ hs)⟩

theorem settled_hostReg (off : Nat) (s : State) (f : State → State) : Settled s (hostReg off s f) := settled_act ..

theorem settled_hostRead (off : Nat) (s : State) (f : State → W32 × State) : Settled s (hostRead off s f) := settled_act ..

theorem settled_actWhole {f : State → State} (h : s.power.on = true → (f s).lossSound) : Settled s (actWhole s f) := by
  refine ⟨actWhole_off s f, fun hs => ?_⟩
  rw [actWhole_on s f hs]
  obtain ⟨t, ht, hp, hl⟩ := finish_lossSound s (f s)
  exact ⟨t, ht, hp, hl (h hs)⟩

theorem settled_actWhole_power {f : State → State} (h : (f s).power.on = s.power.on) : Settled s (actWhole s f) :=
  settled_actWhole fun hs => lossSound_of_on (h.trans hs)

theorem settled_sncReg {off : Nat} {f : State → State} (h : (f s).power.on = s.power.on) : Settled s (sncReg off s f) :=
  settled_actWhole_power (by
    simp only [State.serve]
    split
    · exact h
    · simp)

theorem settled_sncRead {off : Nat} {f : State → W32 × State} (h : (f s).2.power.on = s.power.on) :
    Settled s (sncRead off s f) :=
  settled_actWhole_power (by
    simp only [State.serveRead]
    split
    · exact h
    · simp)

/-! ### Loss of power -/

theorem holdOff_dark (s : State) : s.holdOff.dark := powerDown_dark s

theorem railTrip_lossSound (h : s.power.on = true) (rail : Nat) : (s.railTrip rail).lossSound := by
  unfold State.railTrip
  split
  · exact lossSound_of_dark (holdOff_dark s)
  · exact lossSound_of_on h

theorem drooped_on (p : Power) (rail : Nat) (droop : Bool) : (p.drooped rail droop).on = p.on := by
  unfold Power.drooped
  split <;> rfl

theorem phaseLost_lossSound (h : s.power.on = true) (rail : Nat) (droop : Bool) : (s.phaseLost rail droop).lossSound := by
  unfold State.phaseLost
  split
  · exact railTrip_lossSound (s := (s.phaseNoted rail).withSupply s) h rail
  · exact lossSound_of_on ((drooped_on ..).trans h)

/-- A supply monitor that an injection may act on (R573): the unpowered package has none armed. -/
theorem monitor_lossSound (p : Prop) [Decidable p] (point rail : Nat) {g : State → State} (hs : s.lossSound)
    (hg : ∀ u : State, u.power.on = true → (g u).lossSound) (q : Bool × State)
    (hq : q = if p then s.inject point rail 0 0 0 else (false, s)) :
    (if q.1 then g (q.2.withSupply s) else q.2.withSupply s).lossSound := by
  cases hon : s.power.on with
  | true =>
    split
    · exact hg _ hon
    · exact lossSound_of_on hon
  | false =>
    rw [inject_unarmed (hs hon).unarmed, ite_self] at hq
    subst hq
    exact hs

theorem railMonitors_lossSound (h : s.power.on = true) : s.railMonitors.lossSound :=
  monitor_lossSound _ _ _ (monitor_lossSound _ _ _ (lossSound_of_on h) (fun _ hu => phaseLost_lossSound hu _ _) _ rfl)
    (fun _ hu => railTrip_lossSound hu _) _ rfl

/-! ### The Sentinel and the supply -/

theorem measured_on (p : Power) (k : ResultKind) (v : Nat) : (p.measured k v).on = p.on := by
  unfold Power.measured
  split <;> rfl

theorem queueResult_power (s : State) (k : ResultKind) (v count : Nat) (cross : Bool) :
    (s.queueResult k v count cross).power = s.power := by
  unfold State.queueResult
  split <;> simp

theorem sncResult_on (s : State) (k : ResultKind) (codes : List Nat) : (s.sncResult k codes).power.on = s.power.on := by
  unfold State.sncResult
  dsimp only
  split
  · rw [queueResult_power]; exact measured_on ..
  · exact measured_on ..

theorem seqAdvance_power (s : State) (e : Nat) : (s.seqAdvance e).power = s.power := by
  unfold State.seqAdvance
  dsimp only
  split <;> rfl

theorem urgentRequest_power (s : State) (chan : Nat) (who : UrgBy) : (s.urgentRequest chan who).power = s.power := by
  unfold State.urgentRequest
  dsimp only
  split
  · rfl
  · split <;> simp

theorem popResult_power (s : State) : s.popResult.2.power = s.power := by
  unfold State.popResult
  split <;> simp

/-! ### Commands of several accesses -/

theorem swap_settled (s : State) : Settled s (execSwap s) := settled_sncReg rfl

/-- Commands that each settle. -/
def AllSettled (fs : List (State → Outcome)) : Prop := ∀ f ∈ fs, ∀ s, Settled s (f s)

theorem allSettled_nil : AllSettled [] := fun _ h => by simp at h

theorem allSettled_one {f : State → Outcome} (h : ∀ s, Settled s (f s)) : AllSettled [f] := fun g hg => by
  rw [List.mem_singleton.mp hg]
  exact h

theorem AllSettled.append {fs gs : List (State → Outcome)} (hf : AllSettled fs) (hg : AllSettled gs) : AllSettled (fs ++ gs) :=
  fun f h => (List.mem_append.mp h).elim (hf f) (hg f)

theorem AllSettled.ite {p : Prop} [Decidable p] {fs gs : List (State → Outcome)} (hf : AllSettled fs) (hg : AllSettled gs) :
    AllSettled (if p then fs else gs) := by
  split
  · exact hf
  · exact hg

theorem settled_chain (fs : List (State → Outcome)) (h : AllSettled fs) (s : State) :
    Settled s (chain fs s) := by
  induction fs generalizing s with
  | nil => exact settled_same
  | cons f fs ih =>
    have hrest (u : State) : Settled u (chain fs u) := ih (fun g hg => h g (List.mem_cons_of_mem f hg)) u
    have hf := h f List.mem_cons_self s
    refine ⟨fun hs => ?_, fun hs => ?_⟩
    · rw [chain, hf.inert hs]
      exact (hrest s).inert hs
    · obtain ⟨t, ht, hp, hl⟩ := hf.goesOn hs
      obtain ⟨u, hu, hq⟩ := (hrest t).answers
      rw [chain, ht]
      exact ⟨u, hu, hq.trans hp, (hrest t).lossSound hl hu⟩

/-- Every action that a register write triggers is a command of its own. -/
theorem writeActions_settled (s : State) (off : Nat) (v : W32) : AllSettled (writeActions s off v) := by
  unfold writeActions
  extract_lets on t a
  have hon (k : Nat) {f : State → Outcome} (h : ∀ u, Settled u (f u)) : AllSettled (on k f) :=
    (allSettled_one h).ite allSettled_nil
  refine .ite (hon 0 fun u => ?_) <| .ite (hon 8 fun u => ?_) <|
    .ite (.append (hon 8 fun u => ?_) (.ite (hon 0 fun u => ?_) allSettled_nil)) <|
    .ite (.append (hon 8 fun u => ?_) (hon 1 swap_settled)) <|
    .ite (.append (.append (.append (.append (hon 8 fun u => ?_) (hon 3 fun u => ?_)) (hon 2 fun u => ?_))
      (.ite allSettled_nil (allSettled_one fun u => ?_))) (hon 0 fun u => ?_)) <|
    .ite (hon 8 fun u => ?_) <|
    .ite (.append (.append (hon 2 fun u => ?_) (hon 1 fun u => ?_)) (hon 0 fun u => ?_)) <|
    .ite (hon 8 fun u => ?_) <| .ite (hon 8 fun u => ?_) allSettled_nil
  all_goals apply settled_act

theorem registerWrite_settled (off : Nat) (v : W32) (s : State) : Settled s (execRegisterWrite off v s) := by
  unfold execRegisterWrite
  split
  · apply settled_act
  · split
    · apply settled_hostReg
    · split
      · exact settled_same
      · refine settled_chain _ (fun f hf => ?_) s
        rcases List.mem_cons.mp hf with rfl | hf
        · exact fun u => settled_hostReg _ u _
        · split at hf
          · exact writeActions_settled _ _ _ f hf
          · simp at hf

/-! ### The commands whose meaning is not an effect of act alone -/

theorem inputAboveRange_settled (vin : Nat) (s : State) : Settled s (execInputAboveRange vin s) := by
  unfold execInputAboveRange
  refine settled_actWhole_power ?_
  split <;> rfl

theorem inputUndervoltageHold_settled (vin : Nat) (s : State) : Settled s (execInputUndervoltageHold vin s) := by
  unfold execInputUndervoltageHold
  refine settled_actWhole_power ?_
  split <;> rfl

theorem inputOvercurrent_settled (s : State) : Settled s (execInputOvercurrent s) :=
  settled_actWhole fun _ => lossSound_of_dark (holdOff_dark s)

theorem efuseTrip_settled (rail : Nat) (s : State) : Settled s (execEfuseTrip rail s) := by
  unfold execEfuseTrip
  refine settled_actWhole fun hs => ?_
  split
  · exact railTrip_lossSound hs rail
  · exact lossSound_of_on hs

theorem phaseLoss_settled (rail : Nat) (droop : Bool) (s : State) : Settled s (execPhaseLoss rail droop s) := by
  unfold execPhaseLoss
  refine settled_actWhole fun hs => ?_
  split
  · exact phaseLost_lossSound hs rail droop
  · exact lossSound_of_on hs

/-- The commands that go on after a rail is back run without a change of the supply. -/
theorem railBackInBand_settled (rail : Nat) (s : State) : Settled s (execRailBackInBand rail s) := by
  unfold execRailBackInBand
  refine settled_actWhole_power ?_
  split
  · rw [power_of_supply (supply_rerunAll _)]
  · rfl

theorem governorInterval_settled (power mean : Nat) (s : State) : Settled s (execGovernorInterval power mean s) := by
  unfold execGovernorInterval
  refine settled_actWhole fun hs => ?_
  have hl : ({ s with gov := s.govNext } : State).railMonitors.lossSound := railMonitors_lossSound hs
  dsimp only
  split
  · next hon => exact withSupply_lossSound hon _
  · exact hl

theorem sentinelResult_settled (urgent : Bool) (codes : List Nat) (s : State) :
    Settled s (execSentinelResult urgent codes s) := by
  unfold execSentinelResult
  refine settled_actWhole_power ?_
  split
  · rfl
  · split
    · split
      · split
        · exact sncResult_on _ _ _
        · rfl
      · rfl
    · split
      · dsimp only
        split
        · rw [sncResult_on, seqAdvance_power]
        · rfl
      · rfl

theorem sentinelLoopEnd_settled (s : State) : Settled s (execSentinelLoopEnd s) := by
  unfold execSentinelLoopEnd
  refine settled_actWhole_power ?_
  split <;> rfl

theorem sentinelPowerDown_settled (s : State) : Settled s (execSentinelPowerDown s) := by
  unfold execSentinelPowerDown
  refine settled_actWhole_power ?_
  split <;> rfl

theorem sentinelStartUp_settled (s : State) : Settled s (execSentinelStartUp s) := by
  unfold execSentinelStartUp
  refine settled_actWhole_power ?_
  split
  · rfl
  · simp

theorem urgentRequest_settled (chan : Nat) (who : UrgBy) (s : State) : Settled s (execUrgentRequest chan who s) :=
  settled_actWhole_power (congrArg Power.on (urgentRequest_power s chan who))

theorem sncUrgWrite_settled (chan : Nat) (s : State) : Settled s (execSncUrgWrite chan s) :=
  settled_sncReg (congrArg Power.on (urgentRequest_power s chan .host))

theorem sncQstatRead_settled (s : State) : Settled s (execSncQstatRead s) :=
  settled_sncRead (congrArg Power.on (popResult_power s))

theorem shadowTableWrite_settled (entry word : Nat) (v : W32) (s : State) :
    Settled s (execShadowTableWrite entry word v s) := by
  unfold execShadowTableWrite
  refine settled_sncReg ?_
  split <;> simp

theorem loRegisterRead_settled (off : Nat) (s : State) : Settled s (execLoRegisterRead off s) := by
  unfold execLoRegisterRead
  split
  · apply settled_hostRead
  · exact settled_same

theorem hiRegisterWrite_settled (off : Nat) (v : W32) (s : State) : Settled s (execHiRegisterWrite off v s) := by
  unfold execHiRegisterWrite
  split
  · apply settled_hostReg
  · exact settled_same

theorem narrowAccess_settled (addr n : Nat) (write : Bool) (s : State) : Settled s (execNarrowAccess addr n write s) := by
  unfold execNarrowAccess
  dsimp only
  split
  · exact settled_same
  · split
    · apply settled_act
    · split
      · apply settled_act
      · refine settled_actWhole_power ?_
        split
        · exact congrArg Power.on (popResult_power s)
        · exact congrArg Power.on (power_of_supply (supply_readReg s (addr - addr % 4)))

theorem hubEvtmaskWrite_settled (v : W32) (s : State) : Settled s (execHubEvtmaskWrite v s) := by
  unfold execHubEvtmaskWrite
  split
  · next h =>
    have hon : s.power.on = true := (Bool.and_eq_true_iff.mp h).1
    refine ⟨fun hoff => by simp [hon] at hoff, fun _ => ⟨_, rfl, ?_, lossSound_of_on ?_⟩⟩
    · split <;> simp
    · split <;> simp [hon]
  · apply settled_hostReg

/-! ### Every command -/

/-- A command that is no event of the input or of the pins settles: the effect of all but those named here is one of act. -/
theorem exec_settled (c : Instr) (s : State) (hc : c.supply = false) : Settled s (exec c s) := by
  cases c with
  | powerUp | inputQualify | inputOvervoltage | inputUndervoltageOff | perstNAssert | perstNDeassert | pkgFaultNRelease =>
    cases hc
  | inputAboveRange vin => exact inputAboveRange_settled vin s
  | inputUndervoltageHold vin => exact inputUndervoltageHold_settled vin s
  | inputOvercurrent => exact inputOvercurrent_settled s
  | efuseTrip rail => exact efuseTrip_settled rail s
  | phaseLoss rail droop => exact phaseLoss_settled rail droop s
  | railBackInBand rail => exact railBackInBand_settled rail s
  | governorInterval power mean => exact governorInterval_settled power mean s
  | sentinelResult urgent codes => exact sentinelResult_settled urgent codes s
  | sentinelLoopEnd => exact sentinelLoopEnd_settled s
  | sentinelPowerDown => exact sentinelPowerDown_settled s
  | sentinelStartUp => exact sentinelStartUp_settled s
  | urgentRequest chan who => exact urgentRequest_settled chan who s
  | sncUrgWrite chan => exact sncUrgWrite_settled chan s
  | sncQstatRead => exact sncQstatRead_settled s
  | shadowTableWrite entry word v => exact shadowTableWrite_settled entry word v s
  | swap => exact swap_settled s
  | loRegisterRead off => exact loRegisterRead_settled off s
  | hiRegisterWrite off v => exact hiRegisterWrite_settled off v s
  | narrowAccess addr n write => exact narrowAccess_settled addr n write s
  | registerWrite off v => exact registerWrite_settled off v s
  | hubEvtmaskWrite v => exact hubEvtmaskWrite_settled v s
  | _ => apply settled_act

/-- A command answers a next state with the queue as it found it, and what it leaves unpowered holds nothing volatile where
that held before. -/
def KeepsLoss (s : State) (o : Outcome) : Prop := ∃ t, o = .next t ∧ t.pending = s.pending ∧ (s.lossSound → t.lossSound)

theorem Settled.keepsLoss {o : Outcome} (h : Settled s o) : KeepsLoss s o := by
  obtain ⟨t, ho, hp⟩ := h.answers
  exact ⟨t, ho, hp, fun hs => h.lossSound hs ho⟩

theorem keepsLoss_same (s : State) : KeepsLoss s (.next s) := ⟨s, rfl, rfl, id⟩

theorem keepsLoss_finish {s u : State} (h : s.lossSound → u.lossSound) : KeepsLoss s (finish s u) := by
  obtain ⟨t, ht, hp, hl⟩ := finish_lossSound s u
  exact ⟨t, ht, hp, hl ∘ h⟩

theorem keepsLoss_down (s : State) (p : Power) : KeepsLoss s (finish s { s.powerDown with power := p }) :=
  keepsLoss_finish fun _ => lossSound_of_dark (powerDown_dark s)

theorem powerUp_keepsLoss (h0fail strap : Bool) (s : State) : KeepsLoss s (execPowerUp h0fail strap s) := by
  unfold execPowerUp
  split
  · exact keepsLoss_finish fun _ => lossSound_of_on rfl
  · exact keepsLoss_same s

theorem inputQualify_keepsLoss (vin : Nat) (s : State) : KeepsLoss s (execInputQualify vin s) := by
  unfold execInputQualify
  split
  · exact keepsLoss_finish id
  · exact keepsLoss_same s

theorem inputOvervoltage_keepsLoss (vin : Nat) (s : State) : KeepsLoss s (execInputOvervoltage vin s) := by
  unfold execInputOvervoltage
  split
  · exact keepsLoss_down s _
  · exact keepsLoss_same s

theorem inputUndervoltageOff_keepsLoss (vin : Nat) (s : State) : KeepsLoss s (execInputUndervoltageOff vin s) := by
  unfold execInputUndervoltageOff
  split
  · exact keepsLoss_down s _
  · exact keepsLoss_same s

theorem pkgFaultNRelease_keepsLoss (vin : Nat) (s : State) : KeepsLoss s (execPkgFaultNRelease vin s) := by
  unfold execPkgFaultNRelease
  split
  · exact keepsLoss_down s _
  · exact keepsLoss_same s

theorem perstNAssert_keepsLoss (s : State) : KeepsLoss s (execPerstNAssert s) := by
  unfold execPerstNAssert
  dsimp only
  split
  · next hon => exact keepsLoss_finish fun _ => lossSound_of_on hon
  · exact ⟨_, rfl, rfl, id⟩

/-- Without power the host link stays down as PERST_N is released (R690), so an unpowered package is as dark as before. -/
theorem perstNDeassert_keepsLoss (s : State) : KeepsLoss s (execPerstNDeassert s) := by
  unfold execPerstNDeassert
  refine keepsLoss_finish fun hs hoff => ?_
  obtain ⟨hmem, hgov, htree, hledger, hdump, hhang, hhal, hdrain, hsec⟩ := hs hoff
  refine ⟨hmem, hgov, htree, hledger, hdump, hhang, ?_, hdrain, hsec⟩
  have hdown : ({ s.hal with linkUp := false } : Hal) = { bar2 := s.hal.bar2 } :=
    congrArg (fun h : Hal => { h with linkUp := false }) hhal
  exact hoff ▸ hdown

/-- The step lemma of the invariant: every command keeps what R4 says of the unpowered package. -/
theorem exec_keepsLoss (c : Instr) (s : State) : KeepsLoss s (exec c s) := by
  cases hc : c.supply with
  | false => exact (exec_settled c s hc).keepsLoss
  | true =>
    cases c with
    | powerUp h0fail strap => exact powerUp_keepsLoss h0fail strap s
    | inputQualify vin => exact inputQualify_keepsLoss vin s
    | inputOvervoltage vin => exact inputOvervoltage_keepsLoss vin s
    | inputUndervoltageOff vin => exact inputUndervoltageOff_keepsLoss vin s
    | perstNAssert => exact perstNAssert_keepsLoss s
    | perstNDeassert => exact perstNDeassert_keepsLoss s
    | pkgFaultNRelease vin => exact pkgFaultNRelease_keepsLoss vin s
    | _ => cases hc

theorem tick_lossSound (h : s.lossSound) : s.tick.lossSound := by
  unfold State.tick
  split
  · next hon => exact lossSound_of_on hon
  · exact h

theorem step_empty (h : s.pending = []) : step s = .next s.tick := by
  rw [step, h]

theorem step_front {c : Instr} {rest : List Instr} (h : s.pending = c :: rest) :
    step s = exec c { s with pending := rest } := by
  rw [step, h]

theorem reset_dark : State.reset.dark := powerDown_dark State.reset

end Sys2Proof.Machine
end

section
/-! The statements on the scope of the block (00_scope.md) settled.
-/

open Sys2Proof Sys2Proof.Machine

/-- Settles O6: a step is a tick or a command (R678), and each keeps what R4 says of the unpowered package. -/
theorem lossSoundStep : Obligations.LossSoundStep := by
  intro s t hs hstep
  cases hq : s.pending with
  | nil =>
    cases (step_empty hq).symm.trans hstep
    exact tick_lossSound hs
  | cons c rest =>
    obtain ⟨u, hu, -, hl⟩ := exec_keepsLoss c { s with pending := rest }
    cases hu.symm.trans ((step_front hq).symm.trans hstep)
    exact hl hs

/-- Settles O3: no arm of exec stops, and each ends with the queue that it found. -/
theorem everyCommandAnswers : Obligations.EveryCommandAnswers := by
  intro c s
  obtain ⟨t, ht, hp, -⟩ := exec_keepsLoss c s
  exact ⟨t, ht, hp⟩

/-- Settles O4: the effect of every other command is guarded by the package's power. -/
theorem unpoweredInert : Obligations.UnpoweredInert := fun c s hoff hc => (exec_settled c s hc).inert hoff

/-- Settles O2: an empty queue leaves the step to the oscillator's tick. -/
theorem emptyQueueTicks : Obligations.EmptyQueueTicks := fun _ h => step_empty h

/-- Settles O5: the state after reset is dark, and its bounds are facts about empty lists. -/
theorem resetSound : Obligations.ResetSound :=
  ⟨rfl, rfl, lossSound_of_dark reset_dark, rfl, by decide, rfl, rfl, rfl⟩
end

section
/-! SUPPORT. What a message handed to the fabric leaves (R430, R436, R437): the job, device and host memory, the tiles and the
arrays, one lemma for each operation on the message's way to a port.
-/

namespace Sys2Proof.Machine

/-- What the fabric does not touch as a message leaves the device. -/
def State.behindFabric (s : State) : Job × Sparse Byte × Sparse Byte × Sparse Tile × Sparse Arr :=
  (s.job, s.mem, s.host, s.tiles, s.arrs)

@[simp] theorem behindFabric_mk (pending regs latch hiHold readData free osc mem host tstore flash msix power gov snc hal arrs
    tiles charter job engines fre treeC treeR treeT root fab ens injSeen ledger sec dump hang drain sent) :
    (State.mk pending regs latch hiHold readData free osc mem host tstore flash msix power gov snc hal arrs tiles charter job
      engines fre treeC treeR treeT root fab ens injSeen ledger sec dump hang drain sent).behindFabric =
      (job, mem, host, tiles, arrs) := (rfl)

@[simp] theorem behindFabric_eta (s : State) : (s.job, s.mem, s.host, s.tiles, s.arrs) = s.behindFabric := (rfl)

variable (s : State)

@[simp] theorem behindFabric_setFld (f : Fld) (v : Nat) : (s.setFld f v).behindFabric = s.behindFabric := (rfl)
@[simp] theorem behindFabric_setFlag (f : Fld) (b : Bool) : (s.setFlag f b).behindFabric = s.behindFabric := (rfl)
@[simp] theorem behindFabric_event (f : Fld) : (s.event f).behindFabric = s.behindFabric := (rfl)
@[simp] theorem behindFabric_bump (f : Fld) (n : Nat) : (s.bump f n).behindFabric = s.behindFabric := (rfl)
@[simp] theorem behindFabric_setPair (lo hi : Fld) (v : Nat) : (s.setPair lo hi v).behindFabric = s.behindFabric := (rfl)
@[simp] theorem behindFabric_bumpPair (lo hi : Fld) (n : Nat) : (s.bumpPair lo hi n).behindFabric = s.behindFabric := (rfl)
@[simp] theorem behindFabric_putPort (p : Nat) (x : Port) : (s.putPort p x).behindFabric = s.behindFabric := (rfl)
@[simp] theorem behindFabric_transmit (p seq vc flags : Nat) (data : List Byte) (bad : Bool) :
    (s.transmit p seq vc flags data bad).behindFabric = s.behindFabric := (rfl)

@[simp] theorem behindFabric_inject (point unit sub col acc : Nat) :
    (s.inject point unit sub col acc).2.behindFabric = s.behindFabric := by
  unfold State.inject
  dsimp only
  split
  · split <;> simp
  · rfl

@[simp] theorem behindFabric_fillReplay (fuel p : Nat) : (s.fillReplay fuel p).behindFabric = s.behindFabric := by
  induction fuel generalizing s with
  | zero => rfl
  | succ n ih =>
    unfold State.fillReplay
    split
    · rfl
    · split
      · simp [ih]
      · rfl

@[simp] theorem behindFabric_onPort (p : Nat) (m : Msg) : (s.onPort p m).behindFabric = s.behindFabric := by
  simp [State.onPort]

theorem behindFabric_deliver (m : Msg) : (s.deliver m).behindFabric = s.behindFabric := by
  unfold State.deliver
  split <;> rfl

theorem behindFabric_emit (m : Msg) (own : Bool) : (s.emit m own).behindFabric = s.behindFabric := by
  unfold State.emit
  split
  · exact behindFabric_deliver ..
  · split
    · exact behindFabric_onPort ..
    · rfl

theorem behindFabric_sendOn (dest cls stream : Nat) (payload : List Byte) :
    (s.sendOn dest cls stream payload).behindFabric = s.behindFabric := by
  unfold State.sendOn
  split
  · exact behindFabric_emit ..
  · rfl

@[simp] theorem behindFabric_sendFault (cls : Nat) (halt : Bool) : (s.sendFault cls halt).behindFabric = s.behindFabric :=
  behindFabric_sendOn ..

end Sys2Proof.Machine
end

section
/-! SUPPORT. What a fault leaves (R579, R589): its record, and in a running job what the ensign does.
-/

namespace Sys2Proof.Machine

variable (s : State)

/-- The registers of a fault record (R617). -/
def faultRecordOffs : List Nat :=
  [R.RST_FLTCLS, R.RST_FLTACC_LO, R.RST_FLTACC_HI, R.RST_FLTSTEP_LO, R.RST_FLTSTEP_HI]

/-- A pair's two registers are all that a write of it changes. -/
theorem setPair_only (lo hi : Fld) (v : Nat) : ∃ r, s.setPair lo hi v = { s with regs := r } :=
  ⟨_, setAll_only [(lo, v), (hi, v / 2 ^ 32)] s⟩

theorem recordFault_only (cls ukind unit acc : Nat) : ∃ r, s.recordFault cls ukind unit acc = { s with regs := r } := by
  obtain ⟨r, hacc⟩ := setPair_only (s.wr R.RST_FLTCLS (pack [(24, cls), (20, ukind), (0, unit)])) F.RST_FLTACC_LO_ACC
    F.RST_FLTACC_HI_ACC acc
  simp only [wr_frame] at hacc
  obtain ⟨q, hstep⟩ := setPair_only { s with regs := r } F.RST_FLTSTEP_LO_STEP F.RST_FLTSTEP_HI_STEP s.step
  exact ⟨q, by rw [State.recordFault, hacc, hstep]⟩

theorem rd_recordFault_other (cls ukind unit acc : Nat) {o : Nat} (h : o ∉ faultRecordOffs) :
    (s.recordFault cls ukind unit acc).rd o = s.rd o := by
  simp only [faultRecordOffs, List.mem_cons, List.not_mem_nil, or_false, not_or] at h
  obtain ⟨hcls, hacclo, hacchi, hsteplo, hstephi⟩ := h
  simp only [State.recordFault, State.setPair, State.setFld]
  rw [rd_wr_other _ _ hstephi, rd_wr_other _ _ hsteplo, rd_wr_other _ _ hacchi, rd_wr_other _ _ hacclo, rd_wr_other _ _ hcls]

/-- The class, the kind of the unit and the unit stand in RST_FLTCLS as the record packs them. -/
theorem rd_recordFault_cls (cls ukind unit acc : Nat) :
    (s.recordFault cls ukind unit acc).rd R.RST_FLTCLS = pack [(24, cls), (20, ukind), (0, unit)] := by
  simp only [State.recordFault, State.setPair, State.setFld]
  rw [rd_wr_other _ _ (by decide), rd_wr_other _ _ (by decide), rd_wr_other _ _ (by decide), rd_wr_other _ _ (by decide),
    rd_wr_same]

/-- A record reads back its class, the kind of its unit and its unit, each of which fits its field (R617). -/
theorem recordFault_fields {cls ukind unit : Nat} (acc : Nat) (hcls : cls < 2 ^ 8) (hkind : ukind < 2 ^ 4)
    (hunit : unit < 2 ^ 12) :
    (s.recordFault cls ukind unit acc).fld F.RST_FLTCLS_CLASS = cls ∧
    (s.recordFault cls ukind unit acc).fld F.RST_FLTCLS_UKIND = ukind ∧
    (s.recordFault cls ukind unit acc).fld F.RST_FLTCLS_UNIT = unit := by
  have hbits (hi lo : Nat) : (s.recordFault cls ukind unit acc).fld ⟨R.RST_FLTCLS, hi, lo⟩ =
      bits (pack [(24, cls), (20, ukind), (0, unit)]) hi lo := by rw [State.fld, rd_recordFault_cls]
  refine ⟨(hbits _ _).trans ?_, (hbits _ _).trans ?_, (hbits _ _).trans ?_⟩
  all_goals simp only [bits, pack, packNat, BitVec.toNat_ofNat]; omega

/-- Without a job a fault leaves its record and nothing else. -/
theorem raiseFault_idle (h : s.job.running = false) (cls ukind unit acc : Nat) (halt : Bool) :
    s.raiseFault cls ukind unit acc halt = s.recordFault cls ukind unit acc := by
  unfold State.raiseFault
  rw [if_neg (by simpa [State.recordFault] using h)]

/-- In a running job the ensign starts no more items, and the FAULT that it sends to the step root is the fabric's matter. -/
theorem raiseFault_running (h : s.job.running = true) (cls ukind unit acc : Nat) (halt : Bool) :
    (s.raiseFault cls ukind unit acc halt).behindFabric =
      ({ s.job with stopItems := true, fault := some (cls, halt), faultSends := 1 }, s.mem, s.host, s.tiles, s.arrs) := by
  have hbusy : (s.recordFault cls ukind unit acc).job.running = true := by simpa [State.recordFault] using h
  simp only [State.raiseFault, hbusy, if_true]
  split <;> simp [State.recordFault, h]

variable {s} in
/-- An effect on registers alone is all that the command leaves, but for the event vectors sent. -/
theorem Became.only_regs {t : State} {r : Sparse W32} (h : Became s { s with regs := r } t) :
    t = { s with regs := t.regs, msix := t.msix } := by
  obtain ⟨n, rfl⟩ := h
  rfl

/-- The hub's faults that halt have one effect, and differ in their class. -/
theorem haltingFault_exec {c : Instr} {cls : Nat}
    (hc : c = .oscillatorFault ∧ cls = 0x13 ∨ c = .thermalTripHalt ∧ cls = 0x15 ∧ s.flag F.GOV_STAT_TRIP = true) :
    exec c s = act s (fun s => s.raiseFault cls 0x9 0 0 true) := by
  rcases hc with ⟨rfl, rfl⟩ | ⟨rfl, rfl, htrip⟩
  · rfl
  · change act s _ = _
    simp only [act, htrip, if_true]

end Sys2Proof.Machine
end

section
/-! The halting faults (R33, R579, R589) settled.
-/

open Sys2Proof Sys2Proof.Machine

/-- Settles O20: without a job raiseFault is its record alone, and in a running job what the ensign sends beside it to the step
root is the fabric's matter. -/
theorem haltingFaults : Obligations.HaltingFaults := by
  intro s c cls hon hc
  obtain ⟨t, ht, hb⟩ := act_became (fun s => s.raiseFault cls 0x9 0 0 true) hon
  refine ⟨t, (haltingFault_exec s hc).trans ht, fun hidle => ?_, fun hrun => ?_⟩
  · rw [raiseFault_idle s hidle] at hb
    have hcls : cls < 2 ^ 8 := by omega
    obtain ⟨hclass, hkind, hunit⟩ := recordFault_fields s 0 hcls (by decide : 9 < 2 ^ 4) (by decide : 0 < 2 ^ 12)
    refine ⟨(hb.fld _).trans hclass, (hb.fld _).trans hkind, (hb.fld _).trans hunit, ?_,
      fun o ho => (hb.rd o).trans (rd_recordFault_other s _ _ _ _ ho)⟩
    obtain ⟨r, hr⟩ := recordFault_only s cls 0x9 0 0
    exact Became.only_regs (hr ▸ hb)
  · obtain ⟨⟨-, -, -, -, -, -, -, hmem, hhost, -⟩, ⟨-, -, -, -, harrs, htiles, -, hjob, -⟩, -⟩ := hb.frame
    have h := raiseFault_running s hrun cls 0x9 0 0 true
    simp only [State.behindFabric, Prod.mk.injEq] at h
    obtain ⟨hj, hm, hh, hx, ha⟩ := h
    exact ⟨hjob.trans hj, hmem.trans hm, hhost.trans hh, htiles.trans hx, harrs.trans ha⟩
end

section
/-! SUPPORT. A statistics op that waits for the reload of its group (R283) when its phase closes: run once more, it goes on waiting,
but its tile's note of the reload is gone. The wait is therefore not all that the command leaves, as O38's third clause has it.
-/

namespace Sys2Proof.Machine.ReloadNote

/-- An FP32 tensor of one element in stack 0, stored by the host. -/
def element : Tensor := { id := 0xFFFF0000, desc := 0, rows := 1, rowlen := 1, pitch := 16 }

/-- An SMB command of halyard 3 on tile 0 (R274) over that element; its bytes 44 to 51 name the group 2^32. -/
def smb : TileCmd :=
  { acc := 3 * 2 ^ 48, unitsel := 5, ta := 0xFFFF0000, tb := 0xFFFF0000, tc := 0xFFFF0000, td := 0xFFFF0000, nr := 1,
    k := 0x3F800000, p1 := 0x3F800000 }

/-- The tile before the command: its group is spilled, and the records of another fill the record area (R282). -/
def full : Tile :=
  { groups := [{ acc := 2 ^ 32, first := 0, count := 1, recs := [], spilled := true },
               { acc := 1, first := 0, count := 28672, recs := [] }] }

/-- The tile that holds the command back until its group can be reloaded, and has noted that (R283). -/
def held : Tile := { full with seqWait := [(0x43, smb)], reloading := [smb.acc] }

/-- A powered package whose halyard 3 has fetched the command, with a tile 0. -/
def fetched (x : Tile) : State :=
  { State.reset with
    power := { on := true, qualified := true, rails := 0xFF, vio18 := true }
    hal := { linkUp := true, tensors := [element],
             halyards := [(3, { fetched := [{ acc := smb.acc, bytes := smb.bytes 0x43 }], pos := 1 })] }
    tiles := [(0, x)] }

/-- A thermal trip, which closes every phase (R521), comes while the tile holds the command back. -/
def tripped : State := (fetched held).setFld F.GOV_STAT_TRIP 1

/-- The tile comes to hold the command back by running it. -/
theorem smb_full_held : ∃ t, exec (.smb smb) (fetched full) = .next t ∧ t.tile 0 = held := ⟨_, rfl, by decide +kernel⟩

theorem tripped_takes : tripped.takes 0x43 smb := by unfold State.takes; decide +kernel

theorem tripped_closed : tripped.tileRefusal 0x43 smb = 0 ∧ tripped.phaseOpen smb = false ∧
    tripped.bufferBusy 0x43 smb = false := by decide +kernel

/-- The command run under the trip leaves no note of the reload. -/
theorem smb_tripped_unnoted : ∃ t, exec (.smb smb) tripped = .next t ∧ (t.tile 0).reloading = [] :=
  ⟨_, rfl, by decide +kernel⟩

end Sys2Proof.Machine.ReloadNote
end

section
/-! The completion of tile commands (R24, R109, R466) settled.
-/

open Sys2Proof Sys2Proof.Machine

/-- Refutes O38, in its third clause: an SMB that waits on its tile for its group's reload when a thermal trip closes its phase,
and is run once more, does not leave the state as it was, for the tile drops its note of the reload (Tile.reloading). -/
theorem not_tileCommandsComplete : ¬ Obligations.TileCommandsComplete := by
  rintro ⟨-, -, hwaits⟩
  obtain ⟨hrefusal, hclosed, hbucket⟩ := ReloadNote.tripped_closed
  have hsame := hwaits ReloadNote.tripped (.smb ReloadNote.smb) 0x43 ReloadNote.smb rfl ReloadNote.tripped_takes hrefusal
    (.inl hclosed) hbucket
  obtain ⟨t, ht, hnote⟩ := ReloadNote.smb_tripped_unnoted
  have hin : (0x43, ReloadNote.smb) ∈ (ReloadNote.tripped.tile ReloadNote.smb.tile).seqWait := by decide +kernel
  rw [if_pos hin, ht] at hsame
  injection hsame with hsame
  have hnoted : (ReloadNote.tripped.tile 0).reloading = [ReloadNote.smb.acc] := by decide +kernel
  rw [← hsame, hnote] at hnoted
  cases hnoted
end

section
/-! SUPPORT. A state whose list of tiles names tile 0 twice, outside the canonical form that every store keeps (canonical_store), and in it
an SMF that may start: the second entry, which a read of tile 0 never reaches, alone shows that the command before it has been dispatched (R465).
The statistics engine writes its tile's record back before the sequencer asks again whether the command may start; the write drops
both entries, and the command does not run.
-/

namespace Sys2Proof.Machine.ShadowedTile

/-- A CONVERT of halyard 3 on tile 0, which the second entry of the tile holds back. -/
def earlier : TileCmd := { ReloadNote.smb with unitsel := 0 }

/-- The SMF of halyard 3 on tile 0 (R272) that follows it. -/
def smf : TileCmd := { ReloadNote.smb with acc := earlier.acc + 1, unitsel := 2 }

/-- A powered package whose halyard 3 has fetched both commands, with two entries for tile 0. -/
def twice : State :=
  { ReloadNote.fetched {} with
    hal := { linkUp := true, tensors := [ReloadNote.element],
             halyards := [(3, { fetched := [{ acc := earlier.acc, bytes := earlier.bytes 0x44 },
                                            { acc := smf.acc, bytes := smf.bytes 0x43 }], pos := 2 })] }
    tiles := [(0, {}), (0, { seqWait := [(0x44, earlier)] })] }

theorem twice_takes : twice.takes 0x43 smf := by unfold State.takes; decide +kernel

/-- Nothing keeps the SMF from running at once. -/
theorem twice_canRun : twice.canRun 0x43 smf := by
  obtain ⟨hrefusal, harm, hphase, hbucket, hbehind, hred⟩ : twice.tileRefusal 0x43 smf = 0 ∧
      twice.flag F.INJ_CTRL_ARM = false ∧ twice.phaseOpen smf = true ∧ twice.bufferBusy 0x43 smf = false ∧
      twice.behind 0x43 smf = false ∧ twice.flag (F.TIL_REDSTAT_ON smf.tile) = false := by decide +kernel
  have hop : (0x43 : Nat) ≠ 0x40 := by decide
  have hforward : ¬ 3 ≤ smf.sel := by decide
  have hhost : smf.job ≠ true := by decide
  exact ⟨twice_takes, hrefusal, harm, hphase, hbucket, hbehind, fun h => absurd h hop, fun _ h => absurd h hforward,
    fun h => absurd h hhost, hred⟩

/-- The tile's record written back unchanged drops the entry that shows the earlier command dispatched. -/
theorem twice_written_back : twice.mayStart smf.acc = true ∧
    (twice.putTileRec smf.tile (twice.tile smf.tile)).mayStart smf.acc = false := by decide +kernel

/-- The SMF leaves no group on its tile. -/
theorem smf_twice_no_group : ∃ t, exec (.smf smf) twice = .next t ∧ (t.tile smf.tile).groups = [] :=
  ⟨_, rfl, by decide +kernel⟩

end Sys2Proof.Machine.ShadowedTile
end

section
/-! What the tile commands store (R75, R98, R276 to R284, R296, R371, R388, R410, R411) settled.
-/

open Sys2Proof Sys2Proof.Machine

/-- Refutes O39, in its fourth clause, which asks nothing of the form of the state's list of tiles: where the list names a tile twice,
an SMF that may run leaves no group (ShadowedTile.twice). -/
theorem not_tileCommandStores : ¬ Obligations.TileCommandStores := by
  rintro ⟨-, -, -, hforward, -⟩
  have hroom : (ShadowedTile.twice.tile ShadowedTile.smf.tile).records false + ShadowedTile.smf.nr ≤ 28672 := by
    decide +kernel
  obtain ⟨t, ht, ⟨g, hg, -⟩, -⟩ := hforward ShadowedTile.twice (.smf ShadowedTile.smf) ShadowedTile.smf rfl (by decide)
    ShadowedTile.twice_canRun hroom
  obtain ⟨u, hu, hnone⟩ := ShadowedTile.smf_twice_no_group
  rw [hu] at ht
  injection ht with htu
  rw [← htu, hnone] at hg
  cases hg
end

section
/-! SUPPORT. Operations that change nothing but a tile's record and the TIL_ and OPE_ registers of the tile (R215, R259, R566 to R571,
R619): all else is as before.
-/

namespace Sys2Proof.Machine

variable {s u v : State} {t : Nat}

/-- The offset of a TIL_ or OPE_ register of tile t. -/
def TileOff (t o : Nat) : Prop := 0x1000000 + 0x4000 * t ≤ o ∧ o < 0x1002000 + 0x4000 * t

/-- From s to u nothing changed but tiles' records and the TIL_ and OPE_ registers of tile t. -/
def TileOnly (t : Nat) (s u : State) : Prop :=
  u = { s with regs := u.regs, tiles := u.tiles } ∧ ∀ o, ¬ TileOff t o → u.rd o = s.rd o

theorem TileOnly.refl (s : State) : TileOnly t s s := ⟨rfl, fun _ _ => rfl⟩

theorem TileOnly.trans (h : TileOnly t s u) (h' : TileOnly t u v) : TileOnly t s v := by
  refine ⟨?_, fun o ho => (h'.2 o ho).trans (h.2 o ho)⟩
  rw [h'.1, h.1]

theorem TileOnly.ite {p : Prop} [Decidable p] (h : TileOnly t s u) (h' : TileOnly t s v) :
    TileOnly t s (if p then u else v) := by
  split
  · exact h
  · exact h'

/-- What the units of the device other than its tiles hold is as before. -/
theorem TileOnly.frame (h : TileOnly t s u) : u.mem = s.mem ∧ u.arrs = s.arrs ∧ u.charter = s.charter := by
  rw [h.1]
  exact ⟨rfl, rfl, rfl⟩

theorem arr_congr (h : u.arrs = s.arrs) (x a : Nat) : u.arr x a = s.arr x a := by simp only [State.arr, h]

theorem TileOnly.fld (h : TileOnly t s u) (f : Fld) (hf : ¬ TileOff t f.off) : u.fld f = s.fld f := by
  simp only [State.fld, h.2 _ hf]

theorem tileOnly_wr {off : Nat} (w : W32) (h : TileOff t off) : TileOnly t s (s.wr off w) :=
  ⟨rfl, fun _ ho => rd_wr_other s w (fun e => ho (e ▸ h))⟩

theorem tileOnly_setFld {f : Fld} (n : Nat) (h : TileOff t f.off) : TileOnly t s (s.setFld f n) := tileOnly_wr _ h
theorem tileOnly_event {f : Fld} (h : TileOff t f.off) : TileOnly t s (s.event f) := tileOnly_wr _ h
theorem tileOnly_bump {f : Fld} (n : Nat) (h : TileOff t f.off) : TileOnly t s (s.bump f n) := tileOnly_wr _ h

theorem tileOnly_bumpPair {lo hi : Fld} (n : Nat) (hlo : TileOff t lo.off) (hhi : TileOff t hi.off) :
    TileOnly t s (s.bumpPair lo hi n) := (tileOnly_setFld _ hlo).trans (tileOnly_setFld _ hhi)

theorem tileOnly_putTileRec (x : Tile) : TileOnly t s (s.putTileRec t x) := ⟨rfl, fun _ _ => rfl⟩

theorem tileOnly_tally (code n : Nat) : TileOnly t s (s.tally t code n) := by
  unfold State.tally
  dsimp only
  split
  · exact .refl s
  · exact .ite (.refl s) (tileOnly_putTileRec _)

/-- The counts of a tile leave the registers. -/
@[simp] theorem regs_tally (t code n : Nat) : (s.tally t code n).regs = s.regs := by
  unfold State.tally
  dsimp only
  split
  · rfl
  · split <;> rfl

theorem tileOnly_wantRed (n : Nat) : TileOnly t s (s.wantRed t n) :=
  .ite (tileOnly_setFld _ (by simp [TileOff])) (tileOnly_putTileRec _)

theorem tileOnly_startTest (r : TestReq) : TileOnly t s (s.startTest t r) := by
  have hstat (w : W32) : TileOnly t s
      ((s.putTileRec t { s.tile t with test := some r, redFailed := false }).wr (R.TIL_TESTSTAT t) w) :=
    (tileOnly_putTileRec _).trans (tileOnly_wr _ (by simp [TileOff]))
  exact .ite ((hstat _).trans (tileOnly_wantRed _)) (hstat _)

theorem tileOnly_requestTest (kind mode array col steps : Nat) (host : Option Nat) :
    TileOnly t s (s.requestTest t kind mode array col steps host) := by
  unfold State.requestTest
  dsimp only
  split
  · exact tileOnly_startTest _
  · exact .ite (tileOnly_putTileRec _) (.ite (tileOnly_putTileRec _) (tileOnly_bump _ (by simp [TileOff])))

theorem tileOnly_checkFailed : TileOnly t s (s.checkFailed t) := (tileOnly_tally ..).trans (tileOnly_putTileRec _)

theorem tileOnly_corrBeats (a : Nat) (m : List Int) : TileOnly t s (s.corrBeats t a m) :=
  .ite (((tileOnly_putTileRec _).trans
    (tileOnly_bumpPair _ (by simp [TileOff]) (by simp [TileOff]))).trans (tileOnly_tally ..)) (.refl s)

theorem tileOnly_dpaCounts (m k n runs : Nat) : TileOnly t s (s.dpaCounts t m k n runs) :=
  (((tileOnly_bumpPair _ (by simp [TileOff]) (by simp [TileOff])).trans (tileOnly_tally ..)).trans
    (tileOnly_bump _ (by simp [TileOff]))).trans (tileOnly_tally ..)

end Sys2Proof.Machine
end

section
/-! SUPPORT. Computations that count saturations the same however many were counted before them (R107): their values are functions of
their operands, and so are the DPA's values of covered columns (R251).
-/

namespace Sys2Proof.Machine

variable {α β : Type}

/-- What a computation gives where it starts with no saturation counted. -/
def Cnt.value (m : Cnt α) : α := (m.run 0).1

/-- A computation whose value, and whose number of saturations, do not depend on how many were counted before it. -/
def Cnt.Steady (m : Cnt α) : Prop := ∃ k, ∀ n, m.run n = (m.value, n + k)

theorem Cnt.Steady.run {m : Cnt α} (h : m.Steady) (n : Nat) : (m.run n).1 = m.value := by
  obtain ⟨k, hk⟩ := h
  rw [hk]

theorem Cnt.steady_pure (a : α) : Cnt.Steady (pure a : Cnt α) := ⟨0, fun _ => rfl⟩

@[simp] theorem Cnt.value_pure (a : α) : Cnt.value (pure a : Cnt α) = a := rfl

theorem Cnt.value_bind {m : Cnt α} {f : α → Cnt β} (hf : ∀ a, (f a).Steady) : (m >>= f).value = (f m.value).value :=
  (hf m.value).run _

theorem Cnt.Steady.bind {m : Cnt α} {f : α → Cnt β} (hm : m.Steady) (hf : ∀ a, (f a).Steady) : (m >>= f).Steady := by
  obtain ⟨k, hk⟩ := hm
  obtain ⟨j, hj⟩ := hf m.value
  refine ⟨k + j, fun n => ?_⟩
  calc (m >>= f).run n = (f (m.run n).1).run (m.run n).2 := rfl
    _ = ((m >>= f).value, n + (k + j)) := by rw [hk, hj, Cnt.value_bind hf, Nat.add_assoc]

theorem Cnt.steady_countSat : countSat.Steady := ⟨1, fun _ => rfl⟩

/-- A computation that marks what another gave by whether that counted a saturation. -/
theorem Cnt.Steady.marked {m : Cnt α} {m' : Cnt β} (hm : m.Steady) (g : α → Bool → β)
    (hg : ∀ n, m'.run n = (g (m.run n).1 (n != (m.run n).2), (m.run n).2)) : m'.Steady := by
  obtain ⟨k, hk⟩ := hm
  refine ⟨k, fun n => ?_⟩
  have hmark : (n != n + k) = (0 != 0 + k) := by
    rw [Bool.eq_iff_iff]
    simp only [bne_iff_ne]
    omega
  rw [Cnt.value, hg, hg, hk, hk, hmark]

theorem Cnt.Steady.mapM {f : α → Cnt β} (hf : ∀ a, (f a).Steady) (xs : List α) : Cnt.Steady (xs.mapM f) := by
  induction xs with
  | nil => exact Cnt.steady_pure _
  | cons x xs ih =>
    rw [List.mapM_cons]
    exact (hf x).bind fun _ => ih.bind fun _ => Cnt.steady_pure _

theorem Cnt.value_mapM {f : α → Cnt β} (hf : ∀ a, (f a).Steady) (xs : List α) :
    Cnt.value (xs.mapM f) = xs.map (fun x => (f x).value) := by
  induction xs with
  | nil => rfl
  | cons x xs ih =>
    rw [List.mapM_cons, Cnt.value_bind fun _ => (Cnt.Steady.mapM hf xs).bind fun _ => Cnt.steady_pure _,
      Cnt.value_bind fun _ => Cnt.steady_pure _, ih]
    rfl

/-! ### The DPA's arithmetic (R87, R95, R104) -/

theorem Cnt.steady_toFP32 (p : Policy) (v : FVal) : (toFP32 p v).Steady := by
  unfold toFP32 roundTo
  cases v with
  | nan => exact Cnt.steady_pure _
  | inf neg => exact Cnt.steady_pure _
  | num neg m e =>
    dsimp only
    split
    · cases p with
      | propagate => exact Cnt.steady_pure _
      | saturate => exact Cnt.steady_countSat.bind fun _ => Cnt.steady_pure _
    · exact Cnt.steady_pure _

theorem Cnt.steady_addRuns (p : Policy) (acc : FVal) (rs : List (List FVal)) : (addRuns p acc rs).Steady := by
  induction rs generalizing acc with
  | nil => exact Cnt.steady_pure _
  | cons r rs ih => exact ((Cnt.steady_toFP32 ..).bind fun _ => Cnt.steady_toFP32 ..).bind ih

theorem Cnt.steady_narrowRun (p : Policy) (ps : List FVal) : (narrowRun p ps).Steady :=
  (Cnt.steady_addRuns p FVal.zero (chunks 256 (takeProducts p {} ps).2)).marked (fun acc c =>
    { val := blockEnd (takeProducts p {} ps).1 acc, absorbed := (takeProducts p {} ps).1.absorbed, counted := c }) fun _ => rfl

theorem Cnt.steady_elemOf {m : Cnt FVal} (h : m.Steady) : (elemOf m).Steady :=
  h.marked (fun x c => { val := x, counted := c }) fun _ => rfl

theorem Cnt.steady_readOperand (p : Policy) (d : W16) (v : FVal) : (readOperand p d v).Steady := by
  unfold readOperand
  split
  · exact Cnt.steady_countSat.bind fun _ => Cnt.steady_pure _
  · exact Cnt.steady_pure _

theorem Cnt.steady_coverRun (p : Policy) (w : List FVal) (m : List Int) : (coverRun p w m).Steady := by
  unfold coverRun
  split
  · exact Cnt.steady_pure _
  · exact Cnt.steady_narrowRun ..

/-! ### Covered columns (R251) -/

variable (p : Policy)

/-- A column of weights as the DPA decodes it from the digital copy (R160). -/
def State.columnWeights (s : State) (t a j : Nat) : Cnt (List FVal) :=
  (List.range 512).mapM (fun i => readOperand p 1 (s.copyWeight (s.active t a) t a i j))

theorem Cnt.steady_columnWeights (s : State) (t a j : Nat) : (s.columnWeights p t a j).Steady :=
  Cnt.Steady.mapM (fun _ => Cnt.steady_readOperand ..) _

theorem value_coverWeights (s : State) (t a : Nat) (cols : List Nat) :
    (s.coverWeights t a p cols).value = cols.map (fun j => (j, (s.columnWeights p t a j).value)) := by
  have hcol (j : Nat) : Cnt.Steady (do
      let w ← s.columnWeights p t a j
      pure (j, w)) := (Cnt.steady_columnWeights ..).bind fun _ => Cnt.steady_pure _
  refine (Cnt.value_mapM hcol cols).trans (List.map_congr_left fun j _ => ?_)
  exact Cnt.value_bind fun _ => Cnt.steady_pure _

theorem value_coverRuns (ws : List (Nat × List FVal)) (m : List Int) :
    (coverRuns p ws m).value = ws.map (fun w => (coverRun p w.2 m).value) :=
  Cnt.value_mapM (fun _ => Cnt.steady_coverRun ..) _

/-- A run with the block exponent applied (R251), as an output element. -/
def coverElem (e : Int) (r : Elem) : Cnt Elem := do
  let v ← elemOf (fldexp p r.val e)
  pure { v with absorbed := r.absorbed, counted := v.counted || r.counted }

theorem Cnt.steady_coverElem (e : Int) (r : Elem) : (coverElem p e r).Steady :=
  (Cnt.steady_elemOf (Cnt.steady_toFP32 ..)).bind fun _ => Cnt.steady_pure _

theorem val_coverElem (e : Int) (r : Elem) : (coverElem p e r).value.val = (elemOf (fldexp p r.val e)).value.val := by
  rw [coverElem, Cnt.value_bind fun _ => Cnt.steady_pure _]
  rfl

/-- Among entries made from column numbers, the one of column j. -/
theorem find?_column {γ : Type} (g : Nat → γ) (key : γ → Nat) (hkey : ∀ i, key (g i) = i) (cols : List Nat) (j : Nat) :
    (cols.map g).find? (fun w => key w == j) = if cols.contains j then some (g j) else none := by
  induction cols with
  | nil => rfl
  | cons i cols ih =>
    by_cases h : i = j
    · simp [hkey, h]
    · simp [hkey, h, Ne.symm h, ih]

/-- placeCover puts each covered column's element in its place and leaves the others. -/
theorem value_placeCover (cols : List Nat) (w : Nat → List FVal) (run : Nat → Elem) (e : Int) (y : List Elem) :
    (placeCover p (cols.map fun j => (j, w j)) (cols.map run) e y).value =
      y.mapIdx (fun j v => if cols.contains j then (coverElem p e (run j)).value else v) := by
  have hvs : Cnt.value (List.mapM (coverElem p e) (cols.map run)) = cols.map (fun j => (coverElem p e (run j)).value) := by
    rw [Cnt.value_mapM (Cnt.steady_coverElem p e), List.map_map]
    rfl
  unfold placeCover
  change Cnt.value (List.mapM (coverElem p e) (cols.map run) >>= _) = _
  rw [Cnt.value_bind fun _ => Cnt.steady_pure _, hvs, Cnt.value_pure, List.zip_map']
  congr 1
  funext j v
  rw [find?_column (fun i => ((i, w i), (coverElem p e (run i)).value)) (fun w => w.1.1) (fun _ => rfl)]
  by_cases h : cols.contains j = true
  · rw [if_pos h, if_pos h]
  · rw [if_neg h, if_neg h]

/-- The outputs of a vector with its covered columns in place (R251), in FP32. -/
def State.coverOutputs (s : State) (t a : Nat) (v : EdgeVec) : List W32 :=
  ((placeCover p (s.coverWeights t a p (s.coveredCols t a)).value
    (coverRuns p (s.coverWeights t a p (s.coveredCols t a)).value v.m).value v.e
    ((padTo 512 0 v.y).map (fun w => { val := ofFP32 w }))).value).map (fun r => fp32Bits r.val)

/-- Output j as COVER leaves it: the product with column j of the digital copy where the column is covered, else what it was. -/
theorem coverOutputs_getD (s : State) (t a : Nat) (v : EdgeVec) {j : Nat} (hj : j < 512) :
    (s.coverOutputs p t a v).getD j 0 = if (s.coveredCols t a).contains j then
        fp32Bits (Cnt.value (do
          let w ← s.columnWeights p t a j
          let r ← coverRun p w v.m
          elemOf (fldexp p r.val v.e))).val
      else fp32Bits (ofFP32 (v.y.getD j 0)) := by
  have hcol : Cnt.value (do
      let w ← s.columnWeights p t a j
      let r ← coverRun p w v.m
      elemOf (fldexp p r.val v.e)) =
      (elemOf (fldexp p (coverRun p (s.columnWeights p t a j).value v.m).value.val v.e)).value := by
    have helem (r : Elem) : (elemOf (fldexp p r.val v.e)).Steady := Cnt.steady_elemOf (Cnt.steady_toFP32 ..)
    rw [Cnt.value_bind fun _ => (Cnt.steady_coverRun ..).bind helem, Cnt.value_bind helem]
  have hlen : j < (padTo 512 (0 : W32) v.y).length := by simp [padTo]; omega
  have hpad : (padTo 512 0 v.y)[j] = v.y.getD j 0 := by
    by_cases hy : j < v.y.length
    · simp [padTo, hy]
    · simp [padTo, Nat.le_of_not_lt hy]
  unfold State.coverOutputs
  rw [value_coverRuns, value_coverWeights, List.map_map, value_placeCover, hcol]
  simp only [List.getD_eq_getElem?_getD, List.getElem?_map, List.getElem?_mapIdx, List.getElem?_eq_getElem hlen, hpad]
  split <;> simp [*, val_coverElem]

end Sys2Proof.Machine
end

section
/-! SUPPORT. The checksum comparisons of covered columns (R251, R560, R562) while no injection is armed (R573): whatever they find, the
columns' runs and device memory stay as they were.
-/

namespace Sys2Proof.Machine

variable {s u : State}

/-! ### No injection comes to be armed -/

theorem Unarmed.of_rd (h : Unarmed s) (hr : u.rd R.INJ_CTRL = s.rd R.INJ_CTRL) : Unarmed u := by
  unfold Unarmed State.flag State.fld at h ⊢
  rw [hr, h]

theorem Unarmed.of_regs (h : Unarmed s) (hr : u.regs = s.regs) : Unarmed u := h.of_rd (rd_congr hr _)

theorem Unarmed.setFld (h : Unarmed s) {f : Fld} (n : Nat) (hf : f.off ≠ R.INJ_CTRL) : Unarmed (s.setFld f n) :=
  h.of_rd (rd_wr_other s _ hf.symm)

theorem Unarmed.tileOnly {t : Nat} (h : Unarmed s) (ht : TileOnly t s u) : Unarmed u :=
  h.of_rd (ht.2 _ (by simp only [TileOff, R.INJ_CTRL]; omega))

theorem Unarmed.fillReplay (h : Unarmed s) (fuel p : Nat) : Unarmed (s.fillReplay fuel p) := by
  induction fuel generalizing s with
  | zero => exact h
  | succ n ih =>
    unfold State.fillReplay
    split
    · exact h
    · next f x _ =>
      split
      · dsimp only
        rw [inject_unarmed (s := s.putPort p _) h]
        exact ih h
      · exact h

theorem Unarmed.onPort (h : Unarmed s) (p : Nat) (m : Msg) : Unarmed (s.onPort p m) := by
  refine Unarmed.fillReplay (Unarmed.setFld (Unarmed.setFld ?_ _ ?_) _ ?_) _ _
  · exact h
  all_goals simp only [R.INJ_CTRL, ne_eq]; omega

theorem Unarmed.emit (h : Unarmed s) (m : Msg) (own : Bool) : Unarmed (s.emit m own) := by
  unfold State.emit State.deliver
  split
  · split <;> exact h
  · split
    · exact h.onPort ..
    · exact h

theorem Unarmed.sendOn (h : Unarmed s) (dest cls stream : Nat) (payload : List Byte) :
    Unarmed (s.sendOn dest cls stream payload) := by
  unfold State.sendOn
  split
  · exact Unarmed.emit (h.of_regs (by rfl)) ..
  · exact h

theorem Unarmed.sendFault (h : Unarmed s) (cls : Nat) (halt : Bool) : Unarmed (s.sendFault cls halt) := by
  unfold State.sendFault State.toRoot State.sendCtrl
  exact h.sendOn ..

theorem Unarmed.raiseFault (h : Unarmed s) (cls ukind unit acc : Nat) (halt : Bool) :
    Unarmed (s.raiseFault cls ukind unit acc halt) := by
  have hrec : Unarmed (s.recordFault cls ukind unit acc) := h.of_rd (rd_recordFault_other s _ _ _ _ (by decide))
  unfold State.raiseFault
  generalize s.recordFault cls ukind unit acc = u at hrec ⊢
  dsimp only
  split
  · split
    · exact hrec.of_regs (by rfl)
    · exact Unarmed.sendFault (hrec.of_regs (by rfl)) ..
  · exact hrec

/-! ### Comparisons -/

/-- A fault leaves device memory, whether a job runs or not. -/
theorem mem_raiseFault (cls ukind unit acc : Nat) (halt : Bool) : (s.raiseFault cls ukind unit acc halt).mem = s.mem := by
  cases hrun : s.job.running with
  | false =>
    obtain ⟨r, hr⟩ := recordFault_only s cls ukind unit acc
    rw [raiseFault_idle s hrun, hr]
  | true => exact congrArg (·.2.1) (raiseFault_running s hrun cls ukind unit acc halt)

/-- Comparisons that failed, and failed again, leave the state unarmed and device memory. -/
theorem checkHard_calm (h : Unarmed s) (t acc n : Nat) : Unarmed (s.checkHard t acc n) ∧ (s.checkHard t acc n).mem = s.mem := by
  unfold State.checkHard State.tileFault
  extract_lets counted
  have hred : TileOnly t s (counted.wantRed t 64) :=
    ((tileOnly_bump _ (by simp [TileOff])).trans (tileOnly_event (by simp [TileOff]))).trans (tileOnly_wantRed _)
  have htest := tileOnly_requestTest (t := t) (s := (counted.wantRed t 64).raiseFault 0x11 0x1 t acc false) 3 0 0 0 0 none
  exact ⟨((h.tileOnly hred).raiseFault ..).tileOnly htest,
    htest.frame.1.trans ((mem_raiseFault ..).trans hred.frame.1)⟩

/-- Without an armed injection the comparisons leave the results that they compare, and device memory. -/
theorem checkRuns_unarmed (h : Unarmed s) (t acc point : Nat) (on : Bool) (n fails : Nat) (els : List (List Elem)) :
    (s.checkRuns t acc point on n fails els).1 = els ∧ (s.checkRuns t acc point on n fails els).2.mem = s.mem := by
  unfold State.checkRuns
  split
  · exact ⟨rfl, rfl⟩
  · extract_lets checked
    have hchecked : Unarmed checked ∧ checked.mem = s.mem := by
      by_cases hf : fails = 0
      · simp [checked, hf, h]
      · have hfailed : TileOnly t s (s.checkFailed t) := tileOnly_checkFailed
        obtain ⟨harm, hmem⟩ := checkHard_calm (h.tileOnly hfailed) t acc fails
        simp only [checked, hf, if_false]
        exact ⟨harm, hmem.trans hfailed.frame.1⟩
    rw [injectMany_unarmed hchecked.1]
    exact ⟨rfl, hchecked.2⟩

theorem checkCover_unarmed (h : Unarmed s) (t acc : Nat) (first : Bool) (ws : List (Nat × List FVal)) (m : List Int)
    (runs : List Elem) :
    (s.checkCover t acc first ws m runs).1 = runs ∧ (s.checkCover t acc first ws m runs).2.mem = s.mem := by
  unfold State.checkCover
  dsimp only
  rw [(checkRuns_unarmed h ..).1, (checkRuns_unarmed h ..).2]
  exact ⟨rfl, rfl⟩

end Sys2Proof.Machine
end

section
/-! SUPPORT. A slice on an array (R137 to R157): a slice of zeros only counts, another counts one MVM and turns the converters on; what it
checks, and an injection that fires in it (R573), leave that and device memory.
-/

namespace Sys2Proof.Machine

variable {s u : State} {t a : Nat}

/-- What the later parts of a slice leave: device memory, ARR_STAT and the count of MVMs. -/
def State.slot (s : State) (t a : Nat) : Sparse Byte × W32 × W32 × W32 :=
  (s.mem, s.rd (F.ARR_STAT_CONV_ON t a).off, s.rd (F.ARR_CNT_MVM_LO_COUNT t a).off, s.rd (F.ARR_CNT_MVM_HI_COUNT t a).off)

/-- A register that a slot does not show. -/
def BesideSlot (t a o : Nat) : Prop :=
  o ≠ (F.ARR_STAT_CONV_ON t a).off ∧ o ≠ (F.ARR_CNT_MVM_LO_COUNT t a).off ∧ o ≠ (F.ARR_CNT_MVM_HI_COUNT t a).off

theorem slot_of_rd (hm : u.mem = s.mem) (hr : ∀ o, ¬ BesideSlot t a o → u.rd o = s.rd o) :
    u.slot t a = s.slot t a := by
  simp only [State.slot, hm]
  rw [hr _ (by simp [BesideSlot]), hr _ (by simp [BesideSlot]), hr _ (by simp [BesideSlot])]

theorem slot_setFld {f : Fld} (n : Nat) (h : BesideSlot t a f.off) : (s.setFld f n).slot t a = s.slot t a :=
  slot_of_rd rfl fun _ ho => rd_wr_other s _ (fun e => ho (e ▸ h))

theorem slot_setPair {lo hi : Fld} (n : Nat) (hlo : BesideSlot t a lo.off) (hhi : BesideSlot t a hi.off) :
    (s.setPair lo hi n).slot t a = s.slot t a := (slot_setFld _ hhi).trans (slot_setFld _ hlo)

theorem TileOnly.slot (h : TileOnly t s u) : u.slot t a = s.slot t a :=
  slot_of_rd h.frame.1 fun o ho => h.2 o (by simp only [BesideSlot, TileOff] at ho ⊢; omega)

theorem slot_event {f : Fld} (h : BesideSlot t a f.off) : (s.event f).slot t a = s.slot t a := slot_setFld _ h
theorem slot_bump {f : Fld} (n : Nat) (h : BesideSlot t a f.off) : (s.bump f n).slot t a = s.slot t a := slot_setFld _ h

@[simp] theorem slot_tally (code n : Nat) : (s.tally t code n).slot t a = s.slot t a := (tileOnly_tally ..).slot

@[simp] theorem slot_requestTest (kind mode array col steps : Nat) (host : Option Nat) :
    (s.requestTest t kind mode array col steps host).slot t a = s.slot t a := (tileOnly_requestTest ..).slot

@[simp] theorem slot_putArr (y : Arr) : (s.putArr t a y).slot t a = s.slot t a := (rfl)

@[simp] theorem slot_draw : s.draw.2.slot t a = s.slot t a := (rfl)

theorem slot_injSeen (n : Nat) : State.slot { s with injSeen := n } t a = s.slot t a := (rfl)

@[simp] theorem slot_inject (point unit sub col acc : Nat) : (s.inject point unit sub col acc).2.slot t a = s.slot t a := by
  unfold State.inject
  dsimp only
  split
  · split
    · simp only [slot_injSeen]
      simp (disch := (simp only [BesideSlot]; omega)) only [slot_bump, slot_setPair, slot_setFld, slot_event, State.setFlag]
    · rfl
  · rfl

/-! ### The checks of a slice (R149, R154 to R156, R310) -/

@[simp] theorem slot_refFault : (s.refFault t a).slot t a = s.slot t a := by
  unfold State.refFault
  extract_lets noted x faulted
  have hnoted : faulted.slot t a = s.slot t a := by
    simp (disch := (simp only [BesideSlot]; omega)) only [faulted, noted, slot_putArr, slot_tally, slot_bump, slot_event]
  split
  · split
    · exact (slot_requestTest ..).trans hnoted
    · exact hnoted
  · exact hnoted

@[simp] theorem slot_refCheck (acc : Nat) (ref0 ref1 : Int) : (s.refCheck t a acc ref0 ref1).slot t a = s.slot t a := by
  unfold State.refCheck
  extract_lets qcal qavg
  have hseen := slot_inject (s := s) (t := t) (a := a) 0x02 t a 0 acc
  split
  next hit seen hinj =>
  rw [hinj] at hseen
  split
  · extract_lets
    split
    · exact slot_refFault.trans hseen
    · exact hseen
  · split
    · exact slot_refFault.trans hseen
    · exact hseen

@[simp] theorem slot_chkMismatch (acc index : Nat) : (s.chkMismatch t a acc index).slot t a = s.slot t a := by
  unfold State.chkMismatch
  extract_lets named counted
  have hcounted : counted.slot t a = s.slot t a := by
    simp (disch := (simp only [BesideSlot]; omega)) only [counted, named, slot_tally, slot_bump, slot_event,
      apply_ite (State.slot · t a), slot_setFld, slot_setPair, ite_self]
  split
  · split
    · exact hcounted
    · exact (slot_requestTest ..).trans hcounted
  · exact (slot_requestTest ..).trans hcounted

@[simp] theorem slot_chkCompare (b acc index : Nat) (d codes : List Int) (lsbs : List Nat) (chk : Int) (tripped : Bool) :
    (s.chkCompare t a b acc index d codes lsbs chk tripped).slot t a = s.slot t a := by
  unfold State.chkCompare
  extract_lets off
  split
  · exact (slot_tally ..).trans (slot_bump _ (by simp [BesideSlot]))
  · have hseen := slot_inject (s := s) (t := t) (a := a) 0x01 t a 0 acc
    split
    next hit seen hinj =>
    rw [hinj] at hseen
    extract_lets
    split
    · exact (slot_chkMismatch ..).trans hseen
    · exact hseen

@[simp] theorem slot_noteClips (tripped : List Bool) : (s.noteClips t a tripped).slot t a = s.slot t a := by
  unfold State.noteClips
  dsimp only
  split
  · rfl
  · exact slot_putArr _

/-! ### A slice -/

/-- A slice of zeros is skipped and only counted (R141). -/
theorem slice_zeros {d : List Int} (h : d.all (· = 0) = true) (acc index : Nat) (lim : Nat → Option (Int × Int)) :
    s.slice t a acc index d lim =
      (List.replicate 512 (0, false), (s.bump (F.ARR_CNT_ZSKIP_COUNT t a) 1).tally t 0x11 1) := if_pos h

/-- Another slice counts one MVM on running converters (R143, R157), and the rest of it leaves that. -/
theorem slot_slice {d : List Int} (h : d.all (· = 0) = false) (acc index : Nat) (lim : Nat → Option (Int × Int)) :
    (s.slice t a acc index d lim).2.slot t a =
      ((s.convertersOn t a true).bumpPair (F.ARR_CNT_MVM_LO_COUNT t a) (F.ARR_CNT_MVM_HI_COUNT t a) 1).slot t a := by
  unfold State.slice
  rw [if_neg (by simp [h])]
  simp (disch := (simp only [BesideSlot]; omega)) [slot_setFld, slot_bump, slot_event, apply_ite (State.slot · t a)]

end Sys2Proof.Machine
end

section
/-! SUPPORT. What the commands of an array's edge find and leave: the counters of a slice (R157), the vector that a one-slice vector joins
the edge as (R129, R148), the clips attributed after it (R150, R310), and what a hold or a stall counts first (R216, R249).
-/

namespace Sys2Proof.Machine

variable {s u v : State} {t a : Nat} {r : List (Int × Bool) × State}

/-! ### Answers -/

theorem Became.units (h : Became s u v) : v.regs = u.regs ∧ v.mem = u.mem ∧ v.arrs = u.arrs := by
  obtain ⟨⟨-, hregs, -, -, -, -, -, hmem, -⟩, ⟨-, -, -, -, harrs, -⟩, -⟩ := h.frame
  exact ⟨hregs, hmem, harrs⟩

/-- A command whose every next state has a property. -/
theorem act_next {f : State → State} {P : State → Prop} (hon : s.power.on = true)
    (hP : ∀ t, Became s (f s) t → P t) : ∃ t, act s f = .next t ∧ P t := by
  obtain ⟨t, ht, hb⟩ := act_became f hon
  exact ⟨t, ht, hP t hb⟩

/-! ### Counter pairs (R676) -/

/-- A counter pair after n more events; it saturates. -/
theorem pair_bumpPair (lo hi : Fld) (n : Nat) (hlo : lo.lo = 0 ∧ lo.hi = 31) (hhi : hi.lo ≤ hi.hi ∧ hi.hi < 32)
    (hoff : lo.off ≠ hi.off) :
    (s.bumpPair lo hi n).pair lo hi = satAdd (32 + (hi.hi + 1 - hi.lo)) (s.pair lo hi) n := by
  obtain ⟨hlolo, hlohi⟩ := hlo
  have hle := satAdd_le (32 + (hi.hi + 1 - hi.lo)) (s.pair lo hi) n
  unfold State.bumpPair State.setPair
  generalize satAdd (32 + (hi.hi + 1 - hi.lo)) (s.pair lo hi) n = v at hle ⊢
  rw [State.pair, fld_setFld_same _ _ _ hhi.1 hhi.2, fld_setFld_other _ _ _ _ hhi.1 hhi.2 (.inl hoff),
    fld_setFld_same _ _ _ (by omega) (by omega), hlolo, hlohi]
  have hpow : 2 ^ (32 + (hi.hi + 1 - hi.lo)) = 2 ^ 32 * 2 ^ (hi.hi + 1 - hi.lo) := Nat.pow_add ..
  have hpos := Nat.two_pow_pos (hi.hi + 1 - hi.lo)
  have hhigh : v / 2 ^ 32 < 2 ^ (hi.hi + 1 - hi.lo) := Nat.div_lt_of_lt_mul (by omega)
  rw [Nat.mod_eq_of_lt hhigh]
  exact Nat.mod_add_div v (2 ^ 32)

theorem fld_bumpPair_other (f lo hi : Fld) (n : Nat) (hlo : lo.lo ≤ lo.hi ∧ lo.hi < 32) (hhi : hi.lo ≤ hi.hi ∧ hi.hi < 32)
    (h : f.off ≠ lo.off ∧ f.off ≠ hi.off) : (s.bumpPair lo hi n).fld f = s.fld f :=
  (fld_setFld_other _ f hi _ hhi.1 hhi.2 (.inl h.2)).trans (fld_setFld_other _ f lo _ hlo.1 hlo.2 (.inl h.1))

/-! ### Slices -/

/-- Converters that start up (R143) are on; device memory, and every register but ARR_STAT and the count of it, are as before. -/
theorem convertersOn_spec (mvm : Bool) :
    (s.convertersOn t a mvm).mem = s.mem ∧ (s.convertersOn t a mvm).fld (F.ARR_STAT_CONV_ON t a) = 1 ∧
      ∀ f : Fld, f.off ≠ (F.ARR_STAT_CONV_ON t a).off → f.off ≠ (F.ARR_CNT_START_COUNT t a).off →
        (s.convertersOn t a mvm).fld f = s.fld f := by
  unfold State.convertersOn
  split
  · next hon => exact ⟨rfl, (flag_iff s _).mp hon, fun _ _ _ => rfl⟩
  · have hstart : (s.setFlag (F.ARR_STAT_CONV_ON t a) true).fld (F.ARR_STAT_CONV_ON t a) = 1 :=
      fld_event_same s _ rfl (by simp)
    dsimp only
    split
    · obtain ⟨hmem, -⟩ := (tileOnly_tally (t := t) (s := (s.setFlag (F.ARR_STAT_CONV_ON t a) true).bump
        (F.ARR_CNT_START_COUNT t a) 1) 0x15 1).frame
      refine ⟨hmem, ?_, fun f hstat hcount => ?_⟩
      · rw [fld_congr (regs_tally ..), fld_bump_other _ _ _ _ (by simp) (by simp) (.inl (by simp))]
        exact hstart
      · rw [fld_congr (regs_tally ..), fld_bump_other _ _ _ _ (by simp) (by simp) (.inl hcount)]
        exact fld_setFld_other _ _ _ _ (by simp) (by simp) (.inl hstat)
    · exact ⟨rfl, hstart, fun f hstat _ => fld_setFld_other _ _ _ _ (by simp) (by simp) (.inl hstat)⟩

/-- A slice of zeros counts the skip, and leaves QAVG and device memory. -/
theorem slice_skips {d : List Int} (h : d.all (· = 0) = true) (acc index : Nat) (lim : Nat → Option (Int × Int))
    (hr : s.slice t a acc index d lim = r) :
    r.1 = List.replicate 512 (0, false) ∧ r.2.mem = s.mem ∧
      r.2.fld (F.ARR_CNT_ZSKIP_COUNT t a) = satAdd 32 (s.fld (F.ARR_CNT_ZSKIP_COUNT t a)) 1 ∧
      r.2.fld (F.ARR_QAVG_QAVG t a) = s.fld (F.ARR_QAVG_QAVG t a) := by
  rw [slice_zeros h] at hr
  subst hr
  refine ⟨rfl, (tileOnly_tally (t := t) ..).frame.1, ?_, ?_⟩
  · exact (fld_congr (regs_tally ..) _).trans (fld_bump_same _ _ _ (by simp) (by simp))
  · exact (fld_congr (regs_tally ..) _).trans (fld_bump_other _ _ _ _ (by simp) (by simp) (.inl (by simp)))

/-- A slice that is not of zeros counts one MVM, and the converters are on after it. -/
theorem slice_counts {d : List Int} (h : d.all (· = 0) = false) (acc index : Nat) (lim : Nat → Option (Int × Int))
    (hr : s.slice t a acc index d lim = r) :
    r.2.mem = s.mem ∧ r.2.fld (F.ARR_STAT_CONV_ON t a) = 1 ∧
      r.2.pair (F.ARR_CNT_MVM_LO_COUNT t a) (F.ARR_CNT_MVM_HI_COUNT t a) =
        satAdd 48 (s.pair (F.ARR_CNT_MVM_LO_COUNT t a) (F.ARR_CNT_MVM_HI_COUNT t a)) 1 := by
  obtain ⟨hmem, hon, hfld⟩ := convertersOn_spec (s := s) (t := t) (a := a) true
  have hslot := slot_slice (s := s) (t := t) (a := a) h acc index lim
  rw [hr] at hslot
  simp only [State.slot, Prod.mk.injEq] at hslot
  obtain ⟨hm, hstat, hlo, hhi⟩ := hslot
  refine ⟨hm.trans hmem, ?_, ?_⟩
  · rw [State.fld, hstat]
    exact (fld_bumpPair_other (F.ARR_STAT_CONV_ON t a) (F.ARR_CNT_MVM_LO_COUNT t a) (F.ARR_CNT_MVM_HI_COUNT t a) 1
      (by simp) (by simp) (by simp)).trans hon
  · rw [State.pair, State.fld, State.fld, hlo, hhi]
    refine (pair_bumpPair (F.ARR_CNT_MVM_LO_COUNT t a) (F.ARR_CNT_MVM_HI_COUNT t a) 1 (by simp) (by simp) (by simp)).trans ?_
    rw [State.pair, hfld _ (by simp) (by simp), hfld _ (by simp) (by simp)]
    rfl

/-- A vector of one slice (R129) runs its slice and joins the edge whole, with QAVG as it was before (R148). -/
theorem arraySlice_one (acc index : Nat) (p : Policy) (e : Int) (d : List Int) :
    ∃ lim y, s.arraySlice t a acc index 0 p e d =
      (s.slice t a acc index d lim).2.putArr t a { (s.slice t a acc index d lim).2.arr t a with
        edge := (s.arr t a).edge ++
          [{ acc, index, n := (s.slice t a acc index d lim).1.map (·.1), qavg := s.fld (F.ARR_QAVG_QAVG t a), m := d, e, y,
             full := true }] } :=
  ⟨_, _, rfl⟩

/-- Clips attributed to their MVM's tensor, or kept with the array (R150, R310), leave registers, device memory and the array's
edge. -/
theorem edgeClips_frame (acc slice : Nat) (before : List Nat) :
    (s.edgeClips t a acc slice before).regs = s.regs ∧ (s.edgeClips t a acc slice before).mem = s.mem ∧
      ((s.edgeClips t a acc slice before).arr t a).edge = (s.arr t a).edge := by
  have hput (cs : List Nat) : ((s.putArr t a { s.arr t a with clipped := cs }).arr t a).edge = (s.arr t a).edge := by
    rw [arr_putArr]
  unfold State.edgeClips State.attributeClips
  dsimp only
  split
  · split
    · split
      · exact ⟨rfl, rfl, hput _⟩
      · exact ⟨rfl, rfl, hput _⟩
    · exact ⟨rfl, rfl, hput _⟩
  · exact ⟨rfl, rfl, hput _⟩

/-- ARRAY_MVM of a one-slice vector on an array in service: its slice runs, and the vector joins the edge (R129, R148). -/
theorem exec_arrayMvm_one (acc index : Nat) (np : Bool) (e : Int) (d : List Int) (hon : s.power.on = true)
    (hin : s.fld (F.ARR_STAT_INSVC t a) = 1) (hout : (s.arr t a).out = false) (hheld : s.windowHeld t a = false) :
    ∃ w, exec (.arrayMvm t a acc index 0 np e d) s = .next w ∧ ∃ lim y r,
      r = (s.putArr t a { s.arr t a with clipped := [] }).slice t a acc index d lim ∧
      w.regs = r.2.regs ∧ w.mem = r.2.mem ∧
      (w.arr t a).edge = (s.arr t a).edge ++
        [{ acc, index, n := r.1.map (·.1), qavg := s.fld (F.ARR_QAVG_QAVG t a), m := d, e, y, full := true }] := by
  change ∃ w, execArrayMvm t a acc index 0 np e d s = .next w ∧ _
  unfold execArrayMvm
  refine act_next hon fun w hb => ?_
  have hserves : (s.flag (F.ARR_STAT_INSVC t a) && !(s.arr t a).out && !s.windowHeld t a) = true := by
    simp [(flag_iff s _).mpr hin, hout, hheld]
  dsimp only at hb
  rw [if_pos hserves] at hb
  generalize hs : s.putArr t a { s.arr t a with clipped := [] } = u at hb
  obtain ⟨lim, y, hslice⟩ := arraySlice_one (s := u) (t := t) (a := a) acc index (policyOf np) e d
  obtain ⟨hregs, hmem, hedge⟩ := edgeClips_frame (s := u.arraySlice t a acc index 0 (policyOf np) e d) (t := t) (a := a) acc 0
    (s.arr t a).clipped
  obtain ⟨hbregs, hbmem, hbarrs⟩ := hb.units
  refine ⟨lim, y, _, rfl, ?_, ?_, ?_⟩
  · rw [hbregs, hregs, hslice]
    rfl
  · rw [hbmem, hmem, hslice]
    rfl
  · rw [arr_congr hbarrs, hedge, hslice, arr_putArr, ← hs, arr_putArr]
    rfl

/-! ### What a hold or a stall leaves (R213, R216, R249, R251) -/

/-- The columns that the DPA computes are a matter of the charter and the array. -/
theorem coveredCols_congr (hc : u.charter = s.charter) (ha : u.arrs = s.arrs) : u.coveredCols t a = s.coveredCols t a := by
  unfold State.coveredCols State.dfwd State.chart
  rw [hc, arr_congr ha]

/-- A correction is a matter of the array, of which of its banks is active and of whether its factors are valid. -/
theorem correct_congr (ha : u.arrs = s.arrs) (hact : u.fld (F.ARR_STAT_ACTIVE t a) = s.fld (F.ARR_STAT_ACTIVE t a))
    (hvalid : u.fld (F.ARR_RESSTAT_VALID t a) = s.fld (F.ARR_RESSTAT_VALID t a)) (p : Policy) (cols : List Nat) (y : List Elem)
    (m : List Int) (e : Int) : u.correct t a p cols y m e = s.correct t a p cols y m e := by
  unfold State.correct State.correcting State.active State.flag
  rw [hact, hvalid, arr_congr ha]

/-- A tile's counters and records say nothing of the digital copies (R160), nor of the active bank. -/
theorem TileOnly.coverWeights (h : TileOnly t s u) (p : Policy) (cols : List Nat) :
    u.coverWeights t a p cols = s.coverWeights t a p cols := by
  obtain ⟨hmem, -, hcharter⟩ := h.frame
  have hdev : u.devNum = s.devNum := by
    have hrd : u.rd R.FAB_DEVNUM = s.rd R.FAB_DEVNUM := h.2 _ (by simp only [TileOff, R.FAB_DEVNUM]; omega)
    unfold State.devNum State.flag State.fld
    rw [hrd]
  have hact : u.active t a = s.active t a := h.fld _ (by simp only [TileOff]; omega)
  have hchart : u.chart = s.chart := congrArg (·.getD {}) hcharter
  have hstage : u.stage = s.stage := by simp only [State.stage, State.myDev, hcharter, hdev]
  have hcopy (i j : Nat) : u.copyWeight (s.active t a) t a i j = s.copyWeight (s.active t a) t a i j := by
    simp only [State.copyWeight, State.placement, State.copyAddr, State.region, State.memBytes, hchart, hstage, hmem]
  simp only [State.coverWeights, hact, hcopy]

/-- What RESIDUAL_CORRECTION counts first (R216). -/
theorem stalled_spec (stalled : Bool)
    (hu : u = if stalled then (s.bump (F.ARR_CNT_CORRSTALL_COUNT t a) 1).tally t 0x18 1 else s) :
    u.mem = s.mem ∧ u.arrs = s.arrs ∧ u.charter = s.charter ∧
      u.fld (F.ARR_CNT_CORRSTALL_COUNT t a) = satAdd 32 (s.fld (F.ARR_CNT_CORRSTALL_COUNT t a)) (b2n stalled) ∧
      ∀ f : Fld, f.off ≠ (F.ARR_CNT_CORRSTALL_COUNT t a).off → u.fld f = s.fld f := by
  subst hu
  cases stalled with
  | false =>
    have hlt : s.fld (F.ARR_CNT_CORRSTALL_COUNT t a) < 2 ^ 32 := fld_lt ..
    exact ⟨rfl, rfl, rfl, (Nat.min_eq_left (Nat.le_sub_one_of_lt hlt)).symm, fun _ _ => rfl⟩
  | true =>
    obtain ⟨hmem, harrs, hcharter⟩ := (tileOnly_tally (t := t) (s := s.bump (F.ARR_CNT_CORRSTALL_COUNT t a) 1) 0x18 1).frame
    refine ⟨hmem, harrs, hcharter, ?_, fun f hf => ?_⟩
    · exact (fld_congr (regs_tally ..) _).trans (fld_bump_same _ _ _ (by simp) (by simp))
    · exact (fld_congr (regs_tally ..) _).trans (fld_bump_other _ _ _ _ (by simp) (by simp) (.inl hf))

/-! ### The commands on the vectors at an edge -/

/-- The outputs of a vector with its correction (R213), in FP32. -/
def State.corrected (s : State) (x a : Nat) (p : Policy) (v : EdgeVec) : List W32 :=
  ((s.correct x a p (s.coveredCols x a) (v.y.map (fun w => { val := ofFP32 w })) v.m v.e).run 0).1.map (fun r => fp32Bits r.val)

/-- RESIDUAL_CORRECTION works on the oldest vector that awaits it, and leaves it while its covered columns are missing (R254). -/
theorem exec_residualCorrection {s : State} {x a : Nat} {v : EdgeVec} (np stalled : Bool) (hon : s.power.on = true)
    (hfind : (s.arr x a).edge.find? (fun v => !v.done) = some v) :
    ∃ t, exec (.residualCorrection x a np stalled) s = .next t ∧ t.mem = s.mem ∧
      t.fld (F.ARR_CNT_CORRSTALL_COUNT x a) = satAdd 32 (s.fld (F.ARR_CNT_CORRSTALL_COUNT x a)) (b2n stalled) ∧
      (t.arr x a).edge = (if v.full = true ∧ (v.covered = true ∨ s.coveredCols x a = []) then
        updFirst (fun v => !v.done) (fun w => { w with y := s.corrected x a (policyOf np) v, done := true }) (s.arr x a).edge
        else (s.arr x a).edge) := by
  change ∃ t, execResidualCorrection x a np stalled s = .next t ∧ _
  unfold execResidualCorrection
  refine act_next hon fun t hb => ?_
  dsimp only at hb
  generalize hu : (if stalled then (s.bump (F.ARR_CNT_CORRSTALL_COUNT x a) 1).tally x 0x18 1 else s) = u at hb
  obtain ⟨hmem, harrs, hcharter, hcount, hfld⟩ := stalled_spec stalled hu.symm
  simp only [arr_congr harrs, hfind, coveredCols_congr hcharter harrs,
    correct_congr harrs (hfld (F.ARR_STAT_ACTIVE x a) (by simp)) (hfld (F.ARR_RESSTAT_VALID x a) (by simp))] at hb
  have hready : (v.full && (v.covered || (s.coveredCols x a).isEmpty)) = true ↔
      v.full = true ∧ (v.covered = true ∨ s.coveredCols x a = []) := by simp
  by_cases h : v.full = true ∧ (v.covered = true ∨ s.coveredCols x a = [])
  · rw [if_pos (hready.mpr h)] at hb
    obtain ⟨-, hbmem, hbarrs⟩ := hb.units
    have hbeats : TileOnly x u (u.corrBeats x a v.m) := tileOnly_corrBeats ..
    refine ⟨hbmem.trans (hbeats.frame.1.trans hmem), ?_, ?_⟩
    · exact (hb.fld _).trans ((hbeats.fld _ (by simp only [TileOff]; omega)).trans hcount)
    · rw [if_pos h, arr_congr hbarrs, arr_putArr]
      rfl
  · rw [if_neg (mt hready.mp h)] at hb
    obtain ⟨-, hbmem, hbarrs⟩ := hb.units
    refine ⟨hbmem.trans hmem, (hb.fld _).trans hcount, ?_⟩
    rw [if_neg h, arr_congr hbarrs, arr_congr harrs]

/-- What COVER counts first (R249): the OPE's wait for a whole run of vectors. -/
theorem held_tileOnly (x : Nat) (held : Bool) : TileOnly x s (if held then
    ((s.bump (F.OPE_DPA_CNT_HOLD_COUNT x) 1).event (F.OPE_EVT_PACE x)).tally x 0x18 1 else s) :=
  .ite (((tileOnly_bump _ (by simp [TileOff])).trans (tileOnly_event (by simp [TileOff]))).trans (tileOnly_tally ..)) (.refl s)

/-- COVER works on the oldest vector that awaits it. -/
theorem exec_cover {s : State} {x a : Nat} {v : EdgeVec} (np held : Bool) (hon : s.power.on = true) (harm : Unarmed s)
    (hfind : (s.arr x a).edge.find? (fun v => v.full && !v.covered && !v.done) = some v) (hcols : s.coveredCols x a ≠ []) :
    ∃ t, exec (.cover x a np held) s = .next t ∧ t.mem = s.mem ∧
      (t.arr x a).edge = updFirst (fun v => v.full && !v.covered && !v.done)
        (fun w => { w with y := s.coverOutputs (policyOf np) x a v, covered := true }) (s.arr x a).edge := by
  change ∃ t, execCover x a np held s = .next t ∧ _
  unfold execCover
  refine act_next hon fun t hb => ?_
  dsimp only at hb
  have hheld := held_tileOnly (s := s) x held
  generalize (if held then
    ((s.bump (F.OPE_DPA_CNT_HOLD_COUNT x) 1).event (F.OPE_EVT_PACE x)).tally x 0x18 1 else s) = u at hb hheld
  obtain ⟨hmem, harrs, hcharter⟩ := hheld.frame
  simp only [arr_congr harrs, hfind, coveredCols_congr hcharter harrs, hheld.coverWeights,
    List.isEmpty_iff, if_neg hcols, (checkCover_unarmed (harm.tileOnly hheld) ..).1] at hb
  unfold State.coverOutputs Cnt.value
  generalize StateT.run (s.coverWeights x a (policyOf np) (s.coveredCols x a)) 0 = ws at hb ⊢
  obtain ⟨ws, _⟩ := ws
  dsimp only at hb ⊢
  generalize StateT.run (coverRuns (policyOf np) ws v.m) 0 = runs at hb ⊢
  obtain ⟨runs, _⟩ := runs
  dsimp only at hb
  have hchecked := (checkCover_unarmed (harm.tileOnly hheld) x v.acc ((s.arr x a).coverRun == 0) ws v.m runs).2
  generalize (u.checkCover x v.acc ((s.arr x a).coverRun == 0) ws v.m runs).2 = c at hb hchecked
  have hcounts (y : Arr) := ((tileOnly_bump (s := c.putArr x a y) (t := x) (f := F.OPE_DPA_CNT_COVER_COUNT x) 1
    (by simp [TileOff])).trans (tileOnly_tally 0x0A 1)).trans
      (tileOnly_dpaCounts 1 512 (s.coveredCols x a).length (b2n ((s.arr x a).coverRun == 0)))
  obtain ⟨-, hbmem, hbarrs⟩ := hb.units
  refine ⟨hbmem.trans ((hcounts _).frame.1.trans (hchecked.trans hmem)), ?_⟩
  rw [arr_congr hbarrs, arr_congr (hcounts _).frame.2.1, arr_putArr]

/-- CONVERTER_POWER_DOWN turns the converters off where PDEN lets it (R142). -/
theorem exec_converterPowerDown (s : State) (x a : Nat) (hon : s.power.on = true) :
    ∃ t, exec (.converterPowerDown x a) s = .next t ∧
      Changes s t (if s.fld (F.ARR_CTRL_PDEN x a) = 1 then [(F.ARR_STAT_CONV_ON x a, 0)] else []) := by
  by_cases hpden : s.fld (F.ARR_CTRL_PDEN x a) = 1
  · rw [if_pos hpden]
    refine act_changes hon ?_ (by simp [Apart])
    rw [if_pos ((flag_iff s _).mpr hpden)]
    rfl
  · rw [if_neg hpden]
    refine act_changes hon ?_ trivial
    rw [if_neg (mt (flag_iff s _).mp hpden)]
    rfl

end Sys2Proof.Machine
end

section
/-! Slices on an array, its edge, the cover and the correction (R141, R142, R157, R213, R251, R254) settled.
-/

open Sys2Proof Sys2Proof.Machine

/-- Settles O40: a one-slice vector joins the edge after its slice, whose later checks leave what the slice counts; the cover's
outputs are those of its columns because no computation of theirs depends on the saturations counted before it; and a checksum
comparison leaves its operands while no injection is armed. -/
theorem arrayVectors : Obligations.ArrayVectors := by
  refine ⟨fun s x a acc index np e d hon _ _ hin hout hheld => ?_, fun s x a np stalled v hon _ _ hfind => ?_,
    fun s x a np held v hon harm _ _ hfind hcols => ?_, fun s x a hon _ _ => exec_converterPowerDown s x a hon⟩
  · obtain ⟨t, ht, lim, y, r, hr, hregs, hmem, hedge⟩ := exec_arrayMvm_one acc index np e d hon hin hout hheld
    refine ⟨t, _, ht, hedge, rfl, rfl, rfl, rfl, rfl, rfl, rfl, rfl, fun hz => ?_, fun hnz => ?_, ?_⟩
    · obtain ⟨hcodes, -, hskip, hqavg⟩ := slice_skips hz acc index lim hr.symm
      refine ⟨?_, (fld_congr hregs _).trans hskip, (fld_congr hregs _).trans hqavg⟩
      simp only [hcodes, List.map_replicate]
    · obtain ⟨-, hconv, hpair⟩ := slice_counts hnz acc index lim hr.symm
      refine ⟨?_, (fld_congr hregs _).trans hconv⟩
      rw [State.pair, fld_congr hregs, fld_congr hregs]
      exact hpair
    · refine hmem.trans ?_
      cases hz : d.all (· = 0) with
      | true => exact (slice_skips hz acc index lim hr.symm).2.1
      | false => exact (slice_counts hz acc index lim hr.symm).1
  · obtain ⟨t, ht, hmem, hcount, hedge⟩ := exec_residualCorrection np stalled hon hfind
    exact ⟨t, _, ht, hmem, hcount, rfl, hedge⟩
  · obtain ⟨t, ht, hmem, hedge⟩ := exec_cover np held hon harm hfind hcols
    refine ⟨t, _, ht, hmem, hedge, fun j hj => ?_⟩
    have hout := coverOutputs_getD (policyOf np) s x a v hj
    unfold Cnt.value State.columnWeights at hout
    exact hout
end

section
/-! SUPPORT. A charter that places an array on tile 770, which no device has, outside what LOAD accepts (R399, R406), and a RESTORE (R487)
under it of a stream that passes its checks. The array leaves its budget as its copies are dropped (R226); the Steward record of
that is offered to the tile's folio (R630), and where FOL_TOCC of a tile 770 would stand, HAL_CQTAIL of halyard 0 stands.
-/

namespace Sys2Proof.Machine.StrayPlacement

/-- The tile that is none. -/
def tile : Nat := 770

/-- A record of a checkpoint's stream (R484): its kind, its place in the stream and its data, with its CRC. -/
def record (kind seq : Nat) (data : List Byte) : List Byte :=
  let header := leBytes 2 kind ++ zeros 14 ++ leBytes 4 data.length ++ leBytes 4 seq ++ zeros 4
  header ++ leBytes 4 (crc32c (header ++ data)).toNat ++ data

/-- The stream of a checkpoint of step 0 by an unnumbered device under a charter of identity 0: HEAD and END. -/
def stream : List Byte := record 1 0 (zeros 16 ++ leBytes 2 0xFFFF ++ zeros 6) ++ record 0xFF 1 (leBytes 4 2)

/-- The RESTORE, the first command of halyard 0, of the one buffer that the list at 64 in host memory names. -/
def restore : Instr := .restore 0 64 1

/-- The 64 bytes of the command (R472). -/
def bytes : List Byte := zeros 12 ++ leBytes 1 7 ++ zeros 3 ++ leBytes 8 64 ++ leBytes 4 1 ++ zeros 36

/-- A powered package with the charter, the stream at 128 in host memory and the command fetched, whose stray array is in its
budget, and whose folios take Steward records. -/
def stray : State :=
  let s : State := { State.reset with
    power := { on := true, qualified := true, rails := 0xFF, vio18 := true }
    hal := { linkUp := true, halyards := [(0, { fetched := [{ acc := 0, bytes }], pos := 1 })] }
    charter := some { arrays := [{ tile }] } }
  let s := (s.putHost 64 (leBytes 8 128 ++ leBytes 4 0 ++ leBytes 4 (2 ^ 31 + stream.length))).putHost 128 stream
  (s.setFld F.FOL_TYPES_STEWARD 1).setFld (F.ARR_BSTAT_INBUD tile 0) 1

/-- The register that the stray tile's folio counts in. -/
theorem tocc_is_cqtail : (F.FOL_TOCC_BYTES tile).off = (F.HAL_CQTAIL_COUNT 0).off := by decide

/-- The command may run, and its completion can be written. -/
theorem stray_hostReady : stray.hostReady restore 0 :=
  ⟨⟨7, [(16, 8, 64), (24, 4, 1)], rfl, by decide +kernel⟩, by unfold State.canComplete; decide +kernel⟩

/-- The stream passes its checks under the charter, no job runs, and no injection is armed. -/
theorem stray_stream : stray.charter.isSome = true ∧ stray.streamOk (stray.streamRecords 64 1 0) = true ∧
    stray.job.running = false ∧ stray.flag F.INJ_CTRL_ARM = false := by decide +kernel

/-- The ring's tail, 0 before the command, is 7 after it: the folio's record of 48 bytes has set it to 6, and the completion stands in
that entry. -/
theorem stray_tail : stray.fld (F.HAL_CQTAIL_COUNT (accSource 0)) = 0 ∧
    ∃ t, exec restore stray = .next t ∧ t.fld (F.HAL_CQTAIL_COUNT (accSource 0)) = 7 :=
  ⟨by decide +kernel, _, rfl, by decide +kernel⟩

end Sys2Proof.Machine.StrayPlacement
end

section
/-! The commands that work on the job and the arrays (R404 to R408, R472, R482, R487, R567) settled.
-/

open Sys2Proof Sys2Proof.Machine

/-- Refutes O34, in its clause on RESTORE, which asks nothing of where the charter places its arrays: under one that names a tile
that no device has, the command does not complete in its ring's next entry (StrayPlacement.stray). -/
theorem not_jobCommandsTakeEffect : ¬ Obligations.JobCommandsTakeEffect := by
  rintro ⟨-, -, -, -, -, -, hrestore, -⟩
  obtain ⟨hcharter, hstream, hidle, harm⟩ := StrayPlacement.stray_stream
  obtain ⟨hverified, -⟩ := hrestore StrayPlacement.stray 0 64 1 _ StrayPlacement.stray_hostReady harm hidle rfl
  obtain ⟨t, ht, ⟨-, htail, -⟩, -⟩ := hverified hcharter hstream
  obtain ⟨hbefore, u, hu, hafter⟩ := StrayPlacement.stray_tail
  cases hu.symm.trans ht
  rw [hbefore, hafter] at htail
  exact absurd htail (by decide)
end

section
/-! SUPPORT. Stores of several byte strings that lie apart: each reads back, and nothing else changes.
-/

namespace Sys2Proof.Machine

variable {α : Type} {d : Nat → α} {m : Sparse α} {j k n : Nat}

/-- A read of bytes on which two memories agree. -/
theorem readMany_congr {m' : Sparse α} (h : ∀ i, k ≤ i → i < k + n → lookup d m i = lookup d m' i) :
    readMany d m k n = readMany d m' k n := by
  induction n generalizing k with
  | zero => rfl
  | succ n ih =>
    simp only [readMany]
    rw [h k (by omega) (by omega), ih fun i hlo hhi => h i (by omega) (by omega)]

variable [DecidableEq α]

theorem lookup_writeMany_apart {vs : List α} (h : j < k ∨ k + vs.length ≤ j) :
    lookup d (writeMany d m k vs) j = lookup d m j := by
  rw [lookup_writeMany]
  split
  · rw [List.getElem?_eq_none (by omega), Option.getD_none]
  · rfl

/-- Byte strings, each with its address, stored one after the other. -/
def writeChunks (d : Nat → α) (m : Sparse α) (cs : List (Nat × List α)) : Sparse α :=
  cs.foldl (fun m c => writeMany d m c.1 c.2) m

theorem writeChunks_cons (c : Nat × List α) (cs : List (Nat × List α)) :
    writeChunks d m (c :: cs) = writeChunks d (writeMany d m c.1 c.2) cs := rfl

/-- Two byte strings at addresses share no byte. -/
def ChunksApart (c e : Nat × List α) : Prop := c.1 + c.2.length ≤ e.1 ∨ e.1 + e.2.length ≤ c.1

theorem lookup_writeChunks_apart {cs : List (Nat × List α)} (h : ∀ c ∈ cs, j < c.1 ∨ c.1 + c.2.length ≤ j) :
    lookup d (writeChunks d m cs) j = lookup d m j := by
  induction cs generalizing m with
  | nil => rfl
  | cons c cs ih =>
    obtain ⟨hc, hcs⟩ := List.forall_mem_cons.mp h
    exact (ih hcs).trans (lookup_writeMany_apart hc)

/-- Each of the byte strings reads back where they lie apart. -/
theorem readMany_writeChunks {cs : List (Nat × List α)} (hapart : cs.Pairwise ChunksApart) {c : Nat × List α} (hc : c ∈ cs) :
    readMany d (writeChunks d m cs) c.1 c.2.length = c.2 := by
  induction cs generalizing m with
  | nil => cases hc
  | cons e cs ih =>
    obtain ⟨he, hcs⟩ := List.pairwise_cons.mp hapart
    rw [writeChunks_cons]
    rcases List.mem_cons.mp hc with rfl | hc
    · refine Eq.trans (readMany_congr fun i hlo hhi => ?_) (readMany_writeMany d m c.1 c.2)
      refine lookup_writeChunks_apart fun e he' => ?_
      have := he e he'
      unfold ChunksApart at this
      omega
    · exact ih hcs hc

end Sys2Proof.Machine
end

section
/-! SUPPORT. What the engines fetch and spill (R166, R236, R252, R280 to R283, R704): the columns that a tile stages, and its statistics
groups in the spill region and back.
-/

namespace Sys2Proof.Machine

variable {s t u : State} {x : Nat}

/-! ### Answers -/

/-- A command whose effect is not on registers raises no event, so that it ends in the state that its effect gives. -/
theorem act_eq {f : State → State} (hon : s.power.on = true) (heffect : f s = u) (hregs : u.regs = s.regs)
    (hpending : u.pending = s.pending) (hsupply : u.supply = s.supply) : act s f = .next u := by
  obtain ⟨hpower, hsnc⟩ := supply_eq_iff.mp hsupply
  have hsame : u.withSupply s = u := by rw [State.withSupply, ← hpower, ← hsnc]
  rw [act_on _ _ hon, heffect, hsame, finish_same hregs.symm hpending]

/-- An effect on a tile and on device memory is all that the command leaves, but for the event vectors sent. -/
theorem Became.only_tile {m : Sparse Byte} (h : Became s u t) (hu : TileOnly x { s with mem := m } u) :
    t = { s with mem := t.mem, regs := t.regs, tiles := t.tiles, msix := t.msix } := by
  obtain ⟨r, ts, rfl⟩ : ∃ r ts, u = { s with mem := m, regs := r, tiles := ts } := ⟨u.regs, u.tiles, hu.1⟩
  obtain ⟨n, rfl⟩ := h
  rfl

theorem Became.tile (h : Became s u t) (x : Nat) : t.tile x = u.tile x := by
  obtain ⟨-, ⟨-, -, -, -, -, htiles, -⟩, -⟩ := h.frame
  simp only [State.tile, htiles]

/-! ### Covered columns (R166, R252, R704) -/

/-- The columns that a tile covers, each with its array, in the order of their places in the cover region (R252). -/
def State.coverColumns (s : State) (x : Nat) : List (Nat × Nat) :=
  (List.range 8).flatMap (fun a => (s.arr x a).cover.map (fun j => (a, j)))

theorem length_coverColumns (s : State) (x : Nat) : (s.coverColumns x).length = s.covered x := by
  simp [State.coverColumns, State.covered, List.length_flatMap]

theorem mem_coverColumns {c : Nat × Nat} : c ∈ s.coverColumns x ↔ c.1 < 8 ∧ c.2 ∈ (s.arr x c.1).cover := by
  obtain ⟨a, j⟩ := c
  simp [State.coverColumns]

/-- Every covered column's copy has been written where every copy of an array with covered columns has. -/
theorem coverColumns_copied : (s.coverColumns x).all (fun c => ((s.arr x c.1).bank (s.active x c.1)).copied) = true ↔
    ∀ a < 8, (s.arr x a).cover ≠ [] → ((s.arr x a).bank (s.active x a)).copied = true := by
  simp only [List.all_eq_true, mem_coverColumns]
  constructor
  · intro h a ha hcover
    obtain ⟨j, hj⟩ := List.exists_mem_of_ne_nil _ hcover
    exact h (a, j) ⟨ha, hj⟩
  · intro h c hc
    exact h c.1 hc.1 (List.ne_nil_of_mem hc.2)

/-- A column's place in the cover region of a tile's store, with its copy's bytes: the n-th of 1 KiB each (R252). -/
def State.stagedColumn (s : State) (x : Nat) (r : Region) (c : (Nat × Nat) × Nat) : Option (Nat × List Byte) :=
  (s.copyAddr (s.active x c.1.1) x c.1.1).map fun base =>
    (tstoreBytes * x + (r.base + 1024 * c.2), s.memBytes (base + 1024 * c.1.2) 1024)

theorem stagedColumn_eq_some {r : Region} {c : (Nat × Nat) × Nat} {b : Nat × List Byte} :
    s.stagedColumn x r c = some b → b.1 = tstoreBytes * x + (r.base + 1024 * c.2) ∧ b.2.length = 1024 := by
  intro h
  obtain ⟨base, -, rfl⟩ := Option.map_eq_some_iff.mp h
  exact ⟨rfl, readMany_length ..⟩

/-- What is staged does not depend on what the tile stores hold. -/
theorem stagedColumn_tstore (m : Sparse Byte) (r : Region) :
    State.stagedColumn { s with tstore := m } x r = s.stagedColumn x r := rfl

/-- The staging of columns one after the other is the store of their copies at their places. -/
theorem foldl_stage {r : Region} {stage : State → (Nat × Nat) × Nat → State}
    (hstage : ∀ s c, stage s c = (s.stagedColumn x r c).elim s (fun b => { s with tstore := writeMany memReset s.tstore b.1 b.2 }))
    (cs : List ((Nat × Nat) × Nat)) (s : State) :
    cs.foldl stage s = { s with tstore := writeChunks memReset s.tstore (cs.filterMap (s.stagedColumn x r)) } := by
  induction cs generalizing s with
  | nil => rfl
  | cons c cs ih =>
    rw [List.foldl_cons, ih, hstage]
    cases hc : s.stagedColumn x r c with
    | none => simp only [Option.elim_none, List.filterMap_cons_none hc]
    | some b =>
      simp only [Option.elim_some, stagedColumn_tstore, List.filterMap_cons_some hc, writeChunks_cons]

/-- The places of staged columns lie apart. -/
theorem stagedColumns_apart (s : State) (x : Nat) (r : Region) (cols : List (Nat × Nat)) :
    (cols.zipIdx.filterMap (s.stagedColumn x r)).Pairwise ChunksApart := by
  have hrising : cols.zipIdx.Pairwise (fun c e => c.2 < e.2) := by
    rw [← List.pairwise_map (f := Prod.snd) (R := (· < ·)), List.zipIdx_map_snd]
    exact List.pairwise_lt_range'
  refine List.pairwise_filterMap.mpr (hrising.imp fun hlt b hb e he => ?_)
  obtain ⟨hbat, hblen⟩ := stagedColumn_eq_some hb
  obtain ⟨heat, helen⟩ := stagedColumn_eq_some he
  unfold ChunksApart
  omega

/-- COVER_STAGING waits for a copy that has not been written (R166). -/
theorem exec_coverStaging_waits {r : Region} (hon : s.power.on = true) (hregion : s.region 0x21 x = some r)
    (hwait : ∃ a < 8, (s.arr x a).cover ≠ [] ∧ ((s.arr x a).bank (s.active x a)).copied = false) :
    exec (.coverStaging x) s = .next s := by
  have hcopied : (s.coverColumns x).all (fun c => ((s.arr x c.1).bank (s.active x c.1)).copied) = false := by
    rw [← Bool.not_eq_true, coverColumns_copied]
    obtain ⟨a, ha, hcover, hbank⟩ := hwait
    exact fun h => by simp [h a ha hcover] at hbank
  unfold State.coverColumns at hcopied
  change execCoverStaging x s = _
  unfold execCoverStaging
  rw [act_on _ _ hon]
  simp only [hregion, hcopied, Bool.not_false, if_true]
  exact finish_same rfl rfl

/-- COVER_STAGING with every copy written: the columns stand at their places, in whole panels of 64 (R252). -/
theorem exec_coverStaging {r : Region} (hon : s.power.on = true) (hregion : s.region 0x21 x = some r)
    (hcopied : ∀ a < 8, (s.arr x a).cover ≠ [] → ((s.arr x a).bank (s.active x a)).copied = true) :
    exec (.coverStaging x) s = .next (State.putTileRec
      { s with tstore := writeChunks memReset s.tstore ((s.coverColumns x).zipIdx.filterMap (s.stagedColumn x r)) } x
      { s.tile x with staged := ceilDiv (s.covered x) 64 }) := by
  have hall := coverColumns_copied.mpr hcopied
  rw [← length_coverColumns]
  unfold State.coverColumns at hall ⊢
  change execCoverStaging x s = _
  unfold execCoverStaging
  refine act_eq hon ?_ rfl rfl rfl
  simp only [hregion, hall, Bool.not_true, Bool.false_eq_true, if_false]
  rw [foldl_stage (x := x) (r := r)]
  · rfl
  · intro u c
    simp only [State.stagedColumn]
    cases u.copyAddr (u.active x c.1.1) x c.1.1 with
    | none => simp only [Option.map_none, Option.elim_none]
    | some base => simp only [Option.map_some, Option.elim_some, State.putTile]

/-- Bytes put into the store of a tile, and the count of what it has staged. -/
theorem act_putTile {f : State → State} {off : Nat} {bs : List Byte} (hon : s.power.on = true)
    (heffect : f s = (s.putTile x off bs).putTileRec x
      { (s.putTile x off bs).tile x with staged := ((s.putTile x off bs).tile x).staged + 1 }) :
    act s f = .next ((s.putTile x off bs).putTileRec x { s.tile x with staged := (s.tile x).staged + 1 }) :=
  act_eq hon heffect rfl rfl rfl

/-- PANEL_FETCH in digital forward mode (R704): the panel stands in the eighth of the cover region whose turn it is. -/
theorem exec_panelFetch {a base : Nat} {r : Region} (panel : Nat) (hon : s.power.on = true) (hdfwd : s.dfwd = true)
    (hregion : s.region 0x21 x = some r) (hcopy : s.copyAddr (s.active x a) x a = some base) :
    exec (.panelFetch x a panel) s = .next ((s.putTile x (r.base + 65536 * ((s.tile x).staged % 8))
      (s.memBytes (base + 65536 * panel) 65536)).putTileRec x { s.tile x with staged := (s.tile x).staged + 1 }) := by
  change execPanelFetch x a panel s = _
  unfold execPanelFetch
  refine act_putTile hon ?_
  rw [hregion, hcopy]
  dsimp only
  rw [if_pos hdfwd]

/-- STATIONARY_OPERAND_FETCH (R236): the tile knows the operand, and its wait has been counted. -/
theorem exec_stationaryOperandFetch (s : State) (x tensor waited : Nat) (hon : s.power.on = true) :
    ∃ t, exec (.stationaryOperandFetch x tensor waited) s = .next t ∧ (t.tile x).fetched = some tensor ∧
      t.fld (F.OPE_CNT_LSTALL_COUNT x) = satAdd 32 (s.fld (F.OPE_CNT_LSTALL_COUNT x)) waited ∧
      t = { s with regs := t.regs, tiles := t.tiles, msix := t.msix } := by
  change ∃ t, execStationaryOperandFetch x tensor waited s = .next t ∧ _
  unfold execStationaryOperandFetch
  refine act_next hon fun t hb => ?_
  dsimp only at hb
  generalize hv : (s.bump (F.OPE_CNT_LSTALL_COUNT x) waited).tally x 0x03 waited = v at hb
  have htile : TileOnly x s (v.putTileRec x { v.tile x with fetched := some tensor }) := hv ▸
    ((tileOnly_bump _ (by simp [TileOff])).trans (tileOnly_tally ..)).trans (tileOnly_putTileRec _)
  refine ⟨?_, ?_, hb.only_tile htile |>.trans ?_⟩
  · rw [hb.tile, tile_putTileRec]
  · refine (hb.fld _).trans ((fld_congr (by subst hv; exact regs_tally ..) _).trans (fld_bump_same s _ waited ?_ ?_)) <;> simp
  · obtain ⟨hmem, -⟩ := htile.frame
    rw [hb.units.2.1.trans hmem]

/-! ### Statistics groups (R280, R282, R283) -/

theorem tileOnly_rseRegs : TileOnly x s (s.rseRegs x) :=
  ((tileOnly_setFld _ (by simp [TileOff])).trans (tileOnly_setFld _ (by simp [TileOff]))).trans
    (tileOnly_setFld _ (by simp [TileOff]))

theorem tileOnly_putGroups (gs : List StatGroup) : TileOnly x s (s.putGroups x gs) :=
  (tileOnly_putTileRec _).trans tileOnly_rseRegs

/-- The registers of the groups' records stand beside every other field. -/
theorem fld_rseRegs_other {f : Fld} (h : f.off ≠ (F.TIL_RSE_REC_RESIDENT x).off ∧ f.off ≠ (F.TIL_RSE_SPILLED_COUNT x).off ∧
    f.off ≠ (F.TIL_RSE_PEAK_COUNT x).off) : (s.rseRegs x).fld f = s.fld f := by
  obtain ⟨hres, hspilled, hpeak⟩ := h
  unfold State.rseRegs
  dsimp only
  rw [fld_setFld_other _ _ _ _ (by simp) (by simp) (.inl hpeak), fld_setFld_other _ _ _ _ (by simp) (by simp) (.inl hspilled),
    fld_setFld_other _ _ _ _ (by simp) (by simp) (.inl hres)]

@[simp] theorem tile_rseRegs : (s.rseRegs x).tile x = s.tile x := by simp [State.rseRegs, State.tile]

theorem tile_putGroups (gs : List StatGroup) : (s.putGroups x gs).tile x = { s.tile x with groups := gs } :=
  tile_rseRegs.trans (tile_putTileRec ..)

@[simp] theorem tile_bump (f : Fld) (n : Nat) : (s.bump f n).tile x = s.tile x := rfl

/-- A spill's or a reload's groups, with its count in a counter of the tile that is no register of the groups' records. -/
theorem countedGroups_spec {f : Fld} (gs : List StatGroup) (hf : f.lo = 0 ∧ f.hi = 31) (hoff : TileOff x f.off)
    (hbeside : f.off ≠ (F.TIL_RSE_REC_RESIDENT x).off ∧ f.off ≠ (F.TIL_RSE_SPILLED_COUNT x).off ∧
      f.off ≠ (F.TIL_RSE_PEAK_COUNT x).off) :
    TileOnly x s ((s.putGroups x gs).bump f 1) ∧ ((s.putGroups x gs).bump f 1).tile x = { s.tile x with groups := gs } ∧
      ((s.putGroups x gs).bump f 1).fld f = satAdd 32 (s.fld f) 1 := by
  obtain ⟨hlo, hhi⟩ := hf
  refine ⟨(tileOnly_putGroups gs).trans (tileOnly_bump _ hoff), (tile_bump ..).trans (tile_putGroups gs), ?_⟩
  rw [fld_bump_same _ _ _ (by omega) (by omega), hlo, hhi, State.putGroups, fld_rseRegs_other hbeside]
  rfl

/-- A group's records with the places of its slots in the spill region. -/
def spilledChunks (r : Region) (slots : List Nat) (recs : List (W32 × W32)) : List (Nat × List Byte) :=
  (List.zip slots recs).map fun q => (r.addr + 8 * q.1, recBytes q.2)

theorem recBytes_length (q : W32 × W32) : (recBytes q).length = 8 := by simp [recBytes]

theorem forEach_putMem_recs (r : Region) (qs : List (Nat × W32 × W32)) (s : State) :
    forEach qs s (fun s q => s.putMem (r.addr + 8 * q.1) (recBytes q.2)) =
      { s with mem := writeChunks memReset s.mem (qs.map fun q => (r.addr + 8 * q.1, recBytes q.2)) } := by
  induction qs generalizing s with
  | nil => rfl
  | cons q qs ih => exact ih _

/-- Free slots are slots of the region, and each is taken once. -/
theorem freeSlots_spec (s : State) (x n : Nat) : (s.freeSlots x n).Nodup ∧ ∀ k ∈ s.freeSlots x n, k < s.spillRoom x := by
  unfold State.freeSlots
  refine ⟨((List.nodup_range.filter _).sublist (List.take_sublist ..)), fun k hk => ?_⟩
  exact List.mem_range.mp (List.mem_filter.mp (List.mem_of_mem_take hk)).1

theorem spilledChunks_apart {r : Region} {slots : List Nat} (hslots : slots.Nodup) (recs : List (W32 × W32)) :
    (spilledChunks r slots recs).Pairwise ChunksApart := by
  have hfirst : ((List.zip slots recs).map Prod.fst).Nodup := by
    rw [List.zip_eq_zip_take_min, List.map_fst_zip (by simp)]
    exact hslots.sublist (List.take_sublist ..)
  refine List.pairwise_map.mpr ((List.pairwise_map.mp hfirst).imp fun hne => ?_)
  simp only [ChunksApart, recBytes_length]
  omega

/-- Slots of the spill region lie in it, 8 bytes each (R280). -/
theorem slot_inside {r : Region} (hregion : s.region 8 x = some r) {k : Nat} (hk : k < s.spillRoom x) :
    8 * k + 8 ≤ r.length := by
  simp only [State.spillRoom, hregion, Option.map_some, Option.getD_some] at hk
  omega

/-- The groups of a tile after the spill of one. -/
def spilledGroups (gs : List StatGroup) (g : StatGroup) (slots : List Nat) : List StatGroup :=
  gs.map fun h => if h.acc == g.acc then { h with spilled := true, recs := [], slots } else h

theorem spillOldest_eq {g : StatGroup} {r : Region} (hregion : s.region 8 x = some r)
    (holdest : (s.tile x).groups.find? (fun g => !g.spilled) = some g)
    (hroom : (s.tile x).records true + g.count ≤ s.spillRoom x) :
    s.spillOldest x none = some ((State.putGroups
      { s with mem := writeChunks memReset s.mem (spilledChunks r (s.freeSlots x g.count) g.recs) } x
      (spilledGroups (s.tile x).groups g (s.freeSlots x g.count))).bump (F.TIL_RSE_CNT_SPILL_COUNT x) 1) := by
  have hfind : (s.tile x).groups.find? (fun g => !g.spilled && some g.acc != none) = some g := by
    rw [← holdest]
    congr 1
    funext h
    simp
  unfold State.spillOldest State.spillGroup
  simp only [hfind, hroom, if_true, hregion, forEach_putMem_recs]
  rfl

/-- GROUP_SPILL with room for the oldest resident group (R280, R282). -/
theorem exec_groupSpill {g : StatGroup} {r : Region} (hon : s.power.on = true) (hregion : s.region 8 x = some r)
    (holdest : (s.tile x).groups.find? (fun g => !g.spilled) = some g)
    (hroom : (s.tile x).records true + g.count ≤ s.spillRoom x) :
    ∃ t, exec (.groupSpill x) s = .next t ∧ (t.tile x).groups = spilledGroups (s.tile x).groups g (s.freeSlots x g.count) ∧
      t.mem = writeChunks memReset s.mem (spilledChunks r (s.freeSlots x g.count) g.recs) ∧
      t.fld (F.TIL_RSE_CNT_SPILL_COUNT x) = satAdd 32 (s.fld (F.TIL_RSE_CNT_SPILL_COUNT x)) 1 ∧
      t = { s with mem := t.mem, regs := t.regs, tiles := t.tiles, msix := t.msix } := by
  change ∃ t, execGroupSpill x s = .next t ∧ _
  unfold execGroupSpill
  refine act_next hon fun t hb => ?_
  rw [spillOldest_eq hregion holdest hroom, Option.getD_some] at hb
  obtain ⟨htile, hrec, hcount⟩ := countedGroups_spec (x := x) (f := F.TIL_RSE_CNT_SPILL_COUNT x)
    (s := { s with mem := writeChunks memReset s.mem (spilledChunks r (s.freeSlots x g.count) g.recs) })
    (spilledGroups (s.tile x).groups g (s.freeSlots x g.count)) (by simp) (by simp [TileOff]) (by simp)
  refine ⟨?_, ?_, (hb.fld _).trans hcount, hb.only_tile htile⟩
  · rw [hb.tile, hrec]
  · rw [hb.units.2.1]
    exact htile.frame.1

/-- The groups of a tile after the reload of one. -/
def reloadedGroups (gs : List StatGroup) (acc : Nat) (recs : List (W32 × W32)) : List StatGroup :=
  gs.map fun h => if h.acc == acc then { h with spilled := false, recs, slots := [] } else h

theorem reload_eq {acc : Nat} {g : StatGroup}
    (hgroup : (s.tile x).groups.find? (fun g => g.acc == acc && g.spilled) = some g)
    (hroom : (s.tile x).records false + g.count ≤ 28672) :
    s.reload x acc = (s.putGroups x (reloadedGroups (s.tile x).groups acc (s.spilledRecs x g))).bump
      (F.TIL_RSE_CNT_RELOAD_COUNT x) 1 := by
  have hfits : s.roomFor x g.count (some acc) = some s := by
    unfold State.roomFor State.makeRoom
    exact if_pos hroom
  unfold State.reload
  simp only [hgroup, hfits]
  rfl

/-- A tile that holds no command back has none to try again. -/
theorem rerun_of_none (h : (s.tile x).seqWait = []) : s.rerun x = s.putTileRec x { s.tile x with seqWait := [] } := by
  unfold State.rerun
  rw [h]
  rfl

/-- GROUP_RELOAD of a spilled group with room for it in the record area, on a tile that holds no command back (R283). -/
theorem exec_groupReload {acc : Nat} {g : StatGroup} (hon : s.power.on = true) (hwait : (s.tile x).seqWait = [])
    (hgroup : (s.tile x).groups.find? (fun g => g.acc == acc && g.spilled) = some g)
    (hroom : (s.tile x).records false + g.count ≤ 28672) :
    ∃ t, exec (.groupReload x acc) s = .next t ∧
      (t.tile x).groups = reloadedGroups (s.tile x).groups acc (s.spilledRecs x g) ∧
      t.fld (F.TIL_RSE_CNT_RELOAD_COUNT x) = satAdd 32 (s.fld (F.TIL_RSE_CNT_RELOAD_COUNT x)) 1 ∧
      t = { s with regs := t.regs, tiles := t.tiles, msix := t.msix } := by
  change ∃ t, execGroupReload x acc s = .next t ∧ _
  unfold execGroupReload
  refine act_next hon fun t hb => ?_
  obtain ⟨htile, hrec, hcount⟩ := countedGroups_spec (s := s) (x := x) (f := F.TIL_RSE_CNT_RELOAD_COUNT x)
    (reloadedGroups (s.tile x).groups acc (s.spilledRecs x g)) (by simp) (by simp [TileOff]) (by simp)
  rw [reload_eq hgroup hroom, rerun_of_none (by rw [hrec]; exact hwait)] at hb
  generalize (s.putGroups x _).bump _ 1 = u at hb htile hrec hcount
  have hput := htile.trans (tileOnly_putTileRec { u.tile x with seqWait := [] })
  refine ⟨?_, (hb.fld _).trans hcount, (hb.only_tile hput).trans ?_⟩
  · rw [hb.tile, tile_putTileRec, hrec]
  · rw [hb.units.2.1.trans hput.frame.1]


/-! ### Reading back -/

/-- Bytes put into a tile's store, and the tile's record replaced, change nothing else. -/
theorem putTile_putTileRec_frame (off : Nat) (bs : List Byte) (y : Tile) : (s.putTile x off bs).putTileRec x y =
    { s with tstore := ((s.putTile x off bs).putTileRec x y).tstore, tiles := ((s.putTile x off bs).putTileRec x y).tiles } := rfl

/-- A staged column reads back at its place. -/
theorem placeBytes_staged {r : Region} {i a j base : Nat} (hcol : (s.coverColumns x)[i]? = some (a, j))
    (hcopy : s.copyAddr (s.active x a) x a = some base)
    (ht : t.tstore = writeChunks memReset s.tstore ((s.coverColumns x).zipIdx.filterMap (s.stagedColumn x r))) :
    t.placeBytes 15 x (r.base + 1024 * i) 1024 = s.memBytes (base + 1024 * j) 1024 := by
  have hstaged : (tstoreBytes * x + (r.base + 1024 * i), s.memBytes (base + 1024 * j) 1024) ∈
      (s.coverColumns x).zipIdx.filterMap (s.stagedColumn x r) :=
    List.mem_filterMap.mpr ⟨((a, j), i), List.mk_mem_zipIdx_iff_getElem?.mpr hcol, by rw [State.stagedColumn, hcopy]; rfl⟩
  have hread := readMany_writeChunks (d := memReset) (m := s.tstore) (stagedColumns_apart s x r _) hstaged
  rw [State.memBytes, readMany_length] at hread
  rw [State.placeBytes, if_pos rfl, ht]
  exact hread

/-- What the staging leaves alone: every byte before and behind the columns' places. -/
theorem lookup_staged_apart {r : Region} {z : Nat}
    (hz : z < tstoreBytes * x + r.base ∨ tstoreBytes * x + r.base + 1024 * s.covered x ≤ z) :
    lookup memReset (writeChunks memReset s.tstore ((s.coverColumns x).zipIdx.filterMap (s.stagedColumn x r))) z =
      lookup memReset s.tstore z := by
  refine lookup_writeChunks_apart fun b hb => ?_
  obtain ⟨c, hc, hcb⟩ := List.mem_filterMap.mp hb
  obtain ⟨hat, hlen⟩ := stagedColumn_eq_some hcb
  have hplace : c.2 < s.covered x := by
    rw [← length_coverColumns]
    exact (List.getElem?_eq_some_iff.mp (List.mk_mem_zipIdx_iff_getElem?.mp hc)).1
  omega

/-- A spilled record reads back in its slot. -/
theorem memBytes_spilled {r : Region} {slots : List Nat} {recs : List (W32 × W32)} {i k : Nat} {q : W32 × W32}
    (hslots : slots.Nodup) (hslot : slots[i]? = some k) (hrec : recs[i]? = some q)
    (ht : t.mem = writeChunks memReset s.mem (spilledChunks r slots recs)) : t.memBytes (r.addr + 8 * k) 8 = recBytes q := by
  have hzip : (k, q) ∈ List.zip slots recs := List.mem_of_getElem? (List.getElem?_zip_eq_some.mpr ⟨hslot, hrec⟩)
  have hread := readMany_writeChunks (d := memReset) (m := s.mem) (spilledChunks_apart (r := r) hslots recs)
    (List.mem_map_of_mem hzip)
  rw [recBytes_length] at hread
  rw [State.memBytes, ht]
  exact hread

/-- What the spill leaves alone: every byte outside the spill region. -/
theorem lookup_spilled_apart {r : Region} {n z : Nat} {recs : List (W32 × W32)} (hregion : s.region 8 x = some r)
    (hz : z < r.addr ∨ r.addr + r.length ≤ z) :
    lookup memReset (writeChunks memReset s.mem (spilledChunks r (s.freeSlots x n) recs)) z = lookup memReset s.mem z := by
  refine lookup_writeChunks_apart fun b hb => ?_
  obtain ⟨q, hq, rfl⟩ := List.mem_map.mp hb
  have hinside := slot_inside hregion ((freeSlots_spec s x n).2 q.1 (List.of_mem_zip hq).1)
  simp only [recBytes_length]
  omega

end Sys2Proof.Machine
end

section
open Sys2Proof Sys2Proof.Machine

/-- Settles O41, from the states that the five commands end in: a column reads back at its place because the places lie apart,
a record because each free slot is taken once. -/
theorem engineMemoryEvents : Obligations.EngineMemoryEvents := by
  unfold Obligations.EngineMemoryEvents
  refine ⟨fun s x r hon hx hregion => ⟨exec_coverStaging_waits hon hregion, fun hcopied => ?_⟩,
    fun s x a panel base r hon hx ha hdfwd hregion hcopy => ?_,
    fun s x tensor waited hon hx => exec_stationaryOperandFetch s x tensor waited hon,
    fun s x g r hon hx hregion holdest hroom => ?_,
    fun s x acc g hon hx hwait hgroup hroom => exec_groupReload hon hwait hgroup hroom⟩
  · refine ⟨_, exec_coverStaging hon hregion hcopied, ?_, fun k hk => tile_putTileRec_other _ _ hk,
      fun i a j base hcol hcopy => placeBytes_staged hcol hcopy rfl, fun z hz => lookup_staged_apart hz, rfl⟩
    rw [tile_putTileRec]
  · refine ⟨_, exec_panelFetch panel hon hdfwd hregion hcopy, ?_, ?_, putTile_putTileRec_frame ..⟩
    · generalize hbs : s.memBytes (base + 65536 * panel) 65536 = bs
      have hlen : bs.length = 65536 := hbs ▸ readMany_length ..
      exact hlen ▸ readMany_writeMany memReset s.tstore _ bs
    · rw [tile_putTileRec]
  · obtain ⟨t, ht, hgroups, hmem, hcount, hframe⟩ := exec_groupSpill hon hregion holdest hroom
    refine ⟨t, ht, hgroups, fun i k q hslot hrec => memBytes_spilled (freeSlots_spec s x _).1 hslot hrec hmem, fun z hz => ?_,
      hcount, hframe⟩
    rw [hmem]
    exact lookup_spilled_apart hregion hz

end

section
/-! SUPPORT. Registers below the tiles' (0x1000000): all that a message, an injection and a fault's record change (R430, R573, R579).
-/

namespace Sys2Proof.Machine

variable {s u v : State}

/-- From s to u no register of a tile or of an array changed. -/
structure TileRegsKept (s u : State) : Prop where
  rd : ∀ o, 0x1000000 ≤ o → u.rd o = s.rd o

theorem TileRegsKept.refl (s : State) : TileRegsKept s s := ⟨fun _ _ => rfl⟩

theorem TileRegsKept.of_regs (h : u.regs = s.regs) : TileRegsKept s u := ⟨fun o _ => rd_congr h o⟩

theorem TileRegsKept.trans (h : TileRegsKept s u) (h' : TileRegsKept u v) : TileRegsKept s v :=
  ⟨fun o ho => (h'.rd o ho).trans (h.rd o ho)⟩

theorem tileRegsKept_setFld {f : Fld} (n : Nat) (h : f.off < 0x1000000) : TileRegsKept s (s.setFld f n) :=
  ⟨fun _ ho => rd_wr_other s _ (by omega)⟩

theorem tileRegsKept_setPair {lo hi : Fld} (n : Nat) (hlo : lo.off < 0x1000000) (hhi : hi.off < 0x1000000) :
    TileRegsKept s (s.setPair lo hi n) := (tileRegsKept_setFld _ hlo).trans (tileRegsKept_setFld _ hhi)

theorem tileRegsKept_injSeen (n : Nat) : TileRegsKept s { s with injSeen := n } := .of_regs rfl

theorem tileRegsKept_inject (point unit sub col acc : Nat) : TileRegsKept s (s.inject point unit sub col acc).2 := by
  unfold State.inject
  dsimp only
  split
  · split
    · refine TileRegsKept.trans ?_ (tileRegsKept_injSeen 0)
      refine TileRegsKept.trans ?_ (tileRegsKept_setFld _ (by simp))
      refine TileRegsKept.trans ?_ (tileRegsKept_setPair _ (by simp) (by simp))
      refine TileRegsKept.trans ?_ (tileRegsKept_setFld _ (by simp))
      exact (tileRegsKept_setFld _ (by simp)).trans (tileRegsKept_setFld _ (by simp))
    · exact tileRegsKept_injSeen _
  · exact .refl s

theorem tileRegsKept_putPort (p : Nat) (x : Port) : TileRegsKept s (s.putPort p x) := .of_regs rfl

theorem tileRegsKept_transmit (p seq vc flags : Nat) (data : List Byte) (bad : Bool) :
    TileRegsKept s (s.transmit p seq vc flags data bad) := .of_regs rfl

theorem tileRegsKept_fillReplay (fuel p : Nat) : TileRegsKept s (s.fillReplay fuel p) := by
  induction fuel generalizing s with
  | zero => exact .refl s
  | succ n ih =>
    unfold State.fillReplay
    split
    · exact .refl s
    · next f x _ =>
      split
      · dsimp only
        exact ((tileRegsKept_putPort p _).trans (tileRegsKept_inject 0x0C p 0 0 0)).trans
          ((tileRegsKept_transmit p _ _ _ _ _).trans ih)
      · exact .refl s

theorem tileRegsKept_onPort {p : Nat} (hp : p < 32) (m : Msg) : TileRegsKept s (s.onPort p m) := by
  refine ((tileRegsKept_putPort p _).trans (tileRegsKept_setPair _ ?_ ?_)).trans (tileRegsKept_fillReplay _ p)
  all_goals
    simp only
    omega

/-- A message's route is one of the 32 ports (R417, R440). -/
theorem route_lt {m : Msg} {own : Bool} {p : Nat} (h : s.route m own = some p) : p < 32 := by
  unfold State.route at h
  dsimp only at h
  split at h
  · cases h
  · obtain ⟨-, husable⟩ := List.mem_filter.mp (List.mem_of_getElem? h)
    unfold State.portUsable at husable
    simp only [Bool.and_eq_true, decide_eq_true_eq] at husable
    exact husable.1.1

theorem tileRegsKept_emit (m : Msg) (own : Bool) : TileRegsKept s (s.emit m own) := by
  unfold State.emit State.deliver
  split
  · split <;> exact .of_regs rfl
  · split
    · next p hp => exact tileRegsKept_onPort (route_lt hp) m
    · exact .of_regs rfl

theorem tileRegsKept_sendFault (cls : Nat) (halt : Bool) : TileRegsKept s (s.sendFault cls halt) := by
  unfold State.sendFault State.toRoot State.sendCtrl State.sendOn
  split
  · refine TileRegsKept.trans ?_ (tileRegsKept_emit _ true)
    exact .of_regs rfl
  · exact .refl s

theorem tileRegsKept_recordFault (cls ukind unit acc : Nat) : TileRegsKept s (s.recordFault cls ukind unit acc) :=
  ⟨fun o ho => rd_recordFault_other s _ _ _ _ (by
    simp only [faultRecordOffs, R.RST_FLTCLS, R.RST_FLTACC_LO, R.RST_FLTACC_HI, R.RST_FLTSTEP_LO, R.RST_FLTSTEP_HI,
      List.mem_cons, List.not_mem_nil, or_false]
    omega)⟩

theorem tileRegsKept_raiseFault (cls ukind unit acc : Nat) (halt : Bool) :
    TileRegsKept s (s.raiseFault cls ukind unit acc halt) := by
  have hrec := tileRegsKept_recordFault (s := s) cls ukind unit acc
  unfold State.raiseFault
  generalize s.recordFault cls ukind unit acc = u at hrec ⊢
  dsimp only
  split
  · split
    · exact hrec.trans (.of_regs rfl)
    · refine (hrec.trans ?_).trans (tileRegsKept_sendFault cls halt)
      exact .of_regs rfl
  · exact hrec

/-- A fault leaves the arrays and the tiles, whether a job runs or not. -/
theorem units_raiseFault (cls ukind unit acc : Nat) (halt : Bool) :
    (s.raiseFault cls ukind unit acc halt).arrs = s.arrs ∧ (s.raiseFault cls ukind unit acc halt).tiles = s.tiles := by
  cases hrun : s.job.running with
  | false =>
    obtain ⟨r, hr⟩ := recordFault_only s cls ukind unit acc
    rw [raiseFault_idle s hrun, hr]
    exact ⟨rfl, rfl⟩
  | true =>
    have h := raiseFault_running s hrun cls ukind unit acc halt
    exact ⟨congrArg (·.2.2.2.2) h, congrArg (·.2.2.2.1) h⟩

end Sys2Proof.Machine
end

section
/-! SUPPORT. What lies around an array as an operation works on it (R176, R192, R195, R226, R583): the other arrays, device memory, the
state of every rewrite and every calibration owed are as before, and so are the array's own cells and the refreshes that it owes.
-/

namespace Sys2Proof.Machine

variable {s u v : State} {x a : Nat} {K : Fld → Prop}

/-! ### The relation -/

/-- What the operations on an array's columns, cover and budget leave of it: its cells, and the refresh in force with what its banks
still owe to it. -/
def Arr.lasting (y : Arr) : (Sparse ℚ × Sparse ℚ) × Bool × Bool × Bool :=
  ((y.bank0.cells, y.bank1.cells), y.refresh, y.bank0.oweRefresh, y.bank1.oweRefresh)

/-- Fields of every array: its converters are on (R142), a refresh is due (R192), its rewrite's state (R200). -/
def Shown (f : Fld) : Prop :=
  ∃ y c, c < 8 ∧ (f = F.ARR_STAT_CONV_ON y c ∨ f = F.ARR_BSTAT_RVDUE y c ∨ f = F.ARR_PRGSTAT_STATE y c)

/-- From s to u, of the fields of K, the arrays, the calibrations owed and device memory nothing changed but array a of tile x. -/
structure Around (K : Fld → Prop) (x a : Nat) (s u : State) : Prop where
  mem : u.mem = s.mem
  arrs : ∀ y c, 8 * y + c ≠ 8 * x + a → u.arr y c = s.arr y c
  want : ∀ y, (s.tile y).calWant = true → (u.tile y).calWant = true
  flds : ∀ f, K f → u.fld f = s.fld f

/-- From s to u nothing of that changed, and of array a of tile x only what does not last. -/
structure Within (K : Fld → Prop) (x a : Nat) (s u : State) : Prop extends Around K x a s u where
  own : (u.arr x a).lasting = (s.arr x a).lasting

theorem Around.refl (s : State) : Around K x a s s := ⟨rfl, fun _ _ _ => rfl, fun _ h => h, fun _ _ => rfl⟩

theorem Around.trans (h : Around K x a s u) (h' : Around K x a u v) : Around K x a s v where
  mem := h'.mem.trans h.mem
  arrs y c hne := (h'.arrs y c hne).trans (h.arrs y c hne)
  want y hy := h'.want y (h.want y hy)
  flds f hf := (h'.flds f hf).trans (h.flds f hf)

theorem Around.mono {K' : Fld → Prop} (h : Around K x a s u) (hK : ∀ f, K' f → K f) : Around K' x a s u :=
  { h with flds := fun f hf => h.flds f (hK f hf) }

theorem Within.refl (s : State) : Within K x a s s := ⟨.refl s, rfl⟩

theorem Within.trans (h : Within K x a s u) (h' : Within K x a u v) : Within K x a s v :=
  ⟨h.toAround.trans h'.toAround, h'.own.trans h.own⟩

theorem Within.mono {K' : Fld → Prop} (h : Within K x a s u) (hK : ∀ f, K' f → K f) : Within K' x a s u :=
  ⟨h.toAround.mono hK, h.own⟩

theorem Within.ite {p : Prop} [Decidable p] (h : Within K x a s u) (h' : Within K x a s v) :
    Within K x a s (if p then u else v) := by
  split
  · exact h
  · exact h'

theorem Within.forEach {α : Type} {f : State → α → State} (es : List α) (h : ∀ s, ∀ e ∈ es, Within K x a s (f s e))
    (s : State) : Within K x a s (forEach es s f) := by
  induction es generalizing s with
  | nil => exact .refl s
  | cons e es ih =>
    obtain ⟨he, hes⟩ := List.forall_mem_cons.mp fun e he s => h s e he
    exact (he s).trans (ih (fun s e he => hes e he s) _)

/-! ### Registers and records -/

/-- A field that shares no bit with a field of K. -/
structure Beside (K : Fld → Prop) (g : Fld) : Prop where
  width : g.lo ≤ g.hi ∧ g.hi < 32
  apart : ∀ f, K f → f.off ≠ g.off ∨ f.hi < g.lo ∨ g.hi < f.lo

/-- A field of a register other than an array's ARR_STAT, ARR_BSTAT and ARR_PRGSTAT. -/
theorem beside_of_off {g : Fld} (hwidth : g.lo ≤ g.hi ∧ g.hi < 32 := by simp)
    (h : ∀ y c, c < 8 → g.off ≠ (F.ARR_STAT_CONV_ON y c).off ∧ g.off ≠ (F.ARR_BSTAT_RVDUE y c).off ∧
      g.off ≠ (F.ARR_PRGSTAT_STATE y c).off := by intros; simp only; omega) : Beside Shown g := by
  refine ⟨hwidth, fun f hf => .inl ?_⟩
  obtain ⟨y, c, hc, hf⟩ := hf
  obtain ⟨hstat, hbstat, hprg⟩ := h y c hc
  rcases hf with rfl | rfl | rfl
  · exact hstat.symm
  · exact hbstat.symm
  · exact hprg.symm

/-- A field of an array's own status registers, whose offsets differ from those of other registers. -/
theorem beside_of_bits {g : Fld} (hwidth : g.lo ≤ g.hi ∧ g.hi < 32 := by simp)
    (h : ∀ y c, c < 8 → (g.off = (F.ARR_STAT_CONV_ON y c).off → 1 < g.lo ∨ g.hi < 1) ∧
      (g.off = (F.ARR_BSTAT_RVDUE y c).off → 3 < g.lo ∨ g.hi < 3) ∧
      (g.off = (F.ARR_PRGSTAT_STATE y c).off → g.hi < 28) := by intros; simp only; omega) : Beside Shown g := by
  refine ⟨hwidth, fun f hf => ?_⟩
  obtain ⟨y, c, hc, hf⟩ := hf
  obtain ⟨hstat, hbstat, hprg⟩ := h y c hc
  by_cases hoff : f.off = g.off
  · rcases hf with rfl | rfl | rfl
    · exact .inr (by have := hstat hoff.symm; simp only; omega)
    · exact .inr (by have := hbstat hoff.symm; simp only; omega)
    · exact .inr (by have := hprg hoff.symm; simp only; omega)
  · exact .inl hoff

theorem Within.of_regs (hmem : u.mem = s.mem) (harrs : u.arrs = s.arrs) (htiles : u.tiles = s.tiles)
    (hflds : ∀ f, K f → u.fld f = s.fld f) : Within K x a s u where
  mem := hmem
  arrs _ _ _ := arr_congr harrs ..
  want y h := by rw [State.tile, htiles]; exact h
  flds := hflds
  own := by rw [arr_congr harrs]

theorem within_setFld {g : Fld} (n : Nat) (h : Beside K g) : Within K x a s (s.setFld g n) :=
  .of_regs rfl rfl rfl fun f hf => fld_setFld_other s f g n h.width.1 h.width.2 (h.apart f hf)

theorem within_setFlag {g : Fld} (b : Bool) (h : Beside K g) : Within K x a s (s.setFlag g b) := within_setFld _ h
theorem within_event {g : Fld} (h : Beside K g) : Within K x a s (s.event g) := within_setFld _ h
theorem within_bump {g : Fld} (n : Nat) (h : Beside K g) : Within K x a s (s.bump g n) := within_setFld _ h

theorem within_wr {off : Nat} (w : W32) (h : ∀ f, K f → f.off ≠ off) : Within K x a s (s.wr off w) :=
  .of_regs rfl rfl rfl fun f hf => fld_wr_other s f w (h f hf)

theorem within_putArr (y : Arr) (h : y.lasting = (s.arr x a).lasting) : Within K x a s (s.putArr x a y) where
  mem := rfl
  arrs y' c hne := arr_putArr_other s x a y' c y hne
  want _ h := h
  flds _ _ := rfl
  own := (congrArg Arr.lasting (arr_putArr s x a y)).trans h

theorem around_putArr (y : Arr) : Around K x a s (s.putArr x a y) where
  mem := rfl
  arrs y' c hne := arr_putArr_other s x a y' c y hne
  want _ h := h
  flds _ _ := rfl

theorem want_putTileRec {y : Tile} (h : (s.tile x).calWant = true → y.calWant = true) (z : Nat) :
    (s.tile z).calWant = true → ((s.putTileRec x y).tile z).calWant = true := by
  by_cases hz : z = x
  · subst hz
    rw [tile_putTileRec]
    exact h
  · rw [tile_putTileRec_other _ _ hz]
    exact id

theorem within_putTileRec (y : Tile) (h : (s.tile x).calWant = true → y.calWant = true) : Within K x a s (s.putTileRec x y) where
  mem := rfl
  arrs _ _ _ := rfl
  want := want_putTileRec h
  flds _ _ := rfl
  own := rfl

theorem Shown.off_tile {f : Fld} (h : Shown f) : 0x1000000 ≤ f.off ∧ ¬ TileOff x f.off := by
  obtain ⟨y, c, hc, rfl | rfl | rfl⟩ := h
  all_goals
    simp only [TileOff]
    omega

theorem TileRegsKept.within (h : TileRegsKept s u) (hmem : u.mem = s.mem) (harrs : u.arrs = s.arrs) (htiles : u.tiles = s.tiles) :
    Within Shown x a s u :=
  .of_regs hmem harrs htiles fun f hf => by
    simp only [State.fld, h.rd _ (hf.off_tile (x := x)).1]

theorem TileOnly.within (h : TileOnly x s u) (hwant : ∀ y, (s.tile y).calWant = true → (u.tile y).calWant = true) :
    Within Shown x a s u where
  mem := h.frame.1
  arrs _ _ _ := arr_congr h.frame.2.1 ..
  want := hwant
  flds f hf := h.fld f hf.off_tile.2
  own := by rw [arr_congr h.frame.2.1]

theorem within_recordFault (cls ukind unit acc : Nat) : Within Shown x a s (s.recordFault cls ukind unit acc) := by
  obtain ⟨r, hr⟩ := recordFault_only s cls ukind unit acc
  exact (tileRegsKept_recordFault ..).within (by rw [hr]) (by rw [hr]) (by rw [hr])

theorem within_raiseFault (cls ukind unit acc : Nat) (halt : Bool) : Within Shown x a s (s.raiseFault cls ukind unit acc halt) :=
  (tileRegsKept_raiseFault ..).within (mem_raiseFault ..) (units_raiseFault ..).1 (units_raiseFault ..).2

/-! ### Records and tests of a tile (R566 to R571, R628, R630) -/

theorem within_wantRed (n : Nat) : Within Shown x a s (s.wantRed x n) := by
  refine (tileOnly_wantRed n).within fun y hy => ?_
  unfold State.wantRed
  split
  · exact hy
  · refine want_putTileRec ?_ y hy
    exact id

theorem within_startTest (r : TestReq) : Within Shown x a s (s.startTest x r) := by
  have hstat (w : W32) : Within Shown x a s
      ((s.putTileRec x { s.tile x with test := some r, redFailed := false }).wr (R.TIL_TESTSTAT x) w) :=
    (within_putTileRec { s.tile x with test := some r, redFailed := false } id).trans (within_wr w fun f hf => by
      have := (Shown.off_tile (x := x) hf).2
      simp only [TileOff, R.TIL_TESTSTAT] at this ⊢
      omega)
  exact .ite ((hstat _).trans (within_wantRed _)) (hstat _)

theorem within_requestTest (kind mode array col steps : Nat) (host : Option Nat) :
    Within Shown x a s (s.requestTest x kind mode array col steps host) := by
  unfold State.requestTest
  dsimp only
  split
  · exact within_startTest _
  · exact .ite (within_putTileRec _ id) (.ite (within_putTileRec _ id)
      (within_bump _ beside_of_off))

/-- A record of a tile's folio, of a tile that there is. -/
theorem within_folioPut (hx : x < 512) (type flags layer oper unit acc : Nat) (payload : List Byte) :
    Within Shown x a s (s.folioPut x type flags layer oper unit acc payload) := by
  unfold State.folioPut State.foldOcc State.paid
  extract_lets r y seq z
  have hseq : Within Shown x a s seq :=
    within_setFld _ beside_of_off
  split
  · refine hseq.trans ((within_putTileRec _ ?_).trans
      (within_setFld _ beside_of_off))
    intro h
    simp only [z]
    split <;> exact h
  · refine hseq.trans (((within_putTileRec _ ?_).trans
      (within_bump _ beside_of_off)).trans
      (within_bump _ beside_of_off))
    exact id

theorem within_stewardRecord (hx : x < 512) (type layer : Nat) (payload : List Byte) :
    Within Shown x a s (s.stewardRecord x type layer payload) := .ite (within_folioPut hx ..) (.refl s)

/-! ### Cover and budget (R226, R252, R583) -/

theorem within_coverStat : Within Shown x a s (s.coverStat x) := by
  unfold State.coverStat
  dsimp only
  refine (Within.trans (within_setFld _ beside_of_off)
    (within_setFld _ beside_of_off)).trans
    (.forEach _ (fun s b hb => within_setFlag _ beside_of_bits) _)

theorem within_startCover (cols : List Nat) : Within Shown x a s (s.startCover x a cols) := by
  unfold State.startCover
  dsimp only
  refine .ite (Within.trans (within_putArr _ ?_) within_coverStat)
    ((within_event beside_of_off).trans (within_raiseFault ..))
  rfl

theorem within_budgetRecord (hx : x < 512) : Within Shown x a s (s.budgetRecord x a) := within_stewardRecord hx ..

theorem within_leaveBudget (hx : x < 512) : Within Shown x a s (s.leaveBudget x a) := by
  unfold State.leaveBudget
  extract_lets left
  have hleft : Within Shown x a s left := by
    refine Within.trans ?_ (within_budgetRecord hx)
    exact ((within_setFlag _ beside_of_bits).trans (within_event beside_of_off)).trans (within_bump _ beside_of_off)
  exact .ite (hleft.trans (within_requestTest ..)) hleft

theorem within_arrayOut (hx : x < 512) : Within Shown x a s (s.arrayOut x a) := by
  unfold State.arrayOut
  extract_lets off left y recorded put verdict
  have hoff : Within Shown x a s off := (within_setFlag _ beside_of_bits).trans (within_bump _ beside_of_off)
  have hleft : Within Shown x a s left := hoff.trans (.ite (within_leaveBudget hx) (.refl _))
  have hrecorded : Within Shown x a left recorded := within_recordFault ..
  have hput : Within Shown x a s put := (hleft.trans hrecorded).trans (within_putArr _ hrecorded.own.symm)
  have hverdict : Within Shown x a put verdict := by
    unfold verdict
    split
    · exact .ite (within_setFld _ beside_of_off) (.refl _)
    · exact .refl _
  exact (hput.trans hverdict).trans (within_startCover _)

/-! ### Wear, retirement and remapping (R190, R191, R195 to R199) -/

theorem within_ledgerPut (src type key : Nat) (value : List Byte) : Within K x a s (s.ledgerPut src type key value) := by
  unfold State.ledgerPut
  dsimp only
  exact .ite (.refl s) (.ite (.of_regs rfl rfl rfl fun _ _ => rfl) (.of_regs rfl rfl rfl fun _ _ => rfl))

theorem within_putRemap {b n : Nat} (w : W32) (hn : n < 16) : Within Shown x a s (s.putRemap x a b n w) :=
  within_wr w fun f hf => by
    obtain ⟨y, c, hc, hf⟩ := hf
    by_cases hb : b = 0
    all_goals
      rcases hf with rfl | rfl | rfl
      all_goals
        simp only [hb, if_true, if_false, R.ARR_REMAP0, R.ARR_REMAP1]
        omega

/-- A bank replaced by one with the same cells that owes the same refresh. -/
theorem lasting_setBank {y : Arr} {b : Nat} {k : Bank} (hcells : k.cells = (y.bank b).cells)
    (howe : k.oweRefresh = (y.bank b).oweRefresh) : (y.setBank b k).lasting = y.lasting := by
  unfold Arr.setBank
  unfold Arr.bank at hcells howe
  by_cases hb : b = 0
  · simp only [hb, if_true] at hcells howe ⊢
    simp only [Arr.lasting, hcells, howe]
  · simp only [hb, if_false] at hcells howe ⊢
    simp only [Arr.lasting, hcells, howe]

theorem within_retire (hx : x < 512) (b j cause : Nat) : Within Shown x a s (s.retire x a b j cause) := by
  unfold State.retire State.saveRemap
  extract_lets dead
  have hdead : Within Shown x a s dead := .forEach _ (fun s n hn =>
    .ite (within_putRemap _ (List.mem_range.mp hn)) (.refl _)) _
  split
  · next n hn =>
    have hn := List.mem_range.mp (List.mem_of_find?_eq_some hn)
    exact ((hdead.trans (within_putRemap _ hn)).trans
      ((within_bump _ beside_of_off).trans
      (within_recordFault ..))).trans (within_ledgerPut ..)
  · have hput (v : State) : Within Shown x a v (v.putArr x a ((v.arr x a).setBank b
        { (v.arr x a).bank b with unspared := ((v.arr x a).bank b).unspared ++ [j] })) :=
      within_putArr _ (lasting_setBank rfl rfl)
    exact (hdead.trans (within_ledgerPut ..)).trans (.ite (hput _) ((hput _).trans (within_arrayOut hx)))

theorem within_chkFlag (b : Nat) (off : Bool) : Within Shown x a s
    (s.setFlag (if b = 0 then F.ARR_PRGSTAT_CHKOFF0 x a else F.ARR_PRGSTAT_CHKOFF1 x a) off) := by
  refine within_setFlag _ ?_
  split
  all_goals exact beside_of_bits

theorem within_wornColumn (hx : x < 512) (b c : Nat) : Within Shown x a s (s.wornColumn x a b c) := by
  unfold State.wornColumn
  dsimp only
  split
  · refine Within.trans (within_putArr _ (lasting_setBank ?_ ?_)) (within_chkFlag b true)
    all_goals rfl
  · split
    · exact within_retire hx ..
    · exact .refl s

theorem within_wearNote (b : Nat) : Within Shown x a s (s.wearNote x a b) := by
  unfold State.wearNote
  extract_lets y k w noted
  have hnoted : Within Shown x a s noted := within_wr _ fun f hf => by
    obtain ⟨y, c, hc, hf⟩ := hf
    by_cases hb : b = 0
    all_goals
      rcases hf with rfl | rfl | rfl
      all_goals
        simp only [hb, if_true, if_false, R.ARR_WEARMAX0, R.ARR_WEARMAX1]
        omega
  refine .ite (hnoted.trans (Within.trans (within_putArr _ ?_) (within_ledgerPut ..))) hnoted
  exact lasting_setBank rfl rfl

theorem within_addWear (b c n : Nat) : Within K x a s (s.putArr x a ((s.arr x a).setBank b (((s.arr x a).bank b).addWear c n))) :=
  within_putArr _ (lasting_setBank rfl rfl)

theorem within_wearColumns (hx : x < 512) (b : Nat) (cs : List (Nat × Nat)) : Within Shown x a s (s.wearColumns x a b cs) := by
  unfold State.wearColumns
  dsimp only
  exact ((Within.forEach cs (fun s c _ => within_addWear b c.1 c.2) s).trans
    (.forEach _ (fun s c _ => within_wornColumn hx b c.1) _)).trans (within_wearNote b)

end Sys2Proof.Machine
end

section
/-! SUPPORT. The rows of a rewrite (R169 to R174, R193, R208) and what a programming cycle leaves around the array that programs.
-/

namespace Sys2Proof.Machine

variable {s u v : State} {x a : Nat} {K : Fld → Prop}

/-! ### Rows and cycles (R169 to R174, R193, R208) -/

/-- The converters of every array (R142). -/
def ConvOn (f : Fld) : Prop := ∃ y c, c < 8 ∧ f = F.ARR_STAT_CONV_ON y c

theorem ConvOn.shown {f : Fld} (h : ConvOn f) : Shown f := by
  obtain ⟨y, c, hc, rfl⟩ := h
  exact ⟨y, c, hc, .inl rfl⟩

theorem Within.convOn (h : Within Shown x a s u) : Within ConvOn x a s u := h.mono fun _ => ConvOn.shown

theorem within_prgState (n : Nat) : Within ConvOn x a s (s.setFld (F.ARR_PRGSTAT_STATE x a) n) :=
  within_setFld n ⟨by simp, fun f hf => by
    obtain ⟨y, c, hc, rfl⟩ := hf
    simp only
    omega⟩

theorem within_chkOff (b : Nat) : Within Shown x a s (s.chkOff x a b) := within_chkFlag b _

theorem within_putRew (r : Rewrite) : Within K x a s (s.putArr x a { s.arr x a with rew := r }) := within_putArr _ rfl

theorem within_endRows (hx : x < 512) : Within ConvOn x a s (s.endRows x a) := by
  unfold State.endRows
  extract_lets y b lim past k noted retired checked
  have hnoted : Within Shown x a s noted := within_putArr _ (lasting_setBank rfl rfl)
  have hretired : Within Shown x a noted retired := .forEach _ (fun s e _ => by
    split
    · exact within_retire hx ..
    · exact .refl s) _
  have h := (((hnoted.trans hretired).trans (within_chkOff b)).trans
    (within_putRew { (checked.arr x a).rew with row := 512 })).convOn
  exact .ite h (h.trans (within_prgState 3))

theorem within_advanceRow (hx : x < 512) (row : Nat) : Within ConvOn x a s (s.advanceRow x a row) := by
  unfold State.advanceRow
  extract_lets y b next
  exact .ite (within_endRows hx) (Within.trans (within_putRew _) (within_setFld _ beside_of_bits)).convOn

theorem around_closeRow (hx : x < 512) : Around ConvOn x a s (s.closeRow x a) := by
  unfold State.closeRow
  dsimp only
  exact ((around_putArr _).trans (within_chkOff _).convOn.toAround).trans (within_advanceRow hx _).toAround

theorem within_draw : Within K x a s s.draw.2 := .of_regs rfl rfl rfl fun _ _ => rfl

theorem within_verifyRow (b row : Nat) : Within K x a s (s.verifyRow x a b row).2 := within_draw

theorem within_inject (point unit sub col acc : Nat) : Within Shown x a s (s.inject point unit sub col acc).2 := by
  have h := behindFabric_inject s point unit sub col acc
  exact (tileRegsKept_inject ..).within (congrArg (·.2.1) h) (congrArg (·.2.2.2.2) h) (congrArg (·.2.2.2.1) h)

theorem within_bumpPair {lo hi : Fld} (n : Nat) (hlo : Beside K lo) (hhi : Beside K hi) :
    Within K x a s (s.bumpPair lo hi n) := (within_setFld _ hlo).trans (within_setFld _ hhi)

/-- A pulse cycle keeps what the verify read and the injection keep. They are generalised before its definition is taken apart,
for the kernel would otherwise run them to see the pairs that they return. -/
theorem around_pulseRow (hx : x < 512) : Around ConvOn x a s (s.pulseRow x a) := by
  have hdef : State.pulseRow = State.pulseRow := rfl
  conv at hdef => rhs; delta State.pulseRow
  have hverify (s : State) (b row : Nat) : Within ConvOn x a s (s.verifyRow x a b row).2 := within_verifyRow ..
  have hinject (s : State) (point unit sub col acc : Nat) : Within Shown x a s (s.inject point unit sub col acc).2 :=
    within_inject ..
  generalize State.verifyRow = verifyRow at hdef hverify
  generalize State.inject = inject at hdef hinject
  generalize State.pulseRow = pulseRow at hdef
  as_aux_lemma =>
    subst hdef
    dsimp only
    refine Around.trans ?_ (around_putArr _)
    refine Around.trans ?_ (within_bump _ beside_of_off).convOn.toAround
    refine Around.trans ?_ (hinject ..).convOn.toAround
    refine Around.trans ?_ (hverify ..).toAround
    refine Around.trans ?_ (within_wearColumns hx ..).convOn.toAround
    refine Around.trans ?_ (within_bumpPair _ beside_of_off beside_of_off).convOn.toAround
    exact within_draw.toAround.trans (around_putArr _)

@[simp] theorem arr_convertersOn : (s.convertersOn x a false).arr x a = s.arr x a := by
  unfold State.convertersOn
  split <;> rfl

theorem around_arrayCycle (hx : x < 512) (admitted : Bool) :
    Around ConvOn x a (s.convertersOn x a false) (s.arrayCycle x a admitted) := by
  unfold State.arrayCycle
  extract_lets on y b row
  split
  · split
    · exact (within_verifyRow b row).toAround.trans (around_putArr _)
    · split
      · exact (around_putArr _).trans (around_pulseRow hx)
      · exact around_putArr _
  · split
    · exact around_pulseRow hx
    · exact .refl on
  · have hread := (within_verifyRow (K := ConvOn) (s := on) (x := x) (a := a) b row).toAround
    split
    next f read hr =>
    rw [hr] at hread
    dsimp only
    split
    · exact (hread.trans (around_putArr _)).trans (around_closeRow hx)
    · exact hread.trans (around_putArr _)

/-- A row that closes and has readbacks to go takes one more (R171). -/
theorem arrayCycle_closing {n : Nat} (hn : n < 3) (hphase : (s.arr x a).rew.phase = .closing n) (admitted : Bool) :
    ((s.arrayCycle x a admitted).arr x a).rew.phase = .closing (n + 1) := by
  unfold State.arrayCycle
  dsimp only
  rw [arr_convertersOn, hphase]
  dsimp only
  rw [if_neg (by omega), arr_putArr]

/-- The converters of the arrays other than array a of tile x. -/
def OtherConvOn (x a : Nat) (f : Fld) : Prop := ConvOn f ∧ f ≠ F.ARR_STAT_CONV_ON x a

theorem around_convertersOn : Around (OtherConvOn x a) x a s (s.convertersOn x a false) := by
  unfold State.convertersOn
  split
  · exact .refl s
  · refine (within_setFlag _ ⟨by simp, fun f hf => .inl ?_⟩).toAround
    obtain ⟨⟨y, c, hc, rfl⟩, hne⟩ := hf
    simp only [ne_eq, Fld.mk.injEq, and_self, and_true] at hne ⊢
    exact hne

/-- Array a of tile x after its part of a programming cycle: its converters are on (R142). -/
theorem arrayCycle_spec (hx : x < 512) (ha : a < 8) (admitted : Bool) :
    Around (OtherConvOn x a) x a s (s.arrayCycle x a admitted) ∧
      (s.arrayCycle x a admitted).fld (F.ARR_STAT_CONV_ON x a) = 1 := by
  have hcycle := around_arrayCycle (s := s) (a := a) hx admitted
  obtain ⟨-, hconv, -⟩ := convertersOn_spec (s := s) (t := x) (a := a) false
  exact ⟨around_convertersOn.trans (hcycle.mono fun _ hf => hf.1), (hcycle.flds _ ⟨x, a, ha, rfl⟩).trans hconv⟩

/-- The parts of a programming cycle of a tile's arrays, one after the other. -/
def State.cycles (s : State) (x : Nat) (admitted : Nat → Bool) (es : List Nat) : State :=
  forEach es s (fun s a => s.arrayCycle x a (admitted a))

theorem cycles_spec (hx : x < 512) (admitted : Nat → Bool) {es : List Nat} (hnodup : es.Nodup) (hes : ∀ e ∈ es, e < 8) (s : State) :
    (s.cycles x admitted es).mem = s.mem ∧
      (∀ y c, c < 8 → (y ≠ x ∨ c ∉ es) → (s.cycles x admitted es).arr y c = s.arr y c) ∧
      (∀ c < 8, s.fld (F.ARR_STAT_CONV_ON x c) = 1 → (s.cycles x admitted es).fld (F.ARR_STAT_CONV_ON x c) = 1) ∧
      ∀ c ∈ es, (s.cycles x admitted es).fld (F.ARR_STAT_CONV_ON x c) = 1 ∧
        ∀ n < 3, (s.arr x c).rew.phase = .closing n → ((s.cycles x admitted es).arr x c).rew.phase = .closing (n + 1) := by
  induction es generalizing s with
  | nil => exact ⟨rfl, fun _ _ _ _ => rfl, fun _ _ h => h, fun _ h => absurd h List.not_mem_nil⟩
  | cons e es ih =>
    obtain ⟨he, hes⟩ := List.forall_mem_cons.mp hes
    obtain ⟨hfresh, hnodup⟩ := List.nodup_cons.mp hnodup
    obtain ⟨haround, hconv⟩ := arrayCycle_spec (s := s) hx he (admitted e)
    have hclosing {n : Nat} (hn : n < 3) (hphase : (s.arr x e).rew.phase = .closing n) :=
      arrayCycle_closing hn hphase (admitted e)
    have hcons : s.cycles x admitted (e :: es) = (s.arrayCycle x e (admitted e)).cycles x admitted es := rfl
    rw [hcons]
    generalize s.arrayCycle x e (admitted e) = u at haround hconv hclosing ⊢
    obtain ⟨hmem, harrs, hkept, hown⟩ := ih hnodup hes u
    have hstay (c : Nat) (hc : c < 8) (h : s.fld (F.ARR_STAT_CONV_ON x c) = 1) : u.fld (F.ARR_STAT_CONV_ON x c) = 1 := by
      by_cases hce : c = e
      · rw [hce, hconv]
      · refine (haround.flds _ ⟨⟨x, c, hc, rfl⟩, ?_⟩).trans h
        simp only [ne_eq, Fld.mk.injEq, and_self, and_true]
        omega
    refine ⟨hmem.trans haround.mem, fun y c hc hne => ?_, fun c hc h => hkept c hc (hstay c hc h), fun c hc => ?_⟩
    · have hne' : y ≠ x ∨ c ∉ es := hne.imp_right fun h => (List.not_mem_of_not_mem_cons h)
      refine (harrs y c hc hne').trans (haround.arrs y c ?_)
      rcases hne with hy | hc'
      · omega
      · have := List.ne_of_not_mem_cons hc'
        omega
    · rcases List.mem_cons.mp hc with rfl | hc
      · refine ⟨hkept c he hconv, fun n hn hphase => ?_⟩
        rw [harrs x c he (.inr hfresh)]
        exact hclosing hn hphase
      · obtain ⟨hon, hnext⟩ := hown c hc
        refine ⟨hon, fun n hn hphase => hnext n hn ?_⟩
        have hce : c ≠ e := fun h => hfresh (h ▸ hc)
        rw [haround.arrs x c (by omega)]
        exact hphase

end Sys2Proof.Machine
end

section
/-! SUPPORT. Refreshes requested for arrays (R192, R193): each stays owed as the others are requested.
-/

namespace Sys2Proof.Machine

variable {s u v : State} {x a : Nat}

/-! ### Refresh (R192, R193) -/

/-- The shown fields but for array a's own RVDUE. -/
def ShownButDue (x a : Nat) (f : Fld) : Prop := Shown f ∧ f ≠ F.ARR_BSTAT_RVDUE x a

theorem within_setDue (b : Bool) : Within (ShownButDue x a) x a s (s.setFlag (F.ARR_BSTAT_RVDUE x a) b) := by
  refine within_setFlag b ⟨by simp, fun f hf => ?_⟩
  obtain ⟨⟨y, c, hc, hf⟩, hne⟩ := hf
  rcases hf with rfl | rfl | rfl
  all_goals
    simp only [ne_eq, Fld.mk.injEq, and_self, and_true] at hne ⊢
    omega

theorem within_bstat {g : Fld} (b : Bool) (hoff : g.off = (F.ARR_BSTAT_RVDUE x a).off) (hbits : g.lo ≤ g.hi ∧ g.hi < 32)
    (h : 3 < g.lo ∨ g.hi < 3) : Within Shown x a s (s.setFlag g b) :=
  within_setFlag b (beside_of_bits hbits fun y c hc => by
    rw [hoff]
    simp only
    omega)

/-- The budget's evaluation shows in RVDUE whether a refresh is in force, and leaves the rest (R226, R227). -/
theorem budget_spec (hx : x < 512) (ha : a < 8) :
    Within (ShownButDue x a) x a s (s.budget x a) ∧ (s.budget x a).fld (F.ARR_BSTAT_RVDUE x a) = b2n (s.arr x a).refresh := by
  have hdue : Shown (F.ARR_BSTAT_RVDUE x a) := ⟨x, a, ha, .inr (.inl rfl)⟩
  unfold State.budget
  extract_lets y was s1 s2 s3 s4
  have hcfg : Within Shown x a s s1 := within_bstat (g := F.ARR_BSTAT_RVCFG x a) _ rfl (by simp) (by simp)
  have hfact : Within Shown x a s1 s2 := within_bstat (g := F.ARR_BSTAT_NOFACT x a) _ rfl (by simp) (by simp)
  have hcol : Within Shown x a s2 s3 := within_bstat (g := F.ARR_BSTAT_RESCOL x a) _ rfl (by simp) (by simp)
  have hset : s4.fld (F.ARR_BSTAT_RVDUE x a) = b2n (s.arr x a).refresh := by
    refine (fld_setFld_same s3 (F.ARR_BSTAT_RVDUE x a) _ (by simp) (by simp)).trans ?_
    cases (s.arr x a).refresh <;> rfl
  suffices h : ∀ u, Within Shown x a s4 u → Within (ShownButDue x a) x a s u ∧
      u.fld (F.ARR_BSTAT_RVDUE x a) = b2n (s.arr x a).refresh by
    refine h _ ?_
    split
    next hot cold htemp =>
    have hhot : Within Shown x a s4 (s4.setFlag (F.ARR_BSTAT_THOT x a) hot) :=
      within_bstat (g := F.ARR_BSTAT_THOT x a) _ rfl (by simp) (by simp)
    have hcold : Within Shown x a (s4.setFlag (F.ARR_BSTAT_THOT x a) hot)
        ((s4.setFlag (F.ARR_BSTAT_THOT x a) hot).setFlag (F.ARR_BSTAT_TCOLD x a) cold) :=
      within_bstat (g := F.ARR_BSTAT_TCOLD x a) _ rfl (by simp) (by simp)
    extract_lets s5 now left
    have hleft : Within Shown x a s5 left := within_leaveBudget hx
    have hin : Within Shown x a s5 (s5.setFlag (F.ARR_BSTAT_INBUD x a) now) :=
      within_bstat (g := F.ARR_BSTAT_INBUD x a) _ rfl (by simp) (by simp)
    exact (hhot.trans hcold).trans (.ite (.ite (hleft.trans (within_arrayOut hx)) hleft) hin)
  intro u hu
  have hbefore := ((hcfg.trans hfact).trans hcol).mono (K' := ShownButDue x a) fun _ h => h.1
  exact ⟨(hbefore.trans (within_setDue _)).trans (hu.mono fun _ h => h.1), (hu.flds _ hdue).trans hset⟩

/-- A refresh of array a of tile x is owed: by both banks, in RVDUE, and by the tile's calibration (R192, R193, R549). -/
structure Refreshed (x a : Nat) (s : State) : Prop where
  refresh : (s.arr x a).refresh = true
  bank0 : (s.arr x a).bank0.oweRefresh = true
  bank1 : (s.arr x a).bank1.oweRefresh = true
  due : s.fld (F.ARR_BSTAT_RVDUE x a) = 1
  want : (s.tile x).calWant = true

/-- An array with a refresh in force that both banks owe. -/
def Arr.refreshed (y : Arr) : Arr :=
  { y with refresh := true, bank0 := { y.bank0 with oweRefresh := true }, bank1 := { y.bank1 with oweRefresh := true } }

theorem requestRefresh_spec (hx : x < 512) (ha : a < 8) :
    Around (ShownButDue x a) x a s (s.requestRefresh x a) ∧ Refreshed x a (s.requestRefresh x a) := by
  have hwanted : Within (ShownButDue x a) x a s (s.putTileRec x { s.tile x with calWant := true }) :=
    within_putTileRec _ fun _ => rfl
  have hwant : ((s.putTileRec x { s.tile x with calWant := true }).tile x).calWant = true := by rw [tile_putTileRec]
  change Around _ x a s (((s.putTileRec x { s.tile x with calWant := true }).putArr x a (s.arr x a).refreshed).budget x a) ∧
    Refreshed x a (((s.putTileRec x { s.tile x with calWant := true }).putArr x a (s.arr x a).refreshed).budget x a)
  generalize s.putTileRec x { s.tile x with calWant := true } = wanted at hwanted hwant ⊢
  have hput : Around (ShownButDue x a) x a wanted (wanted.putArr x a (s.arr x a).refreshed) := around_putArr _
  obtain ⟨hbudget, hdue⟩ := budget_spec (s := wanted.putArr x a (s.arr x a).refreshed) hx ha
  have hown := hbudget.own
  rw [arr_putArr] at hown hdue
  simp only [Arr.lasting, Prod.mk.injEq] at hown
  obtain ⟨-, hrefresh, hbank0, hbank1⟩ := hown
  exact ⟨(hwanted.toAround.trans hput).trans hbudget.toAround, hrefresh, hbank0, hbank1, hdue, hbudget.want x hwant⟩

/-- A refresh that is owed stays so as another array's is requested. -/
theorem Refreshed.around {y c : Nat} (h : Refreshed y c s) (hu : Around (ShownButDue x a) x a s u) (hc : c < 8)
    (ha : a < 8) (hne : 8 * y + c ≠ 8 * x + a) : Refreshed y c u := by
  have harr := hu.arrs y c hne
  have hdue : ShownButDue x a (F.ARR_BSTAT_RVDUE y c) :=
    ⟨⟨y, c, hc, .inr (.inl rfl)⟩, by simp only [ne_eq, Fld.mk.injEq, and_self, and_true]; omega⟩
  exact ⟨by rw [harr, h.refresh], by rw [harr, h.bank0], by rw [harr, h.bank1], (hu.flds _ hdue).trans h.due, hu.want y h.want⟩

/-- Refreshes requested for arrays one after the other: each of them is owed in the end, and no rewrite's state changes. -/
theorem requestRefreshes_spec {ks : List (Nat × Nat)} (hks : ∀ k ∈ ks, k.1 < 512 ∧ k.2 < 8) (s : State) {y c : Nat} (hc : c < 8) :
    ((y, c) ∈ ks ∨ Refreshed y c s → Refreshed y c (forEach ks s fun s k => s.requestRefresh k.1 k.2)) ∧
      (forEach ks s fun s k => s.requestRefresh k.1 k.2).fld (F.ARR_PRGSTAT_STATE y c) = s.fld (F.ARR_PRGSTAT_STATE y c) := by
  induction ks generalizing s with
  | nil => exact ⟨fun h => h.resolve_left List.not_mem_nil, rfl⟩
  | cons k ks ih =>
    obtain ⟨⟨hx, ha⟩, hks⟩ := List.forall_mem_cons.mp hks
    obtain ⟨haround, hrefreshed⟩ := requestRefresh_spec (s := s) hx ha
    obtain ⟨hall, hstate⟩ := ih hks (s.requestRefresh k.1 k.2)
    refine ⟨fun h => hall ?_, hstate.trans (haround.flds _ ⟨⟨y, c, hc, .inr (.inr rfl)⟩, by simp⟩)⟩
    by_cases hk : (y, c) = k
    · exact .inr (hk ▸ hrefreshed)
    · rcases h with h | h
      · exact .inl (List.mem_of_ne_of_mem hk h)
      · refine .inr (h.around haround hc ha fun heq => hk ?_)
        exact Prod.ext (by simp only; omega) (by simp only; omega)

end Sys2Proof.Machine
end

section
/-! SUPPORT. The commands of a rewrite (R166, R169, R175, R176, R179, R194) and of a refresh (R192): what each leaves.
-/

namespace Sys2Proof.Machine

variable {s u v : State} {x a : Nat}

/-- From s to u only registers changed. -/
def RegsOnly (s u : State) : Prop := ∃ r, u = { s with regs := r }

theorem RegsOnly.refl (s : State) : RegsOnly s s := ⟨s.regs, rfl⟩

theorem RegsOnly.wr (h : RegsOnly s u) (off : Nat) (w : W32) : RegsOnly s (u.wr off w) := by
  obtain ⟨r, rfl⟩ := h
  exact ⟨_, rfl⟩

theorem RegsOnly.bump (h : RegsOnly s u) (f : Fld) (n : Nat) : RegsOnly s (u.bump f n) := h.wr ..

theorem RegsOnly.ite {p : Prop} [Decidable p] (hu : RegsOnly s u) (hv : RegsOnly s v) : RegsOnly s (if p then u else v) := by
  split
  · exact hu
  · exact hv

/-- What the start of a rewrite shows of it (R166, R194, R200). -/
def rewriteFields (x a state : Nat) (full refresh : Bool) : List (Fld × Nat) :=
  [(F.ARR_PRGSTAT_STATE x a, state), (F.ARR_PRGSTAT_FULL x a, b2n full), (F.ARR_PRGSTAT_REFRESH x a, b2n refresh),
    (F.ARR_PRGSTAT_SUSP x a, b2n false), (F.ARR_PRGSTAT_ROW x a, 0), (F.ARR_STAT_IDLEBUSY x a, b2n true)]

/-- The start of a rewrite of a bank that is a re-verify, or that owes a full rewrite. -/
theorem startRewrite_eq {b : Nat} (reverify : Bool) (h : reverify = true ∨ ((s.arr x a).bank b).oweFull = true) :
    ∃ (u : State) (y : Arr) (refresh : Bool), RegsOnly s u ∧ y.rew.bank = b ∧
      (reverify = true → refresh = true) ∧
      s.startRewrite x a b reverify =
        setAll (u.putArr x a y) (rewriteFields x a (if reverify then 5 else 1) (!reverify) refresh) := by
  unfold State.startRewrite
  extract_lets y k badWs full refresh s1 s2 clamps s3 tooMany spares y1 k0 k1 y2
  have hfull : full = !reverify := by
    rcases h with rfl | h
    · rfl
    · have hk : k.oweFull = true := h
      simp only [full, hk, Bool.true_or, Bool.and_true]
  have hstate : (if reverify then 5 else if full then 1 else 2) = if reverify then 5 else 1 := by
    rw [hfull]
    cases reverify <;> rfl
  have hws : RegsOnly s s1 := .ite ((RegsOnly.refl s).wr ..) (.refl s)
  have hver : RegsOnly s s2 := .ite (hws.wr ..) hws
  have hcount : RegsOnly s s3 := hver.bump (F.ARR_CNT_CLAMP_COUNT x a) clamps
  refine ⟨s3, { y2 with rew := { bank := b, spares, clamps } }, refresh, hcount, rfl, fun h => ?_, ?_⟩
  · simp only [refresh, h, Bool.true_or]
  · rw [← hfull, ← hstate]
    rfl

/-- From s to u only registers and arrays changed. -/
def ArrsOnly (s u : State) : Prop := ∃ r ys, u = { s with regs := r, arrs := ys }

theorem RegsOnly.arrsOnly (h : RegsOnly s u) : ArrsOnly s u := by
  obtain ⟨r, rfl⟩ := h
  exact ⟨r, _, rfl⟩

theorem ArrsOnly.putArr (h : ArrsOnly s u) (y : Arr) : ArrsOnly s (u.putArr x a y) := by
  obtain ⟨r, ys, rfl⟩ := h
  exact ⟨r, _, rfl⟩

theorem ArrsOnly.setFld (h : ArrsOnly s u) (f : Fld) (n : Nat) : ArrsOnly s (u.setFld f n) := by
  obtain ⟨r, ys, rfl⟩ := h
  exact ⟨_, ys, rfl⟩

theorem ArrsOnly.setAll (h : ArrsOnly s u) (ws : List (Fld × Nat)) : ArrsOnly s (setAll u ws) := by
  obtain ⟨r, ys, rfl⟩ := h
  exact ⟨_, ys, setAll_only ws _⟩

/-- An effect on arrays and on registers is all that the command leaves, but for the event vectors sent. -/
theorem ArrsOnly.became {t : State} (hu : ArrsOnly s u) (h : Became s u t) :
    t = { s with regs := t.regs, arrs := t.arrs, msix := t.msix } := by
  obtain ⟨r, ys, rfl⟩ := hu
  obtain ⟨n, rfl⟩ := h
  rfl

theorem rewriteFields_apart (x a state : Nat) (full refresh : Bool) : Apart (rewriteFields x a state full refresh) := by
  simp [Apart, rewriteFields]

theorem arr_setAll (ws : List (Fld × Nat)) (s : State) : (setAll s ws).arr x a = s.arr x a := by
  rw [setAll_only ws s]
  rfl

/-- What a rewrite that starts shows, a re-verify or one of a bank that owes a full rewrite (R166, R194). -/
theorem startRewrite_spec {b : Nat} (reverify : Bool) (h : reverify = true ∨ ((s.arr x a).bank b).oweFull = true)
    (hu : s.startRewrite x a b reverify = u) :
    u.fld (F.ARR_PRGSTAT_STATE x a) = (if reverify then 5 else 1) ∧ u.fld (F.ARR_PRGSTAT_FULL x a) = b2n (!reverify) ∧
      (reverify = true → u.fld (F.ARR_PRGSTAT_REFRESH x a) = 1) ∧ u.fld (F.ARR_PRGSTAT_SUSP x a) = 0 ∧
      u.fld (F.ARR_PRGSTAT_ROW x a) = 0 ∧ u.fld (F.ARR_STAT_IDLEBUSY x a) = 1 ∧ (u.arr x a).rew.bank = b ∧
      ArrsOnly s u := by
  obtain ⟨v, y, refresh, hv, hbank, hrefresh, heq⟩ := startRewrite_eq (x := x) (a := a) reverify h
  have hfld := setAll_same _ (v.putArr x a y) (rewriteFields_apart x a (if reverify then 5 else 1) (!reverify) refresh)
  rw [← heq, hu] at hfld
  have hframe : ArrsOnly s u := hu ▸ heq ▸ (hv.arrsOnly.putArr y).setAll _
  have harr : u.arr x a = y := by rw [← hu, heq, arr_setAll, arr_putArr]
  simp only [rewriteFields, List.forall_mem_cons] at hfld
  obtain ⟨hstate, hfull, href, hsusp, hrow, hbusy, -⟩ := hfld
  refine ⟨hstate.trans ?_, hfull.trans ?_, fun h => href.trans ?_, hsusp, hrow, hbusy, by rw [harr, hbank], hframe⟩
  · cases reverify <;> rfl
  · cases reverify <;> rfl
  · rw [hrefresh h]
    rfl

/-- REWRITE_START of a bank that owes a full rewrite, its copy written (R163, R166). -/
theorem exec_rewriteStart {b : Nat} (hon : s.power.on = true) (hb : b = (if (s.arr x a).startup then 0 else 1 - s.active x a))
    (hcopied : ((s.arr x a).bank b).copied = true) (hawaited : ((s.arr x a).bank b).awaited = false)
    (howe : ((s.arr x a).bank b).oweFull = true) (hdfwd : s.dfwd = false) (htime : s.arrayTime = true)
    (hcal : s.calibrating x a = false) (hstate : s.prgState x a = 0 ∨ s.prgState x a = 4) :
    ∃ t, exec (.rewriteStart x a) s = .next t ∧ t.fld (F.ARR_PRGSTAT_STATE x a) = 1 ∧ t.fld (F.ARR_PRGSTAT_FULL x a) = 1 ∧
      t.fld (F.ARR_PRGSTAT_SUSP x a) = 0 ∧ t.fld (F.ARR_PRGSTAT_ROW x a) = 0 ∧ t.fld (F.ARR_STAT_IDLEBUSY x a) = 1 ∧
      (t.arr x a).rew.bank = b ∧ t = { s with regs := t.regs, arrs := t.arrs, msix := t.msix } := by
  change ∃ t, execRewriteStart x a s = .next t ∧ _
  unfold execRewriteStart
  refine act_next hon fun t ht => ?_
  have hidle : (s.prgState x a == 0 || s.prgState x a == 4) = true := by simpa using hstate
  dsimp only at ht
  rw [← hb, hcopied, hawaited, howe, hdfwd, htime, hcal, hidle] at ht
  simp only [Bool.not_false, Bool.or_true, Bool.true_or, Bool.and_self, if_true] at ht
  generalize hu : s.startRewrite x a b false = u at ht
  obtain ⟨hst, hfull, -, hsusp, hrow, hbusy, hbank, hframe⟩ := startRewrite_spec false (.inr howe) hu
  have hnot : u.prgState x a ≠ 2 := by
    rw [State.prgState, hst]
    decide
  rw [if_neg hnot] at ht
  refine ⟨(ht.fld _).trans hst, (ht.fld _).trans hfull, (ht.fld _).trans hsusp, (ht.fld _).trans hrow, (ht.fld _).trans hbusy,
    ?_, hframe.became ht⟩
  rw [arr_congr ht.units.2.2, hbank]

/-- Under a refresh the rows follow each other (R193): row 0 starts, and the rewrite is as before. -/
theorem advanceRow_refresh (h : u.fld (F.ARR_PRGSTAT_REFRESH x a) = 1) (hs : ArrsOnly s u) :
    (∀ f : Fld, f.off ≠ (F.ARR_PRGSTAT_ROW x a).off ∨ 8 < f.lo → (u.advanceRow x a 0).fld f = u.fld f) ∧
      ((u.advanceRow x a 0).arr x a).rew.bank = (u.arr x a).rew.bank ∧ ArrsOnly s (u.advanceRow x a 0) := by
  unfold State.advanceRow
  dsimp only
  rw [if_pos ((flag_iff u _).mpr h), if_neg (by omega)]
  refine ⟨fun f hf => fld_setFld_other _ _ _ _ (by simp) (by simp) (hf.imp_right .inr), ?_, (hs.putArr _).setFld _ _⟩
  change ((u.putArr x a _).arr x a).rew.bank = _
  rw [arr_putArr]

/-- ACTIVE_BANK_REVERIFY of an array that awaits it (R194). -/
theorem exec_activeBankReverify (hon : s.power.on = true) (hreverify : (s.arr x a).reverify = true) (htime : s.arrayTime = true)
    (hdfwd : s.dfwd = false) (hcal : s.calibrating x a = false) :
    ∃ t, exec (.activeBankReverify x a) s = .next t ∧ t.fld (F.ARR_PRGSTAT_STATE x a) = 5 ∧
      t.fld (F.ARR_PRGSTAT_REFRESH x a) = 1 ∧ t.fld (F.ARR_PRGSTAT_FULL x a) = 0 ∧ t.fld (F.ARR_STAT_IDLEBUSY x a) = 1 ∧
      (t.arr x a).rew.bank = s.active x a ∧ t = { s with regs := t.regs, arrs := t.arrs, msix := t.msix } := by
  change ∃ t, execActiveBankReverify x a s = .next t ∧ _
  unfold execActiveBankReverify
  refine act_next hon fun t ht => ?_
  rw [hreverify, htime, hdfwd, hcal] at ht
  simp only [Bool.not_false, Bool.and_self, if_true] at ht
  obtain ⟨hst, hfull, href, -, -, hbusy, hbank, hframe⟩ :=
    startRewrite_spec (s := s) (x := x) (a := a) (b := s.active x a) true (.inl rfl) rfl
  obtain ⟨hfld, hrow, hrowFrame⟩ := advanceRow_refresh (href rfl) hframe
  refine ⟨?_, ?_, ?_, ?_, ?_, hrowFrame.became ht⟩
  · exact (ht.fld _).trans ((hfld _ (.inr (by simp))).trans hst)
  · exact (ht.fld _).trans ((hfld _ (.inr (by simp))).trans (href rfl))
  · exact (ht.fld _).trans ((hfld _ (.inr (by simp))).trans hfull)
  · exact (ht.fld _).trans ((hfld _ (.inl (by simp))).trans hbusy)
  · rw [arr_congr ht.units.2.2, hrow, hbank]

/-! ### The clear of a bank (R175) -/

theorem forEach_keeps {α σ : Type} {P : σ → Prop} {f : σ → α → σ} (hkeep : ∀ m d, P m → P (f m d)) (es : List α) {m : σ}
    (h : P m) : P (forEach es m f) := by
  induction es generalizing m with
  | nil => exact h
  | cons d es ih => exact ih (hkeep m d h)

/-- What one element of a list brings about, and every other one leaves, holds in the end. -/
theorem forEach_establishes {α σ : Type} {P : σ → Prop} {f : σ → α → σ} {e : α} (hkeep : ∀ m d, P m → P (f m d))
    (hest : ∀ m, P (f m e)) {es : List α} (he : e ∈ es) (m : σ) : P (forEach es m f) := by
  induction es generalizing m with
  | nil => cases he
  | cons d es ih =>
    rcases List.mem_cons.mp he with rfl | he
    · exact forEach_keeps hkeep es (hest m)
    · exact ih he _

/-- Both cells of a pair at level 0. -/
def clearPair (d : Nat → ℚ) (m : Sparse ℚ) (i c : Nat) : Sparse ℚ :=
  store d (store d m (2 * (531 * i + c)) 0) (2 * (531 * i + c) + 1) 0

/-- The cells of a bank with every pair of its rows over columns 0 to 528 at level 0. -/
def clearedCells (d : Nat → ℚ) (m : Sparse ℚ) : Sparse ℚ :=
  forEach (List.range 512) m (fun m i => forEach (List.range 529) m (fun m c => clearPair d m i c))

theorem lookup_clearPair_zero {d : Nat → ℚ} {m : Sparse ℚ} {k : Nat} (i c : Nat) (h : lookup d m k = 0) :
    lookup d (clearPair d m i c) k = 0 := by
  unfold clearPair
  rw [lookup_store, lookup_store]
  split
  · rfl
  · split
    · rfl
    · exact h

theorem lookup_clearPair {d : Nat → ℚ} (m : Sparse ℚ) (i c : Nat) {k : Nat}
    (hk : k = 2 * (531 * i + c) ∨ k = 2 * (531 * i + c) + 1) :
    lookup d (clearPair d m i c) k = 0 := by
  unfold clearPair
  rcases hk with rfl | rfl
  · rw [lookup_store_other _ _ _ (by omega), lookup_store_same]
  · rw [lookup_store_same]

theorem lookup_clearedCells {d : Nat → ℚ} (m : Sparse ℚ) {i c k : Nat} (hi : i < 512) (hc : c < 529)
    (hk : k = 2 * (531 * i + c) ∨ k = 2 * (531 * i + c) + 1) : lookup d (clearedCells d m) k = 0 := by
  have hkeep (m : Sparse ℚ) (i c : Nat) := lookup_clearPair_zero (d := d) (m := m) (k := k) i c
  refine forEach_establishes (P := fun m => lookup d m k = 0) (fun m j h => ?_) (fun m => ?_) (List.mem_range.mpr hi) m
  · exact forEach_keeps (fun m c => hkeep m j c) _ h
  · exact forEach_establishes (P := fun m => lookup d m k = 0) (fun m c => hkeep m i c)
      (fun m => lookup_clearPair m i c hk) (List.mem_range.mpr hc) m

theorem pairLevel_cleared {k : Bank} {b i c : Nat} (m : Sparse ℚ) (hk : k.cells = clearedCells (cellReset x a b) m)
    (hi : i < 512) (hc : c < 529) : k.pairLevel x a b i c = 0 := by
  unfold Bank.pairLevel
  dsimp only
  rw [hk, lookup_clearedCells m hi hc (.inl rfl), lookup_clearedCells m hi hc (.inr rfl), sub_zero]

theorem bank_setBank (y : Arr) (b : Nat) (k : Bank) : (y.setBank b k).bank b = k := by
  unfold Arr.bank Arr.setBank
  split <;> rfl

theorem cells_of_lasting {y z : Arr} (h : y.lasting = z.lasting) (b : Nat) : (y.bank b).cells = (z.bank b).cells := by
  simp only [Arr.lasting, Prod.mk.injEq] at h
  obtain ⟨⟨h0, h1⟩, -⟩ := h
  unfold Arr.bank
  split
  · exact h0
  · exact h1

/-- The row-by-row work of a rewrite leaves its clear behind. -/
theorem prgState_endRows : (s.endRows x a).prgState x a ≠ 1 := by
  unfold State.endRows
  extract_lets y b lim past k noted retired checked
  split
  · next h => rw [h]; decide
  · rw [State.prgState, fld_setFld_same _ _ _ (by simp) (by simp)]
    exact (by decide : 3 % 2 ^ 4 ≠ 1)

theorem prgState_advanceRow (h : s.prgState x a ≠ 1) (row : Nat) : (s.advanceRow x a row).prgState x a ≠ 1 := by
  unfold State.advanceRow
  extract_lets y b next
  split
  · exact prgState_endRows
  · refine Eq.trans_ne ?_ h
    exact fld_setFld_other _ (F.ARR_PRGSTAT_STATE x a) _ _ (by simp) (by simp) (.inr (.inr (by simp)))

/-- What BANK_CLEAR does once the cells are at level 0: the wear of the clear, and the rows that follow. -/
theorem clearedRows_spec (hx : x < 512) (b : Nat) (cs : List (Nat × Nat)) :
    (((s.wearColumns x a b cs).setFld (F.ARR_PRGSTAT_STATE x a) 2).advanceRow x a 0).prgState x a ≠ 1 ∧
      ((((s.wearColumns x a b cs).setFld (F.ARR_PRGSTAT_STATE x a) 2).advanceRow x a 0).arr x a).lasting =
        (s.arr x a).lasting := by
  have hwear := (within_wearColumns (s := s) (a := a) hx b cs).convOn
  refine ⟨prgState_advanceRow ?_ 0, ((hwear.trans (within_prgState 2)).trans (within_advanceRow hx 0)).own⟩
  rw [State.prgState, fld_setFld_same _ _ _ (by simp) (by simp)]
  exact (by decide : 2 % 2 ^ 4 ≠ 1)

/-- BANK_CLEAR of a rewrite that stands in its clear (R175, R178). -/
theorem exec_bankClear (hon : s.power.on = true) (hx : x < 512) (hstate : s.prgState x a = 1) (htime : s.arrayTime = true)
    (hdfwd : s.dfwd = false) (hheld : s.arrayHeld = false) (hcal : s.calibrating x a = false)
    (hsusp : s.fld (F.ARR_PRGSTAT_SUSP x a) = 0) :
    ∃ t, exec (.bankClear x a) s = .next t ∧ t.prgState x a ≠ 1 ∧
      ∀ i < 512, ∀ c < 529, ((t.arr x a).bank (s.arr x a).rew.bank).pairLevel x a (s.arr x a).rew.bank i c = 0 := by
  change ∃ t, execBankClear x a s = .next t ∧ _
  unfold execBankClear
  refine act_next hon fun t ht => ?_
  have hsusp' : s.flag (F.ARR_PRGSTAT_SUSP x a) = false := by simp [State.flag, hsusp]
  rw [hstate, htime, hdfwd, hheld, hcal, hsusp'] at ht
  simp only [decide_true, Bool.not_false, Bool.and_self, if_true] at ht
  generalize (s.arr x a).rew.bank = b at ht ⊢
  generalize hy : (s.arr x a).setBank b _ = y at ht
  have hcells : (y.bank b).cells = clearedCells (cellReset x a b) ((s.arr x a).bank b).cells := by
    simp only [← hy, bank_setBank, clearedCells, clearPair]
  obtain ⟨hrows, hlasting⟩ := clearedRows_spec (s := s.putArr x a y) (a := a) hx b ((List.range 529).map fun c => (c, 32))
  rw [arr_putArr] at hlasting
  refine ⟨by rw [State.prgState, ht.fld]; exact hrows, fun i hi c hc => ?_⟩
  rw [arr_congr ht.units.2.2]
  exact pairLevel_cleared _ ((cells_of_lasting hlasting b).trans hcells) hi hc

/-! ### The cycle and the suspension (R169, R176, R179) -/

theorem length_admissions_le (s : State) (x : Nat) : (s.admissions x).length ≤ 3 := by
  unfold State.admissions
  exact (List.length_take_le ..).trans (Nat.sub_le ..)

theorem units_putTileRec (s : State) (x : Nat) (y : Tile) :
    (s.putTileRec x y).regs = s.regs ∧ (s.putTileRec x y).mem = s.mem ∧ (s.putTileRec x y).arrs = s.arrs := ⟨rfl, rfl, rfl⟩

/-- A tile's arrays after the parts of those that program now. -/
def State.programmed (s : State) (x : Nat) : State :=
  s.cycles x (fun a => (s.admissions x).contains a) ((List.range 8).filter (fun a => s.programming x a))

/-- PROGRAMMING_CYCLE ends with those parts, and with the array that the pump admitted last (R169, R176). -/
theorem exec_programmingCycle_programmed (s : State) (x : Nat) (hon : s.power.on = true) :
    ∃ t, exec (.programmingCycle x) s = .next t ∧ t.regs = (s.programmed x).regs ∧ t.mem = (s.programmed x).mem ∧
      t.arrs = (s.programmed x).arrs ∧ ∀ a, (s.admissions x).getLast? = some a → (t.tile x).pump = a := by
  obtain ⟨t, ht, hb⟩ := act_became (s := s) (fun s =>
    match (s.admissions x).getLast? with
    | some a => (s.programmed x).putTileRec x { (s.programmed x).tile x with pump := a }
    | none => s.programmed x) hon
  refine ⟨t, ht, ?_⟩
  dsimp only at hb
  generalize s.programmed x = u at hb ⊢
  cases hadm : (s.admissions x).getLast? with
  | none =>
    rw [hadm] at hb
    obtain ⟨hregs, hmem, harrs⟩ := hb.units
    exact ⟨hregs, hmem, harrs, fun _ h => nomatch h⟩
  | some a =>
    rw [hadm] at hb
    obtain ⟨hregs, hmem, harrs⟩ := hb.units
    obtain ⟨hpregs, hpmem, hparrs⟩ := units_putTileRec u x { u.tile x with pump := a }
    refine ⟨hregs.trans hpregs, hmem.trans hpmem, harrs.trans hparrs, fun c h => ?_⟩
    rw [hb.tile, tile_putTileRec]
    exact Option.some.inj h

/-- PROGRAMMING_CYCLE (R169, R176) on the arrays of its tile and beside them. -/
theorem exec_programmingCycle (hon : s.power.on = true) (hx : x < 512) :
    ∃ t, exec (.programmingCycle x) s = .next t ∧ (s.admissions x).length ≤ 3 ∧
      (∀ a, (s.admissions x).getLast? = some a → (t.tile x).pump = a) ∧
      (∀ a < 8, s.programming x a = true → t.fld (F.ARR_STAT_CONV_ON x a) = 1 ∧
        ∀ n < 3, (s.arr x a).rew.phase = .closing n → (t.arr x a).rew.phase = .closing (n + 1)) ∧
      (∀ y a, y < 512 → a < 8 → (y ≠ x ∨ s.programming x a = false) →
        (t.arr y a).bank0 = (s.arr y a).bank0 ∧ (t.arr y a).bank1 = (s.arr y a).bank1) ∧ t.mem = s.mem := by
  obtain ⟨t, ht, hregs, hmem, harrs, hpump⟩ := exec_programmingCycle_programmed s x hon
  obtain ⟨humem, huarrs, -, hrun⟩ := cycles_spec hx (fun a => (s.admissions x).contains a)
    (es := (List.range 8).filter (fun a => s.programming x a)) (List.nodup_range.filter _)
    (fun e he => List.mem_range.mp (List.mem_filter.mp he).1) s
  refine ⟨t, ht, length_admissions_le s x, hpump, fun a ha hprog => ?_, fun y a _ ha hout => ?_, hmem.trans humem⟩
  · rw [fld_congr hregs, arr_congr harrs]
    exact hrun a (List.mem_filter.mpr ⟨List.mem_range.mpr ha, hprog⟩)
  · have hsame := huarrs y a ha (hout.imp_right fun h hin => by simp [h] at hin)
    rw [arr_congr harrs, State.programmed, hsame]
    exact ⟨rfl, rfl⟩

/-- PROGRAMMING_SUSPEND of an array that programs, and is not suspended yet (R179). -/
theorem exec_programmingSuspend (hon : s.power.on = true) (hbusy : s.fld (F.ARR_STAT_IDLEBUSY x a) = 1)
    (hsusp : s.fld (F.ARR_PRGSTAT_SUSP x a) = 0) :
    ∃ t, exec (.programmingSuspend x a) s = .next t ∧
      Changes s t [(F.ARR_PRGSTAT_SUSP x a, 1), (F.ARR_CNT_SUSP_COUNT x a, satAdd 32 (s.fld (F.ARR_CNT_SUSP_COUNT x a)) 1)] := by
  have hgo : (s.flag (F.ARR_STAT_IDLEBUSY x a) && !s.flag (F.ARR_PRGSTAT_SUSP x a)) = true := by simp [State.flag, hbusy, hsusp]
  change ∃ t, execProgrammingSuspend x a s = .next t ∧ _
  unfold execProgrammingSuspend State.suspendPrg
  refine act_changes hon ?_ (by simp [Apart])
  rw [if_pos hgo, State.bump, State.setFlag,
    fld_setFld_other _ (F.ARR_CNT_SUSP_COUNT x a) (F.ARR_PRGSTAT_SUSP x a) _ (by simp) (by simp) (.inl (by simp))]
  rfl

/-! ### Refresh (R192, R193) -/

theorem mem_allArrays {y c : Nat} (hy : y < 512) (hc : c < 8) : (y, c) ∈ allArrays :=
  List.mem_map.mpr ⟨8 * y + c, List.mem_range.mpr (by omega), Prod.ext (by simp only; omega) (by simp only; omega)⟩

theorem lt_of_mem_allArrays {k : Nat × Nat} (h : k ∈ allArrays) : k.1 < 512 ∧ k.2 < 8 := by
  obtain ⟨n, hn, rfl⟩ := List.mem_map.mp h
  have := List.mem_range.mp hn
  simp only
  omega

/-- A refresh requested for every array. -/
theorem refreshAll_spec {t : State} (ht : Became s (forEach allArrays s fun s k => s.requestRefresh k.1 k.2) t) :
    ∀ y c, y < 512 → c < 8 → (t.arr y c).refresh = true ∧ (t.arr y c).bank0.oweRefresh = true ∧
      (t.arr y c).bank1.oweRefresh = true ∧ t.fld (F.ARR_BSTAT_RVDUE y c) = 1 ∧ (t.tile y).calWant = true ∧
      t.fld (F.ARR_PRGSTAT_STATE y c) = s.fld (F.ARR_PRGSTAT_STATE y c) := by
  intro y c hy hc
  obtain ⟨howed, hstate⟩ := requestRefreshes_spec (fun _ => lt_of_mem_allArrays) s (y := y) hc
  obtain ⟨hrefresh, hbank0, hbank1, hdue, hwant⟩ := howed (.inl (mem_allArrays hy hc))
  rw [arr_congr ht.units.2.2, ht.tile, ht.fld, ht.fld]
  exact ⟨hrefresh, hbank0, hbank1, hdue, hwant, hstate⟩

/-- RVNOW, and the interval's end where HUB_PRGCFG.RVINT is not 0, request a refresh of every array. -/
theorem exec_refreshAll {c : Instr}
    (hc : c = .refreshIntervalExpiry ∧ s.power.on = true ∧ s.fld F.HUB_PRGCFG_RVINT ≠ 0 ∨ c = .rvnow ∧ Reach s R.HUB_PRGCMD) :
    ∃ t, exec c s = .next t ∧ Became s (forEach allArrays s fun s k => s.requestRefresh k.1 k.2) t := by
  rcases hc with ⟨rfl, hon, hint⟩ | ⟨rfl, hreach⟩
  · change ∃ t, execRefreshIntervalExpiry s = .next t ∧ _
    unfold execRefreshIntervalExpiry
    refine act_next hon fun t ht => ?_
    rwa [if_neg hint] at ht
  · change ∃ t, execRvnow s = .next t ∧ _
    exact hostReg_became _ hreach

/-- Without an interval its end is nothing (R192). -/
theorem exec_refreshIntervalExpiry_zero (h : s.fld F.HUB_PRGCFG_RVINT = 0) : exec .refreshIntervalExpiry s = .next s := by
  change execRefreshIntervalExpiry s = _
  unfold execRefreshIntervalExpiry
  cases hon : s.power.on with
  | false => exact act_off _ _ hon
  | true => exact act_eq hon (if_pos h) rfl rfl rfl

end Sys2Proof.Machine
end

section
/-! SUPPORT. A logical column retired to a free remap entry (R195 to R200).
-/

namespace Sys2Proof.Machine

variable {s u v : State} {x a b j m n : Nat}

/-! ### Remap entries (R195 to R200) -/

/-- A remap entry as the retirement of logical column j leaves it: DEAD where it served the column. -/
def deadened (j : Nat) (w : W32) : W32 := if bit w 31 && !bit w 29 && bits w 8 0 == j then putBits w 30 29 1 else w

theorem bit_deadened (w : W32) : bit (deadened j w) 31 = bit w 31 := by
  unfold deadened
  split
  · rw [bit, bit, bits_putBits_other _ _ (by omega) (by omega) (.inr (by omega))]
  · rfl

theorem remapEntry_putRemap_same (s : State) (x a b n : Nat) (w : W32) : (s.putRemap x a b n w).remapEntry x a b n = w :=
  rd_wr_same ..

theorem remapEntry_putRemap_other (w : W32) (h : m ≠ n) : (s.putRemap x a b n w).remapEntry x a b m = s.remapEntry x a b m := by
  refine rd_wr_other s w ?_
  by_cases hb : b = 0
  all_goals
    simp only [hb, if_true, if_false, R.ARR_REMAP0, R.ARR_REMAP1]
    omega

/-- A field of another register than the remap entries. -/
theorem fld_putRemap (f : Fld) (w : W32) (h : ∀ n < 16, f.off ≠ R.ARR_REMAP0 x a n ∧ f.off ≠ R.ARR_REMAP1 x a n) (hn : n < 16) :
    (s.putRemap x a b n w).fld f = s.fld f := by
  refine fld_wr_other s f w ?_
  split
  · exact (h n hn).1
  · exact (h n hn).2

theorem pack_entry (cause j : Nat) : pack [(31, 1), (20, cause), (0, j)] = BitVec.ofNat 32 (2 ^ 31 + cause * 2 ^ 20 + j) := by
  simp only [pack, packNat]
  congr 1
  omega

/-- The retirement's look at one remap entry. -/
def State.deadenEntry (s : State) (x a b j n : Nat) : State :=
  if bit (s.remapEntry x a b n) 31 && !bit (s.remapEntry x a b n) 29 && bits (s.remapEntry x a b n) 8 0 == j then
    s.putRemap x a b n (putBits (s.remapEntry x a b n) 30 29 1)
  else s

theorem remapEntry_deadenEntry (s : State) (x a b j n m : Nat) : (s.deadenEntry x a b j n).remapEntry x a b m =
    if m = n then deadened j (s.remapEntry x a b m) else s.remapEntry x a b m := by
  unfold State.deadenEntry deadened
  by_cases hm : m = n
  · subst hm
    rw [if_pos rfl]
    split
    · exact remapEntry_putRemap_same ..
    · rfl
  · rw [if_neg hm]
    split
    · exact remapEntry_putRemap_other _ hm
    · rfl

theorem regsOnly_deadenEntry (h : RegsOnly s u) (x a b j n : Nat) : RegsOnly s (u.deadenEntry x a b j n) := .ite (h.wr ..) h

theorem fld_deadenEntry (f : Fld) (h : ∀ n < 16, f.off ≠ R.ARR_REMAP0 x a n ∧ f.off ≠ R.ARR_REMAP1 x a n) (hn : n < 16) :
    (s.deadenEntry x a b j n).fld f = s.fld f := by
  unfold State.deadenEntry
  split
  · exact fld_putRemap f _ h hn
  · rfl

/-- The spares that served a retired column, turned DEAD. -/
def State.deadenAll (s : State) (x a b j : Nat) (es : List Nat) : State := forEach es s (fun s n => s.deadenEntry x a b j n)

theorem regsOnly_deadenAll (es : List Nat) (h : RegsOnly s u) : RegsOnly s (u.deadenAll x a b j es) :=
  forEach_keeps (P := RegsOnly s) (fun _ n hu => regsOnly_deadenEntry hu x a b j n) es h

theorem fld_deadenAll (f : Fld) (h : ∀ n < 16, f.off ≠ R.ARR_REMAP0 x a n ∧ f.off ≠ R.ARR_REMAP1 x a n) {es : List Nat}
    (hes : ∀ e ∈ es, e < 16) (s : State) : (s.deadenAll x a b j es).fld f = s.fld f := by
  induction es generalizing s with
  | nil => rfl
  | cons e es ih =>
    obtain ⟨he, hes⟩ := List.forall_mem_cons.mp hes
    exact (ih hes _).trans (fld_deadenEntry f h he)

theorem remapEntry_deadenAll {es : List Nat} (hnodup : es.Nodup) (s : State) : (s.deadenAll x a b j es).remapEntry x a b m =
    if m ∈ es then deadened j (s.remapEntry x a b m) else s.remapEntry x a b m := by
  induction es generalizing s with
  | nil => rfl
  | cons e es ih =>
    obtain ⟨he, hnodup⟩ := List.nodup_cons.mp hnodup
    refine (ih hnodup (s.deadenEntry x a b j e)).trans ?_
    rw [remapEntry_deadenEntry]
    by_cases hm : m = e
    · subst hm
      rw [if_neg he, if_pos rfl, if_pos List.mem_cons_self]
    · simp only [hm, if_false, List.mem_cons, false_or]

/-- The lowest free entry is none of those that turn DEAD. -/
theorem find?_free (hn : n < 16) (hfree : bit (s.remapEntry x a b n) 31 = false)
    (hused : ∀ m < n, bit (s.remapEntry x a b m) 31 = true) :
    (List.range 16).find? (fun n => !bit ((s.deadenAll x a b j (List.range 16)).remapEntry x a b n) 31) = some n := by
  have hbit (m : Nat) : bit ((s.deadenAll x a b j (List.range 16)).remapEntry x a b m) 31 = bit (s.remapEntry x a b m) 31 := by
    rw [remapEntry_deadenAll List.nodup_range]
    split
    · exact bit_deadened _
    · rfl
  refine List.find?_range_eq_some.mpr ⟨?_, List.mem_range.mpr hn, fun m hm => ?_⟩
  · rw [hbit, hfree]
    rfl
  · rw [hbit, hused m hm]
    rfl

/-- A logical column retired to a free entry (R196 to R199). -/
theorem retire_free (hn : n < 16) (hfree : bit (s.remapEntry x a b n) 31 = false)
    (hused : ∀ m < n, bit (s.remapEntry x a b m) 31 = true) (cause : Nat) :
    s.retire x a b j cause = (((((s.deadenAll x a b j (List.range 16)).putRemap x a b n (pack [(31, 1), (20, cause), (0, j)])).bump
      (F.ARR_CNT_REMAP_COUNT x a) 1).recordFault 0x02 0x2 (8 * x + a) 0).saveRemap x a b) := by
  have hfind := find?_free (j := j) hn hfree hused
  unfold State.retire
  change (match (List.range 16).find? (fun n => !bit ((s.deadenAll x a b j (List.range 16)).remapEntry x a b n) 31) with
    | some n => _
    | none => _) = _
  rw [hfind]
  rfl

/-- From s to u only registers and the ledger changed. -/
def LedgerOnly (s u : State) : Prop := ∃ r l, u = { s with regs := r, ledger := l }

theorem RegsOnly.ledgerPut (h : RegsOnly s u) (src type key : Nat) (value : List Byte) :
    LedgerOnly s (u.ledgerPut src type key value) ∧ (u.ledgerPut src type key value).regs = u.regs := by
  obtain ⟨r, rfl⟩ := h
  unfold State.ledgerPut
  dsimp only
  split
  · exact ⟨⟨r, _, rfl⟩, rfl⟩
  · split
    · exact ⟨⟨r, _, rfl⟩, rfl⟩
    · exact ⟨⟨r, _, rfl⟩, rfl⟩

theorem LedgerOnly.became {t : State} (hu : LedgerOnly s u) (h : Became s u t) :
    t = { s with regs := t.regs, ledger := t.ledger, msix := t.msix } := by
  obtain ⟨r, l, rfl⟩ := hu
  obtain ⟨n, rfl⟩ := h
  rfl

theorem RegsOnly.recordFault (h : RegsOnly s u) (cls ukind unit acc : Nat) : RegsOnly s (u.recordFault cls ukind unit acc) := by
  obtain ⟨r, rfl⟩ := h
  obtain ⟨q, hq⟩ := recordFault_only { s with regs := r } cls ukind unit acc
  exact ⟨q, hq⟩

/-- The count and the fault's record of a retirement leave the remap entries. -/
theorem remapEntry_counted (u : State) : ((u.bump (F.ARR_CNT_REMAP_COUNT x a) 1).recordFault 0x02 0x2 (8 * x + a) 0).remapEntry x a b m =
    u.remapEntry x a b m := by
  by_cases hb : b = 0
  all_goals
    simp only [State.remapEntry, hb, if_true, if_false]
    refine ((tileRegsKept_recordFault ..).rd _ ?_).trans (rd_wr_other u _ ?_)
    all_goals
      simp only [R.ARR_REMAP0, R.ARR_REMAP1]
      omega

/-- REMAP of a column with a free entry left (R195 to R200). -/
theorem exec_remap (hon : s.power.on = true) (hn : n < 16) (hfree : bit (s.remapEntry x a b n) 31 = false)
    (hused : ∀ m < n, bit (s.remapEntry x a b m) 31 = true) (cause : Nat) :
    ∃ t, exec (.remap x a b j cause) s = .next t ∧ t.remapEntry x a b n = pack [(31, 1), (20, cause), (0, j)] ∧
      (∀ m < 16, m ≠ n → t.remapEntry x a b m = deadened j (s.remapEntry x a b m)) ∧
      t.fld (F.ARR_CNT_REMAP_COUNT x a) = satAdd 32 (s.fld (F.ARR_CNT_REMAP_COUNT x a)) 1 ∧
      t = { s with regs := t.regs, ledger := t.ledger, msix := t.msix } := by
  change ∃ t, execRemap x a b j cause s = .next t ∧ _
  unfold execRemap
  refine act_next hon fun t ht => ?_
  rw [retire_free hn hfree hused cause] at ht
  have hdead : RegsOnly s (s.deadenAll x a b j (List.range 16)) := regsOnly_deadenAll _ (.refl s)
  have hentry (m : Nat) (hm : m < 16) : (s.deadenAll x a b j (List.range 16)).remapEntry x a b m = deadened j (s.remapEntry x a b m) := by
    rw [remapEntry_deadenAll List.nodup_range, if_pos (List.mem_range.mpr hm)]
  have hcount := fld_deadenAll (x := x) (a := a) (b := b) (j := j) (F.ARR_CNT_REMAP_COUNT x a)
    (fun n hn => by simp only [R.ARR_REMAP0, R.ARR_REMAP1]; omega) (es := List.range 16) (fun _ => List.mem_range.mp) s
  generalize s.deadenAll x a b j (List.range 16) = dead at ht hdead hentry hcount
  generalize hw : pack [(31, 1), (20, cause), (0, j)] = w at ht
  have hput : RegsOnly s (dead.putRemap x a b n w) := hdead.wr ..
  have hfld := fld_putRemap (s := dead) (x := x) (a := a) (b := b) (F.ARR_CNT_REMAP_COUNT x a) w
    (fun n hn => by simp only [R.ARR_REMAP0, R.ARR_REMAP1]; omega) hn
  obtain ⟨hledger, hregs⟩ := ((hput.bump (F.ARR_CNT_REMAP_COUNT x a) 1).recordFault 0x02 0x2 (8 * x + a) 0).ledgerPut 0 0x22
    (16 * x + 2 * a + b) (State.remapBytes _ x a b)
  have hall (m : Nat) : t.remapEntry x a b m = (dead.putRemap x a b n w).remapEntry x a b m := by
    refine Eq.trans ?_ (remapEntry_counted _)
    exact rd_congr (ht.units.1.trans hregs) _
  refine ⟨?_, fun m hm hne => ?_, ?_, hledger.became ht⟩
  · rw [hall, remapEntry_putRemap_same]
  · rw [hall, remapEntry_putRemap_other _ hne, hentry m hm]
  · rw [fld_congr (ht.units.1.trans hregs), State.fld,
      (tileRegsKept_recordFault ..).rd _ (by simp only; omega)]
    refine (fld_bump_same _ _ _ (by simp) (by simp)).trans ?_
    rw [hfld, hcount]
    rfl

end Sys2Proof.Machine
end

section
open Sys2Proof Sys2Proof.Machine

/-- Settles O42: a rewrite's start and a re-verify's set the fields that they show; the clear's cells outlast its wear and the rows
that follow; an array's cycle, and its budget as a refresh is requested, leave what lies around the array; and the retirement
leaves bit 31 of the entries that it turns DEAD, so that the lowest free entry stays the lowest. -/
theorem rewriteRefreshAndRemap : Obligations.RewriteRefreshAndRemap := by
  unfold Obligations.RewriteRefreshAndRemap
  refine ⟨⟨fun s x a b hon _ _ hb hcopied hawaited howe hdfwd htime hcal hstate =>
      exec_rewriteStart hon hb hcopied hawaited howe hdfwd htime hcal hstate,
    fun s x a hon hx _ hstate htime hdfwd hheld hcal hsusp _ => exec_bankClear hon hx hstate htime hdfwd hheld hcal hsusp,
    fun s x hon hx => exec_programmingCycle hon hx,
    fun s x a hon _ _ hbusy hsusp => exec_programmingSuspend hon hbusy hsusp,
    fun s x a hon _ _ hreverify htime hdfwd hcal => exec_activeBankReverify hon hreverify htime hdfwd hcal⟩,
    fun s c hc => ?_, fun s h => exec_refreshIntervalExpiry_zero h, fun s x a b j cause n hon _ _ _ _ _ hn hfree hused => ?_⟩
  · obtain ⟨t, ht, hb⟩ := exec_refreshAll hc
    exact ⟨t, ht, refreshAll_spec hb⟩
  · obtain ⟨t, ht, hentry, hothers, hcount, hframe⟩ := exec_remap (j := j) hon hn hfree hused cause
    exact ⟨t, ht, hentry.trans (pack_entry cause j), hothers, hcount, hframe⟩
end

section
/-! SUPPORT. What the settling of an array's rewrite leaves (R159, R181, R194, R211, R226, R551): device memory, the row registers and
the busy count of its tile's OPE, the factors that its banks have and the windows of its calibration.
-/

namespace Sys2Proof.Machine

variable {s u v : State} {x a : Nat}

/-! ### The relation -/

/-- The factors that an array's banks have, with their ranks (R209, R228), and the windows of its calibration (R549). -/
def Arr.results (y : Arr) : (Bool × Nat) × (Bool × Nat) × Nat :=
  ((y.bank0.factors, y.bank0.rank), (y.bank1.factors, y.bank1.rank), y.cal.windows)

/-- The busy count of tile x's OPE (R259) and the calibration state of array a (R556). -/
def BusyOrCal (x a : Nat) (f : Fld) : Prop :=
  f = F.OPE_CNT_BUSY_LO_COUNT x ∨ f = F.OPE_CNT_BUSY_HI_COUNT x ∨ f = F.ARR_CALSTAT_STATE x a

/-- From s to u the results of array a of tile x, its OPE's row registers and busy count and device memory are as before, and its
calibration state is too, or shows that none is in progress. -/
structure SettleFrame (x a : Nat) (s u : State) : Prop where
  mem : u.mem = s.mem
  keep : (u.tile x).keep = (s.tile x).keep
  results : (u.arr x a).results = (s.arr x a).results
  busyLo : u.fld (F.OPE_CNT_BUSY_LO_COUNT x) = s.fld (F.OPE_CNT_BUSY_LO_COUNT x)
  busyHi : u.fld (F.OPE_CNT_BUSY_HI_COUNT x) = s.fld (F.OPE_CNT_BUSY_HI_COUNT x)
  cal : u.fld (F.ARR_CALSTAT_STATE x a) = s.fld (F.ARR_CALSTAT_STATE x a) ∨ u.fld (F.ARR_CALSTAT_STATE x a) = 0

theorem SettleFrame.refl (s : State) : SettleFrame x a s s := ⟨rfl, rfl, rfl, rfl, rfl, .inl rfl⟩

theorem SettleFrame.trans (h : SettleFrame x a s u) (h' : SettleFrame x a u v) : SettleFrame x a s v where
  mem := h'.mem.trans h.mem
  keep := h'.keep.trans h.keep
  results := h'.results.trans h.results
  busyLo := h'.busyLo.trans h.busyLo
  busyHi := h'.busyHi.trans h.busyHi
  cal := by
    rcases h'.cal with hv | hv
    · rw [hv]
      exact h.cal
    · exact .inr hv

theorem SettleFrame.ite {p : Prop} [Decidable p] (h : SettleFrame x a s u) (h' : SettleFrame x a s v) :
    SettleFrame x a s (if p then u else v) := by
  split
  · exact h
  · exact h'

theorem SettleFrame.forEach {α : Type} {f : State → α → State} (es : List α) (h : ∀ s e, SettleFrame x a s (f s e)) (s : State) :
    SettleFrame x a s (forEach es s f) :=
  forEach_keeps (P := SettleFrame x a s) (fun m e hm => hm.trans (h m e)) es (.refl s)

/-! ### Registers and records -/

/-- Registers and records that are none of the array's results. -/
theorem SettleFrame.of_units (hmem : u.mem = s.mem) (hkeep : (u.tile x).keep = (s.tile x).keep)
    (hresults : (u.arr x a).results = (s.arr x a).results) (hflds : ∀ f, BusyOrCal x a f → u.fld f = s.fld f) :
    SettleFrame x a s u :=
  ⟨hmem, hkeep, hresults, hflds _ (.inl rfl), hflds _ (.inr (.inl rfl)), .inl (hflds _ (.inr (.inr rfl)))⟩

/-- A field of other registers than the results', or of other bits of ARR_CALSTAT. -/
theorem beside_busyOrCal {g : Fld} (hwidth : g.lo ≤ g.hi ∧ g.hi < 32 := by simp)
    (h : g.off ≠ (F.OPE_CNT_BUSY_LO_COUNT x).off ∧ g.off ≠ (F.OPE_CNT_BUSY_HI_COUNT x).off ∧
      (g.off = (F.ARR_CALSTAT_STATE x a).off → g.hi < 28) := by simp only; omega) : Beside (BusyOrCal x a) g := by
  refine ⟨hwidth, fun f hf => ?_⟩
  obtain ⟨hlo, hhi, hcal⟩ := h
  rcases hf with rfl | rfl | rfl
  · exact .inl hlo.symm
  · exact .inl hhi.symm
  · by_cases hoff : g.off = (F.ARR_CALSTAT_STATE x a).off
    · exact .inr (.inr (hcal hoff))
    · exact .inl (Ne.symm hoff)

theorem settleFrame_setFld {g : Fld} (n : Nat) (h : Beside (BusyOrCal x a) g) : SettleFrame x a s (s.setFld g n) :=
  .of_units rfl rfl rfl fun f hf => fld_setFld_other s f g n h.width.1 h.width.2 (h.apart f hf)

theorem settleFrame_setFlag {g : Fld} (b : Bool) (h : Beside (BusyOrCal x a) g) : SettleFrame x a s (s.setFlag g b) :=
  settleFrame_setFld _ h
theorem settleFrame_event {g : Fld} (h : Beside (BusyOrCal x a) g) : SettleFrame x a s (s.event g) := settleFrame_setFld _ h
theorem settleFrame_bump {g : Fld} (n : Nat) (h : Beside (BusyOrCal x a) g) : SettleFrame x a s (s.bump g n) :=
  settleFrame_setFld _ h

theorem settleFrame_putArr (y : Arr) (h : y.results = (s.arr x a).results) : SettleFrame x a s (s.putArr x a y) :=
  .of_units rfl rfl ((congrArg Arr.results (arr_putArr ..)).trans h) fun _ _ => rfl

theorem settleFrame_putTileRec (y : Tile) (h : y.keep = (s.tile x).keep) : SettleFrame x a s (s.putTileRec x y) :=
  .of_units rfl ((congrArg Tile.keep (tile_putTileRec ..)).trans h) rfl fun _ _ => rfl

theorem BusyOrCal.off_tile {f : Fld} (h : BusyOrCal x a f) : 0x1000000 ≤ f.off := by
  rcases h with rfl | rfl | rfl
  all_goals
    simp only
    omega

/-- What changes no register of a tile leaves the results. -/
theorem TileRegsKept.settleFrame (h : TileRegsKept s u) (hmem : u.mem = s.mem) (harrs : u.arrs = s.arrs)
    (htiles : u.tiles = s.tiles) : SettleFrame x a s u :=
  .of_units hmem (by rw [State.tile, htiles]; rfl) (by rw [arr_congr harrs]) fun f hf => by
    simp only [State.fld, h.rd _ hf.off_tile]

theorem settleFrame_recordFault (cls ukind unit acc : Nat) : SettleFrame x a s (s.recordFault cls ukind unit acc) := by
  obtain ⟨r, hr⟩ := recordFault_only s cls ukind unit acc
  exact (tileRegsKept_recordFault ..).settleFrame (by rw [hr]) (by rw [hr]) (by rw [hr])

theorem settleFrame_raiseFault (cls ukind unit acc : Nat) (halt : Bool) :
    SettleFrame x a s (s.raiseFault cls ukind unit acc halt) :=
  (tileRegsKept_raiseFault ..).settleFrame (mem_raiseFault ..) (units_raiseFault ..).1 (units_raiseFault ..).2

theorem settleFrame_inject (point unit sub col acc : Nat) : SettleFrame x a s (s.inject point unit sub col acc).2 := by
  have h := behindFabric_inject s point unit sub col acc
  exact (tileRegsKept_inject ..).settleFrame (congrArg (·.2.1) h) (congrArg (·.2.2.2.2) h) (congrArg (·.2.2.2.1) h)

theorem settleFrame_ledgerPut (src type key : Nat) (value : List Byte) :
    SettleFrame x a s (s.ledgerPut src type key value) := by
  unfold State.ledgerPut
  dsimp only
  refine .ite (.refl s) (.ite ?_ ?_)
  all_goals exact .of_units rfl rfl rfl fun _ _ => rfl

/-! ### Records and tests of a tile (R566 to R571, R628, R630) -/

theorem settleFrame_wantRed (n : Nat) : SettleFrame x a s (s.wantRed x n) :=
  .ite (settleFrame_setFld _ beside_busyOrCal) (settleFrame_putTileRec _ rfl)

theorem settleFrame_startTest (r : TestReq) : SettleFrame x a s (s.startTest x r) := by
  have hstat (w : W32) : SettleFrame x a s
      ((s.putTileRec x { s.tile x with test := some r, redFailed := false }).wr (R.TIL_TESTSTAT x) w) := by
    refine (settleFrame_putTileRec { s.tile x with test := some r, redFailed := false } rfl).trans ?_
    refine .of_units rfl rfl rfl fun f hf => fld_wr_other _ f w ?_
    rcases hf with rfl | rfl | rfl
    all_goals
      simp only [R.TIL_TESTSTAT]
      omega
  exact .ite ((hstat _).trans (settleFrame_wantRed _)) (hstat _)

theorem settleFrame_requestTest (kind mode array col steps : Nat) (host : Option Nat) :
    SettleFrame x a s (s.requestTest x kind mode array col steps host) := by
  unfold State.requestTest
  dsimp only
  split
  · exact settleFrame_startTest _
  · exact .ite (settleFrame_putTileRec _ rfl) (.ite (settleFrame_putTileRec _ rfl) (settleFrame_bump _ beside_busyOrCal))

theorem settleFrame_folioPut (hx : x < 512) (type flags layer oper unit acc : Nat) (payload : List Byte) :
    SettleFrame x a s (s.folioPut x type flags layer oper unit acc payload) := by
  unfold State.folioPut State.foldOcc State.paid
  extract_lets r y seq z
  have hseq : SettleFrame x a s seq := settleFrame_setFld _ beside_busyOrCal
  split
  · refine hseq.trans ((settleFrame_putTileRec _ ?_).trans (settleFrame_setFld _ beside_busyOrCal))
    simp only [z]
    split <;> rfl
  · refine hseq.trans (((settleFrame_putTileRec _ ?_).trans (settleFrame_bump _ beside_busyOrCal)).trans
      (settleFrame_bump _ beside_busyOrCal))
    rfl

/-! ### Cover and budget (R226, R252, R583) -/

theorem settleFrame_coverStat : SettleFrame x a s (s.coverStat x) := by
  unfold State.coverStat
  dsimp only
  exact (SettleFrame.trans (settleFrame_setFld _ beside_busyOrCal) (settleFrame_setFld _ beside_busyOrCal)).trans
    (.forEach _ (fun s b => settleFrame_setFlag _ beside_busyOrCal) _)

theorem settleFrame_startCover (cols : List Nat) : SettleFrame x a s (s.startCover x a cols) := by
  unfold State.startCover
  dsimp only
  refine .ite (SettleFrame.trans (settleFrame_putArr _ ?_) settleFrame_coverStat)
    ((settleFrame_event beside_busyOrCal).trans (settleFrame_raiseFault ..))
  rfl

theorem settleFrame_leaveBudget (hx : x < 512) : SettleFrame x a s (s.leaveBudget x a) := by
  unfold State.leaveBudget
  extract_lets left
  have hleft : SettleFrame x a s left := by
    refine SettleFrame.trans ?_ (.ite (settleFrame_folioPut hx ..) (.refl _))
    exact ((settleFrame_setFlag _ beside_busyOrCal).trans (settleFrame_event beside_busyOrCal)).trans
      (settleFrame_bump _ beside_busyOrCal)
  exact .ite (hleft.trans (settleFrame_requestTest ..)) hleft

theorem settleFrame_arrayOut (hx : x < 512) : SettleFrame x a s (s.arrayOut x a) := by
  unfold State.arrayOut
  extract_lets off left y recorded put verdict
  have hoff : SettleFrame x a s off := (settleFrame_setFlag _ beside_busyOrCal).trans (settleFrame_bump _ beside_busyOrCal)
  have hleft : SettleFrame x a s left := hoff.trans (.ite (settleFrame_leaveBudget hx) (.refl _))
  have hrecorded : SettleFrame x a left recorded := settleFrame_recordFault ..
  have hput : SettleFrame x a s put := (hleft.trans hrecorded).trans (settleFrame_putArr _ hrecorded.results.symm)
  have hverdict : SettleFrame x a put verdict := by
    unfold verdict
    split
    · exact .ite (settleFrame_setFld _ beside_busyOrCal) (.refl _)
    · exact .refl _
  exact (hput.trans hverdict).trans (settleFrame_startCover _)

theorem settleFrame_budget (hx : x < 512) : SettleFrame x a s (s.budget x a) := by
  unfold State.budget
  extract_lets y was s1 s2 s3 s4
  have hshown : SettleFrame x a s s4 :=
    (((settleFrame_setFlag _ beside_busyOrCal).trans (settleFrame_setFlag _ beside_busyOrCal)).trans
      (settleFrame_setFlag _ beside_busyOrCal)).trans (settleFrame_setFlag _ beside_busyOrCal)
  split
  extract_lets s5 now left
  have htemp : SettleFrame x a s4 s5 := (settleFrame_setFlag _ beside_busyOrCal).trans (settleFrame_setFlag _ beside_busyOrCal)
  have hleft : SettleFrame x a s5 left := settleFrame_leaveBudget hx
  exact (hshown.trans htemp).trans (.ite (.ite (hleft.trans (settleFrame_arrayOut hx)) hleft)
    (settleFrame_setFlag _ beside_busyOrCal))

/-! ### The end of a rewrite (R159, R181, R193, R194, R212, R548) -/

/-- A bank replaced by one with the same factors. -/
theorem results_setBank {y : Arr} {b : Nat} {k : Bank} (hfactors : k.factors = (y.bank b).factors)
    (hrank : k.rank = (y.bank b).rank) : (y.setBank b k).results = y.results := by
  unfold Arr.bank at hfactors hrank
  unfold Arr.setBank
  by_cases hb : b = 0
  · simp only [hb, if_true] at hfactors hrank ⊢
    simp only [Arr.results, hfactors, hrank]
  · simp only [hb, if_false] at hfactors hrank ⊢
    simp only [Arr.results, hfactors, hrank]

theorem settleFrame_refreshDone (hx : x < 512) (b : Nat) : SettleFrame x a s (s.refreshDone x a b) := by
  unfold State.refreshDone
  dsimp only
  refine (settleFrame_putArr _ ?_).trans (settleFrame_budget hx)
  exact results_setBank (y := s.arr x a) (b := b) (k := { (s.arr x a).bank b with oweRefresh := false }) rfl rfl

/-- No calibration is in progress any more. -/
theorem settleFrame_calIdle : SettleFrame x a s (s.setFld (F.ARR_CALSTAT_STATE x a) 0) := by
  have hother (f : Fld) (hf : f.off ≠ (F.ARR_CALSTAT_STATE x a).off) :
      (s.setFld (F.ARR_CALSTAT_STATE x a) 0).fld f = s.fld f :=
    fld_setFld_other s f _ 0 (by simp) (by simp) (.inl hf)
  have hidle := fld_setFld_same s (F.ARR_CALSTAT_STATE x a) 0 (by simp) (by simp)
  have hunits (f : Fld) : (s.setFld f 0).mem = s.mem ∧ ((s.setFld f 0).tile x).keep = (s.tile x).keep ∧
      ((s.setFld f 0).arr x a).results = (s.arr x a).results := ⟨rfl, rfl, rfl⟩
  obtain ⟨hmem, hkeep, hresults⟩ := hunits (F.ARR_CALSTAT_STATE x a)
  exact ⟨hmem, hkeep, hresults, hother _ (by simp only; omega), hother _ (by simp only; omega),
    .inr (hidle.trans (Nat.zero_mod _))⟩

theorem settleFrame_applyTrims (active : Nat) : SettleFrame x a s (s.applyTrims x a active) := by
  unfold State.applyTrims
  extract_lets y q0 q1 put qcal qcali qavg counted
  have hput : SettleFrame x a s put := settleFrame_putArr _ rfl
  have hcounted : SettleFrame x a put counted :=
    ((((settleFrame_setFld _ beside_busyOrCal).trans (settleFrame_setFld _ beside_busyOrCal)).trans
      (settleFrame_setFld _ beside_busyOrCal)).trans (settleFrame_event beside_busyOrCal)).trans
      (settleFrame_bump _ beside_busyOrCal)
  exact (hput.trans hcounted).trans settleFrame_calIdle

theorem settleFrame_endRewrite : SettleFrame x a s (s.endRewrite x a) := by
  unfold State.endRewrite
  extract_lets y b k z put
  have hput : SettleFrame x a s put := settleFrame_putArr _ (results_setBank rfl rfl)
  exact ((hput.trans (settleFrame_setFld _ beside_busyOrCal)).trans (settleFrame_setFlag _ beside_busyOrCal)).trans
    (settleFrame_setFlag _ beside_busyOrCal)

theorem settleFrame_activeFactors : SettleFrame x a s (s.activeFactors x a) := by
  have hload : SettleFrame x a s (s.loadFactors x a (s.active x a)) := by
    unfold State.loadFactors
    dsimp only
    split
    · refine .ite (settleFrame_putArr _ ?_) (settleFrame_putArr _ ?_)
      all_goals rfl
    · exact .refl s
  exact (hload.trans (settleFrame_setFlag _ beside_busyOrCal)).trans (settleFrame_setFld _ beside_busyOrCal)

theorem settleFrame_enterService (hx : x < 512) : SettleFrame x a s (s.enterService x a) := by
  unfold State.enterService
  extract_lets y b first trimmed averaged ended z served shown begun
  have hfirst : SettleFrame x a s first := .ite (settleFrame_setFld _ beside_busyOrCal) (.refl s)
  have htrimmed : SettleFrame x a first trimmed := .ite (settleFrame_applyTrims _) (.refl _)
  have hended : SettleFrame x a trimmed ended := (settleFrame_setFld _ beside_busyOrCal).trans settleFrame_endRewrite
  have hserved : SettleFrame x a ended served := settleFrame_putArr _ rfl
  have hbegun : SettleFrame x a served begun :=
    (((settleFrame_setFlag _ beside_busyOrCal).trans (settleFrame_startCover _)).trans settleFrame_activeFactors).trans
      (settleFrame_budget hx)
  have h := (((hfirst.trans htrimmed).trans hended).trans hserved).trans hbegun
  exact .ite (h.trans (settleFrame_setFld _ beside_busyOrCal)) h

theorem settleFrame_settle (hx : x < 512) : SettleFrame x a s (s.settle x a) := by
  unfold State.settle
  extract_lets y needCal b refreshed idle ready
  have hrefreshed : SettleFrame x a s refreshed := .ite (settleFrame_refreshDone hx b) (.refl s)
  have hidle : SettleFrame x a s idle := hrefreshed.trans (settleFrame_setFlag _ beside_busyOrCal)
  have hready : SettleFrame x a s ready := hidle.trans (settleFrame_setFld _ beside_busyOrCal)
  exact .ite (.ite (hidle.trans (settleFrame_enterService hx)) (.ite (hready.trans (settleFrame_requestTest ..)) hready))
    (.refl s)

end Sys2Proof.Machine
end

section
/-! SUPPORT. Lists that computations which count saturations give (R107): their lengths, and the bytes of a PN4 row (R64, R66, R71).
-/

namespace Sys2Proof.Machine

variable {α β : Type}

/-- Whatever was counted before it, what a computation gives has a property. -/
def Cnt.Always (m : Cnt α) (P : α → Prop) : Prop := ∀ n, P (m.run n).1

theorem Cnt.always_pure {P : α → Prop} {y : α} (h : P y) : Cnt.Always (pure y) P := fun _ => h

theorem Cnt.Always.bind {Q : α → Prop} {P : β → Prop} {m : Cnt α} {f : α → Cnt β} (hm : m.Always Q)
    (hf : ∀ y, Q y → (f y).Always P) : (m >>= f).Always P := fun n => hf _ (hm n) _

theorem Cnt.always_bind {P : β → Prop} {m : Cnt α} {f : α → Cnt β} (hf : ∀ y, (f y).Always P) : (m >>= f).Always P :=
  fun _ => hf _ _

/-- A computation for each element of a list gives one result for each. -/
theorem Cnt.always_mapM {P : β → Prop} {f : α → Cnt β} (xs : List α) (h : ∀ y ∈ xs, (f y).Always P) :
    Cnt.Always (xs.mapM f) fun ys => ys.length = xs.length ∧ ∀ y ∈ ys, P y := by
  induction xs with
  | nil => exact Cnt.always_pure ⟨rfl, by simp⟩
  | cons x xs ih =>
    obtain ⟨hx, hxs⟩ := List.forall_mem_cons.mp h
    rw [List.mapM_cons]
    refine hx.bind fun y hy => (ih hxs).bind fun ys hys => Cnt.always_pure ⟨?_, List.forall_mem_cons.mpr ⟨hy, hys.2⟩⟩
    rw [List.length_cons, List.length_cons, hys.1]

theorem Cnt.always_length_mapM (f : α → Cnt β) (xs : List α) : Cnt.Always (xs.mapM f) fun ys => ys.length = xs.length :=
  fun n => (Cnt.always_mapM (P := fun _ => True) xs (fun _ _ _ => trivial) n).1

/-- Pieces of one length, put together. -/
theorem length_flatMap_const {xs : List α} {f : α → List β} {n : Nat} (h : ∀ y ∈ xs, (f y).length = n) :
    (xs.flatMap f).length = xs.length * n := by
  rw [List.length_flatMap, List.map_eq_replicate_iff.mpr h, List.sum_replicate_nat]

/-! ### Rows of PN4 (R64, R66, R71) -/

/-- A list of n × k elements falls into k pieces of n. -/
theorem chunksOf_whole {n : Nat} (hn : 0 < n) {k fuel : Nat} {xs : List α} (hlen : xs.length = n * k) (hfuel : k ≤ fuel) :
    (chunksOf n fuel xs).length = k ∧ ∀ c ∈ chunksOf n fuel xs, c.length = n := by
  induction k generalizing fuel xs with
  | zero =>
    obtain rfl : xs = [] := List.length_eq_zero_iff.mp hlen
    cases fuel <;> simp [chunksOf]
  | succ k ih =>
    obtain ⟨fuel, rfl⟩ : ∃ m, fuel = m + 1 := ⟨fuel - 1, by omega⟩
    rw [Nat.mul_succ] at hlen
    cases xs with
    | nil => simp at hlen; omega
    | cons y ys =>
      obtain ⟨hcount, hall⟩ := ih (fuel := fuel) (xs := (y :: ys).drop n) (by rw [List.length_drop]; omega) (by omega)
      rw [chunksOf]
      · refine ⟨by rw [List.length_cons, hcount], List.forall_mem_cons.mpr ⟨?_, hall⟩⟩
        rw [List.length_take]
        omega
      · simp

theorem chunks_whole {n k : Nat} (hn : 0 < n) {xs : List α} (hlen : xs.length = n * k) :
    (chunks n xs).length = k ∧ ∀ c ∈ chunks n xs, c.length = n :=
  chunksOf_whole hn hlen (by rw [hlen]; exact Nat.le_mul_of_pos_left k hn)

/-- A block has a code for each of its elements (R71). -/
theorem always_encodeBlock (sf : FloatFmt) (cmin cmax : Int) (p : Policy) (xs : List (FVal × Bool)) :
    (encodeBlock sf cmin cmax p xs).Always fun b => b.2.length = xs.length := by
  unfold encodeBlock
  extract_lets nanBlock zeroBlock big
  have hnan : (pure nanBlock : Cnt _).Always fun b => b.2.length = xs.length := Cnt.always_pure (by simp [nanBlock])
  have hzero : (pure zeroBlock : Cnt _).Always fun b => b.2.length = xs.length := Cnt.always_pure (by simp [zeroBlock])
  split
  · exact hnan
  split
  · exact hzero
  split
  next m e ovf _ =>
  split
  · exact hnan
  extract_lets scaled
  have hscaled (r : Unit) : (scaled r).Always fun b => b.2.length = xs.length := by
    unfold scaled
    generalize (if ovf = true then maxFinite sf else (m, e)) = q
    obtain ⟨m, e⟩ := q
    dsimp only
    split
    · exact hzero
    · exact (Cnt.always_length_mapM _ xs).bind fun cs hcs => Cnt.always_pure hcs
  split
  · exact Cnt.always_bind hscaled
  · exact hscaled ()

/-- A block of 16 elements is 8 bytes of codes and its scale (R66). -/
theorem length_blockBytes (scale : Nat) {codes : List Int} (h : codes.length = 16) : (blockBytes 12 scale codes).length = 9 := by
  obtain ⟨hcount, -⟩ := chunks_whole (n := 2) (k := 8) (by decide) h
  rw [blockBytes, if_pos rfl, List.length_append, List.length_map, hcount, List.length_singleton]

theorem always_encodeRowBlock (p : Policy) {xs : List (FVal × Bool)} (h : xs.length = 16) :
    (encodeRowBlock 12 p xs).Always fun b => b.1.length = 9 := by
  have hfull : (padTo (unitElems 12) (FVal.zero, false) xs).length = 16 := by
    rw [padTo, List.length_append, List.length_replicate, h]
    rfl
  unfold encodeRowBlock
  dsimp only
  refine (always_encodeBlock _ _ _ p _).bind fun b hb => Cnt.always_pure ?_
  exact length_blockBytes _ ((List.length_map _).trans (hb.trans hfull))

/-- A PN4 row of 512 elements is 32 blocks of 9 bytes (R64, R66). -/
theorem length_encodeRow (p : Policy) {xs : List (FVal × Bool)} (h : xs.length = 512) (n : Nat) :
    ((encodeRow 12 p xs).run n).1.1.length = 288 := by
  obtain ⟨hcount, hall⟩ := chunks_whole (n := 16) (k := 32) (by decide) h
  suffices hrow : (encodeRow 12 p xs).Always fun b => b.1.length = 288 from hrow n
  have hcode : descCode 12 = 12 := rfl
  unfold encodeRow
  rw [hcode]
  refine (Cnt.always_mapM _ fun c hc => always_encodeRowBlock p (hall c hc)).bind fun bs hbs => Cnt.always_pure ?_
  obtain ⟨hlen, hbytes⟩ := hbs
  rw [length_flatMap_const hbytes, hlen]
  exact congrArg (· * 9) hcount

end Sys2Proof.Machine
end

section
/-! SUPPORT. PN4_IMAGE_BUILD (R314) and CALIBRATION_SUSPEND (R552).
-/

namespace Sys2Proof.Machine

variable {s u v : State} {x a : Nat}

/-- Stores to device memory one after the other. -/
theorem forEach_putMem {α : Type} (addr : α → Nat) (bytes : α → List Byte) (es : List α) (s : State) :
    forEach es s (fun s e => s.putMem (addr e) (bytes e)) =
      { s with mem := writeChunks memReset s.mem (es.map fun e => (addr e, bytes e)) } := by
  induction es generalizing s with
  | nil => rfl
  | cons e es ih => exact ih _

/-- The rows of an image's weights (R314): each column of a bank's digital copy, in PN4. -/
def State.imageRows (s : State) (b x a : Nat) : List (List Byte) :=
  ((List.range 512).map fun j => (List.range 512).map fun i => s.copyWeight b x a i j).map fun w =>
    ((encodeRow 12 .saturate (w.map fun v => (v, false))).run 0).1.1

theorem imageRows_spec (s : State) (b x a : Nat) :
    (s.imageRows b x a).length = 512 ∧ ∀ row ∈ s.imageRows b x a, row.length = 288 := by
  unfold State.imageRows
  rw [List.map_map]
  refine ⟨by rw [List.length_map, List.length_range], fun row hrow => ?_⟩
  obtain ⟨j, -, rfl⟩ := List.mem_map.mp hrow
  exact length_encodeRow _ (by simp) 0

/-- The image of a bank of an array in its own 144 KiB (R314; log 19): 512 rows of 288 bytes. -/
def State.imageChunks (s : State) (g : Region) (x a b : Nat) : List (Nat × List Byte) :=
  (s.imageRows b x a).zipIdx.map fun r => (g.addr + 147456 * (2 * (8 * x + a) + b) + 288 * r.2, r.1)

/-- Bytes outside an image's 144 KiB lie apart from its rows. -/
theorem imageChunks_apart {g : Region} {b z : Nat} (hz : z < g.addr + 147456 * (2 * (8 * x + a) + b) ∨
    g.addr + 147456 * (2 * (8 * x + a) + b) + 147456 ≤ z) :
    ∀ c ∈ s.imageChunks g x a b, z < c.1 ∨ c.1 + c.2.length ≤ z := by
  intro c hc
  obtain ⟨⟨row, j⟩, hmem, rfl⟩ := List.mem_map.mp hc
  obtain ⟨hcount, hrows⟩ := imageRows_spec s b x a
  have hrow := List.mk_mem_zipIdx_iff_getElem?.mp hmem
  have hlen := hrows row (List.mem_of_getElem? hrow)
  obtain ⟨hj, -⟩ := List.getElem?_eq_some_iff.mp hrow
  dsimp only
  omega

/-- u is s with device memory m, and with factors of bank b of array a that stand for what its image leaves out (R314). -/
def Imaged (x a b : Nat) (m : Sparse Byte) (s u : State) : Prop :=
  ∃ uq vq, u = State.putArr { s with mem := m } x a ((s.arr x a).setBank b { (s.arr x a).bank b with uq, vq, imaged := true })

theorem act_imaged {f : State → State} {b : Nat} {m : Sparse Byte} (hon : s.power.on = true) (hf : Imaged x a b m s (f s)) :
    ∃ u, act s f = .next u ∧ Imaged x a b m s u := by
  obtain ⟨uq, vq, heffect⟩ := hf
  exact ⟨_, act_eq hon heffect rfl rfl rfl, uq, vq, rfl⟩

/-- PN4_IMAGE_BUILD of a bank whose copy is written and whose image is not (R314). What forms the factors is generalised before the
definition is taken apart, for the kernel would otherwise run it to see the pair that it returns. -/
theorem exec_pn4ImageBuild {b : Nat} {g : Region} (hon : s.power.on = true) (hregion : s.region 6 0xFFFF = some g)
    (hcopied : ((s.arr x a).bank b).copied = true) (himaged : ((s.arr x a).bank b).imaged = false) (htime : s.arrayTime = true) :
    ∃ u, exec (.pn4ImageBuild x a b) s = .next u ∧
      Imaged x a b (writeChunks memReset s.mem (s.imageChunks g x a b)) s u := by
  change ∃ u, execPn4ImageBuild x a b s = .next u ∧ _
  unfold execPn4ImageBuild
  generalize buildFactors = build
  refine act_imaged hon ?_
  extract_lets y k d cols rows diff e
  have hdue : (k.copied && !k.imaged && s.arrayTime) = true := by
    rw [hcopied, himaged, htime]
    rfl
  split
  · next r hr =>
    obtain rfl : g = r := Option.some.inj (hregion.symm.trans hr)
    rw [if_pos hdue]
    extract_lets base written
    split
    next u v _ =>
    have hrows : rows = s.imageRows b x a := by
      unfold State.imageRows
      with_reducible rfl
    have hwritten : written = { s with mem := writeChunks memReset s.mem (s.imageChunks g x a b) } := by
      unfold State.imageChunks
      rw [← hrows]
      exact forEach_putMem (fun r : List Byte × Nat => base + 288 * r.2) (fun r => r.1) rows.zipIdx s
    rw [hwritten]
    exact ⟨packFactor u, packFactor v, rfl⟩
  · next hr => cases hregion.symm.trans hr

/-- An image lies in its own 144 KiB, and what forms it changes the array alone besides (R314). -/
theorem Imaged.frame {b : Nat} {g : Region} (h : Imaged x a b (writeChunks memReset s.mem (s.imageChunks g x a b)) s u) :
    ((u.arr x a).bank b).imaged = true ∧
      (∀ z, z < g.addr + 147456 * (2 * (8 * x + a) + b) ∨ g.addr + 147456 * (2 * (8 * x + a) + b) + 147456 ≤ z →
        lookup memReset u.mem z = lookup memReset s.mem z) ∧ u = { s with mem := u.mem, arrs := u.arrs } := by
  have hother := fun z hz => lookup_writeChunks_apart (d := memReset) (m := s.mem)
    (imageChunks_apart (s := s) (x := x) (a := a) (g := g) (b := b) (z := z) hz)
  generalize writeChunks memReset s.mem (s.imageChunks g x a b) = m at h hother
  obtain ⟨uq, vq, rfl⟩ := h
  refine ⟨?_, hother, rfl⟩
  rw [arr_putArr, bank_setBank]

/-- CALIBRATION_SUSPEND of a calibration in progress (R552). -/
theorem exec_calibrationSuspend (hon : s.power.on = true) (hstate : s.fld (F.ARR_CALSTAT_STATE x a) = 1) :
    ∃ t, exec (.calibrationSuspend x a) s = .next t ∧ Changes s t [(F.ARR_CALSTAT_STATE x a, 3)] := by
  change ∃ t, execCalibrationSuspend x a s = .next t ∧ _
  unfold execCalibrationSuspend
  exact act_changes hon (if_pos hstate) (by simp [Apart])

end Sys2Proof.Machine
end

section
/-! SUPPORT. RESIDUAL_MEASUREMENT (R206 to R208, R210): its patterns, and the residual that the last of them leaves.
-/

namespace Sys2Proof.Machine

variable {s t u v w : State} {x a : Nat}

/-! ### Where regions lie (R396) -/

/-- From s to u nothing changed that says where a region lies: the charter, and this device's number in it. -/
structure SameSite (s u : State) : Prop where
  charter : u.charter = s.charter
  dev : ∀ f : Fld, f.off = R.FAB_DEVNUM → u.fld f = s.fld f

theorem SameSite.trans (h : SameSite s u) (h' : SameSite u v) : SameSite s v :=
  ⟨h'.charter.trans h.charter, fun f hf => (h'.dev f hf).trans (h.dev f hf)⟩

theorem sameSite_setFld {g : Fld} (n : Nat) (h : g.off ≠ R.FAB_DEVNUM) : SameSite s (s.setFld g n) :=
  ⟨rfl, fun f hf => fld_wr_other s f _ (by rw [hf]; exact h.symm)⟩

theorem sameSite_putArr (y : Arr) : SameSite s (s.putArr x a y) := ⟨rfl, fun _ _ => rfl⟩

theorem TileOnly.sameSite (h : TileOnly x s u) : SameSite s u :=
  ⟨h.frame.2.2, fun f hf => h.fld f (by rw [hf]; simp only [TileOff, R.FAB_DEVNUM]; omega)⟩

theorem SameSite.region (h : SameSite s u) (kind unit : Nat) : u.region kind unit = s.region kind unit := by
  obtain ⟨hcharter, hdev⟩ := h
  have hnum : u.devNum = s.devNum := by
    unfold State.devNum State.flag
    rw [hdev _ rfl, hdev _ rfl, hdev _ rfl]
  simp only [State.region, State.chart, State.stage, State.myDev, hcharter, hnum]

/-! ### A pattern (R206, R207) -/

/-- A pattern changes the counts of what it reads, and nothing else but the draws. -/
theorem measurePattern_spec (b k : Nat) (hu : (s.measurePattern x a b k).2.2 = u) :
    u.mem = s.mem ∧ u.arrs = s.arrs ∧ SameSite s u ∧
      u.fld (F.ARR_CNT_HMVM_COUNT x a) = satAdd 32 (s.fld (F.ARR_CNT_HMVM_COUNT x a)) 1 ∧
      ∀ f : Fld, f.off ≠ (F.ARR_CNT_EXCL_COUNT x a).off → f.off ≠ (F.ARR_CNT_HMVM_COUNT x a).off → u.fld f = s.fld f := by
  obtain ⟨n, rfl⟩ : ∃ n, u = (s.draw.2.bump (F.ARR_CNT_EXCL_COUNT x a) n).bump (F.ARR_CNT_HMVM_COUNT x a) 1 := ⟨_, hu.symm⟩
  have hfld (f : Fld) (hexcl : f.off ≠ (F.ARR_CNT_EXCL_COUNT x a).off) :
      (s.draw.2.bump (F.ARR_CNT_EXCL_COUNT x a) n).fld f = s.fld f :=
    fld_bump_other s.draw.2 f _ n (by simp) (by simp) (.inl hexcl)
  generalize hw : s.draw.2.bump (F.ARR_CNT_EXCL_COUNT x a) n = w at hfld
  have hsite : SameSite s w := by
    have hdraw : SameSite s s.draw.2 := ⟨rfl, fun _ _ => rfl⟩
    rw [← hw]
    exact hdraw.trans (sameSite_setFld _ (by simp only [R.FAB_DEVNUM]; omega))
  refine ⟨hw ▸ rfl, hw ▸ rfl, hsite.trans (sameSite_setFld _ (by simp only [R.FAB_DEVNUM]; omega)), ?_, fun f hexcl hhmvm => ?_⟩
  · refine (fld_bump_same w _ 1 (by simp) (by simp)).trans ?_
    rw [hfld _ (by simp only; omega)]
    rfl
  · exact (fld_bump_other w f _ 1 (by simp) (by simp) (.inl hhmvm)).trans (hfld f hexcl)

/-- The rewrite of an array as a measurement's next pattern finds it: the first pattern takes up the settings (R210, R225). -/
def State.latched (s : State) (x a : Nat) : Rewrite :=
  let r := (s.arr x a).rew
  if r.pattern = 0 then
    { r with limit := s.fld (F.ARR_RESLIM_LIM x a), rank := rankOf (s.fld (F.ARR_RESCFG_RANK x a)),
             iter := s.fld (F.ARR_RESCFG_ITER x a) }
  else r

/-- The next pattern of a measurement, with the converters on (R143, R206, R210). -/
def State.takePattern (s : State) (x a : Nat) : State :=
  (if (s.arr x a).rew.pattern = 0 then (s.convertersOn x a true).latchSettings x a else s.convertersOn x a true).nextPattern x a

/-- From s to u a pattern was measured on array a of tile x: it is counted, on running converters, and else only the array and the
counts of what starts and of what is read changed. -/
structure PatternTaken (x a : Nat) (s u : State) : Prop where
  mem : u.mem = s.mem
  site : SameSite s u
  count : u.fld (F.ARR_CNT_HMVM_COUNT x a) = satAdd 32 (s.fld (F.ARR_CNT_HMVM_COUNT x a)) 1
  on : u.fld (F.ARR_STAT_CONV_ON x a) = 1
  state : u.prgState x a = s.prgState x a
  rew : ∃ row ref, (u.arr x a).rew = { s.latched x a with
    pattern := (s.arr x a).rew.pattern + 1, reads := (s.arr x a).rew.reads ++ [row], ref0 := (s.arr x a).rew.ref0 ++ [ref] }

/-- Converters that start up leave the arrays, and where the regions lie. -/
theorem convertersOn_arrs (mvm : Bool) : (s.convertersOn x a mvm).arrs = s.arrs ∧ SameSite s (s.convertersOn x a mvm) := by
  have hon : SameSite s (s.setFlag (F.ARR_STAT_CONV_ON x a) true) := sameSite_setFld _ (by simp only [R.FAB_DEVNUM]; omega)
  unfold State.convertersOn
  split
  · exact ⟨rfl, rfl, fun _ _ => rfl⟩
  · dsimp only
    split
    · have htally := tileOnly_tally (t := x) (s := (s.setFlag (F.ARR_STAT_CONV_ON x a) true).bump (F.ARR_CNT_START_COUNT x a) 1) 0x15 1
      exact ⟨htally.frame.2.1, (hon.trans (sameSite_setFld _ (by simp only [R.FAB_DEVNUM]; omega))).trans htally.sameSite⟩
    · exact ⟨rfl, hon⟩

/-- The settings that a measurement takes up are those of the state in which its first pattern comes. -/
theorem latchSettings_spec (harrs : u.arrs = s.arrs) (hlim : u.fld (F.ARR_RESLIM_LIM x a) = s.fld (F.ARR_RESLIM_LIM x a))
    (hrank : u.fld (F.ARR_RESCFG_RANK x a) = s.fld (F.ARR_RESCFG_RANK x a))
    (hiter : u.fld (F.ARR_RESCFG_ITER x a) = s.fld (F.ARR_RESCFG_ITER x a))
    (hw : (if (s.arr x a).rew.pattern = 0 then u.latchSettings x a else u) = w) :
    w.mem = u.mem ∧ w.regs = u.regs ∧ w.charter = u.charter ∧ (w.arr x a).rew = s.latched x a := by
  have harr : u.arr x a = s.arr x a := arr_congr harrs x a
  unfold State.latched
  by_cases hfirst : (s.arr x a).rew.pattern = 0
  · rw [if_pos hfirst] at hw
    subst hw
    refine ⟨rfl, rfl, rfl, ?_⟩
    unfold State.latchSettings
    rw [arr_putArr, if_pos hfirst, harr, hlim, hrank, hiter]
  · rw [if_neg hfirst] at hw
    subst hw
    refine ⟨rfl, rfl, rfl, ?_⟩
    rw [if_neg hfirst, harr]

/-- The settings apart, the rewrite is as it was. -/
theorem latched_keeps : (s.latched x a).pattern = (s.arr x a).rew.pattern ∧ (s.latched x a).reads = (s.arr x a).rew.reads ∧
    (s.latched x a).ref0 = (s.arr x a).rew.ref0 ∧ (s.latched x a).measured = (s.arr x a).rew.measured ∧
    (s.latched x a).bank = (s.arr x a).rew.bank ∧ (s.latched x a).built = (s.arr x a).rew.built := by
  unfold State.latched
  dsimp only
  split <;> exact ⟨rfl, rfl, rfl, rfl, rfl, rfl⟩

theorem patternTaken_takePattern : PatternTaken x a s (s.takePattern x a) := by
  obtain ⟨honMem, honFld, honOther⟩ := convertersOn_spec (s := s) (t := x) (a := a) true
  obtain ⟨honArrs, honSite⟩ := convertersOn_arrs (s := s) (x := x) (a := a) true
  unfold State.takePattern
  generalize s.convertersOn x a true = on at *
  generalize hw : (if (s.arr x a).rew.pattern = 0 then on.latchSettings x a else on) = w
  obtain ⟨hwMem, hwRegs, hwCharter, hwRew⟩ := latchSettings_spec honArrs (honOther _ (by simp) (by simp))
    (honOther _ (by simp) (by simp)) (honOther _ (by simp) (by simp)) hw
  unfold State.nextPattern
  dsimp only
  have hread := measurePattern_spec (s := w) (x := x) (a := a) (w.arr x a).rew.bank (w.arr x a).rew.pattern rfl
  generalize w.measurePattern x a (w.arr x a).rew.bank (w.arr x a).rew.pattern = m at hread ⊢
  obtain ⟨row, ref, v⟩ := m
  obtain ⟨hmem, -, hsite, hcount, hfld⟩ := hread
  have hwSite : SameSite on w := ⟨hwCharter, fun f _ => fld_congr hwRegs f⟩
  refine ⟨hmem.trans (hwMem.trans honMem), ((honSite.trans hwSite).trans hsite).trans (sameSite_putArr _), ?_, ?_, ?_, row, ref, ?_⟩
  · refine hcount.trans ?_
    rw [fld_congr hwRegs, honOther _ (by simp) (by simp)]
  · exact (hfld _ (by simp) (by simp)).trans ((fld_congr hwRegs _).trans honFld)
  · exact (hfld _ (by simp) (by simp)).trans ((fld_congr hwRegs _).trans (honOther _ (by simp) (by simp)))
  · obtain ⟨hpattern, hreads, href0, -⟩ := latched_keeps (s := s) (x := x) (a := a)
    rw [arr_putArr, hwRew, hpattern, hreads, href0]

/-! ### The residual (R206, R208) -/

/-- The residual of a logical column is that of its 512 cells. The cells are generalised before the definition is taken apart, for
the kernel would otherwise run it over them. -/
theorem length_columnResidual (ws qbar : FVal) (qcal lsb : Int) (reads : List (Int × Bool)) (ts rs : List Int) :
    (columnResidual ws qbar qcal lsb reads ts rs).length = 512 := by
  have hdef : columnResidual = columnResidual := rfl
  conv at hdef => rhs; delta columnResidual
  have hcells : (List.range 512).length = 512 := List.length_range
  generalize List.range 512 = cells at hdef hcells
  generalize columnResidual = residual at hdef ⊢
  as_aux_lemma =>
    subst hdef
    beta_reduce
    extract_lets excl m
    suffices h : m.Always fun es => es.length = 512 from h 0
    rw [← hcells]
    exact Cnt.always_bind fun d => Cnt.always_bind fun w => Cnt.always_length_mapM _ cells
/-- Columns of 512 BF16 words take 1 KiB each. -/
theorem length_flatMap_words {res : List (List Nat)} (h : ∀ es ∈ res, es.length = 512) :
    (res.flatMap fun es => es.flatMap (leBytes 2)).length = 1024 * res.length := by
  refine (length_flatMap_const fun es hes => ?_).trans (Nat.mul_comm _ 1024)
  rw [length_flatMap_const fun w _ => leBytes_length 2 w, h es hes]

/-- The array's rewrite once its residual is formed. -/
def Rewrite.formed (r : Rewrite) : Rewrite := { r with measured := true, reads := [], ref0 := [] }

/-- A field set leaves device memory and the arrays. -/
theorem mem_arr_setFld (f : Fld) (n : Nat) : (s.setFld f n).mem = s.mem ∧ (s.setFld f n).arr x a = s.arr x a := ⟨rfl, rfl⟩

/-- The residual is formed and written to the first 512 KiB of the tile's scratch region (R208). -/
theorem formResidual_spec (hu : s.formResidual x a = u) :
    (u.arr x a).rew = (s.arr x a).rew.formed ∧
      u.fld (F.ARR_RESSTAT_MBANK x a) = (s.arr x a).rew.bank % 2 ∧
      (∀ f : Fld, f.off ≠ (F.ARR_RESSTAT_MBANK x a).off → u.fld f = s.fld f) ∧
      ∀ z, (∀ r, s.region 7 x = some r → z < r.addr ∨ r.addr + 524288 ≤ z) → lookup memReset u.mem z = lookup memReset s.mem z := by
  unfold State.formResidual at hu
  extract_lets y b k ref0 qbar ws qcal res z r put shown at hu
  have hres : res.length = 512 ∧ ∀ es ∈ res, es.length = 512 := by
    refine ⟨(List.length_map _).trans List.length_range, fun es hes => ?_⟩
    obtain ⟨j, -, rfl⟩ := List.mem_map.mp hes
    dsimp only
    split
    · rw [List.length_map, length_columnResidual]
    · exact length_columnResidual ..
  clear_value res
  obtain ⟨hcount, hcols⟩ := hres
  have hlen := length_flatMap_words hcols
  rw [hcount, show 1024 * 512 = 524288 from rfl] at hlen
  have hput : (put.arr x a).rew = (s.arr x a).rew.formed := congrArg Arr.rew (arr_putArr ..)
  obtain ⟨hmem, harr⟩ : shown.mem = put.mem ∧ shown.arr x a = put.arr x a := mem_arr_setFld _ _
  have hsite : SameSite s shown := (sameSite_putArr _).trans (sameSite_setFld _ (by simp only [R.FAB_DEVNUM]; omega))
  have hbank : shown.fld (F.ARR_RESSTAT_MBANK x a) = b % 2 := fld_setFld_same put _ b (by simp) (by simp)
  have hother (f : Fld) (hf : f.off ≠ (F.ARR_RESSTAT_MBANK x a).off) : shown.fld f = s.fld f :=
    fld_setFld_other put f _ b (by simp) (by simp) (.inl hf)
  rw [← harr] at hput
  clear_value shown
  rw [hsite.region] at hu
  cases hr : s.region 7 x with
  | none =>
    rw [hr] at hu
    subst hu
    refine ⟨hput, hbank, hother, fun z _ => ?_⟩
    rw [hmem]
    rfl
  | some r =>
    rw [hr] at hu
    subst hu
    refine ⟨hput, hbank, hother, fun z hz => (lookup_writeMany_apart ?_).trans ?_⟩
    · rw [hlen]
      exact hz r rfl
    · rw [hmem]
      rfl

/-! ### The command -/

/-- A measurement may take its next pattern (R178, R206 to R208). -/
structure MayMeasure (s : State) (x a : Nat) : Prop where
  state : s.prgState x a = 3
  time : s.arrayTime = true
  dfwd : s.dfwd = false
  held : s.arrayHeld = false
  cal : s.calibrating x a = false
  susp : s.fld (F.ARR_PRGSTAT_SUSP x a) = 0
  measured : (s.arr x a).rew.measured = false

/-- RESIDUAL_MEASUREMENT takes the next pattern, and after the last one forms the residual (R206). -/
theorem exec_residualMeasurement (hon : s.power.on = true) (h : MayMeasure s x a)
    (hfree : (s.arr x a).rew.pattern < 511 ∨ s.scratchTaken x a = false) :
    ∃ t, exec (.residualMeasurement x a) s = .next t ∧
      (((s.takePattern x a).arr x a).rew.pattern ≠ 512 → Became s (s.takePattern x a) t) ∧
      (((s.takePattern x a).arr x a).rew.pattern = 512 → (((s.takePattern x a).formResidual x a).arr x a).rew.rank ≠ 0 →
        Became s (((s.takePattern x a).formResidual x a).settle x a) t) := by
  change ∃ t, execResidualMeasurement x a s = .next t ∧ _
  unfold execResidualMeasurement
  refine act_next hon fun t ht => ?_
  obtain ⟨hstate, htime, hdfwd, hheld, hcal, hsusp, hmeasured⟩ := h
  have hroom : (decide (511 ≤ (s.arr x a).rew.pattern) && s.scratchTaken x a) = false := by
    rcases hfree with h | h
    · simp [show ¬ 511 ≤ (s.arr x a).rew.pattern by omega]
    · simp [h]
  have hdue : ((s.prgState x a == 3 || (s.prgState x a == 5 && (s.arr x a).rew.row == 512)) && s.arrayTime && !s.arrayHeld
      && !s.dfwd && !s.calibrating x a && !s.flag (F.ARR_PRGSTAT_SUSP x a) && !(s.arr x a).rew.measured
      && !(decide (511 ≤ (s.arr x a).rew.pattern) && s.scratchTaken x a)) = true := by
    rw [hroom, hstate, htime, hdfwd, hheld, hcal, hmeasured]
    simp [State.flag, hsusp]
  extract_lets state r on latched taken formed at ht
  rw [if_pos hdue] at ht
  have htaken : s.takePattern x a = taken := rfl
  have hformed : (s.takePattern x a).formResidual x a = formed := rfl
  rw [hformed, htaken]
  refine ⟨fun hpattern => ?_, fun hpattern hrank => ?_⟩
  · rwa [if_neg hpattern] at ht
  · rwa [if_pos hpattern, if_neg hrank] at ht

/-- A rewrite whose factors are not built settles nothing (R181, R211). -/
theorem settle_unbuilt (h : (s.arr x a).rew.built = false) : s.settle x a = s := by
  unfold State.settle
  dsimp only
  rw [h, Bool.and_false, Bool.false_and]
  rfl

theorem PatternTaken.became (h : PatternTaken x a s u) (ht : Became s u t) : PatternTaken x a s t where
  mem := ht.units.2.1.trans h.mem
  site := by
    obtain ⟨-, ⟨-, -, -, -, -, -, hcharter, -⟩, -⟩ := ht.frame
    exact h.site.trans ⟨hcharter, fun f _ => ht.fld f⟩
  count := (ht.fld _).trans h.count
  on := (ht.fld _).trans h.on
  state := (ht.fld _).trans h.state
  rew := by
    rw [arr_congr ht.units.2.2]
    exact h.rew

/-- RESIDUAL_MEASUREMENT of a pattern before the last (R206). -/
theorem exec_residualMeasurement_pattern (hon : s.power.on = true) (h : MayMeasure s x a)
    (hpattern : (s.arr x a).rew.pattern < 511) :
    ∃ t, exec (.residualMeasurement x a) s = .next t ∧ PatternTaken x a s t := by
  obtain ⟨t, ht, htaken, -⟩ := exec_residualMeasurement hon h (.inl hpattern)
  have hread := patternTaken_takePattern (s := s) (x := x) (a := a)
  refine ⟨t, ht, hread.became (htaken ?_)⟩
  obtain ⟨row, ref, hrew⟩ := hread.rew
  rw [hrew]
  dsimp only
  omega

/-- RESIDUAL_MEASUREMENT of the last pattern: the residual lies in the scratch region, and the factors are still to be built (R206,
R208). -/
theorem exec_residualMeasurement_last (hon : s.power.on = true) (h : MayMeasure s x a) (hbuilt : (s.arr x a).rew.built = false)
    (hpattern : (s.arr x a).rew.pattern = 511) (hrank : (s.arr x a).rew.rank ≠ 0) (hfree : s.scratchTaken x a = false) :
    ∃ t, exec (.residualMeasurement x a) s = .next t ∧ (t.arr x a).rew.measured = true ∧ t.prgState x a = 3 ∧
      t.fld (F.ARR_RESSTAT_MBANK x a) = (s.arr x a).rew.bank % 2 ∧
      t.fld (F.ARR_CNT_HMVM_COUNT x a) = satAdd 32 (s.fld (F.ARR_CNT_HMVM_COUNT x a)) 1 ∧
      ∀ z, (∀ r, s.region 7 x = some r → z < r.addr ∨ r.addr + 524288 ≤ z) →
        lookup memReset t.mem z = lookup memReset s.mem z := by
  obtain ⟨t, ht, -, hformed⟩ := exec_residualMeasurement hon h (.inr hfree)
  have hread := patternTaken_takePattern (s := s) (x := x) (a := a)
  generalize s.takePattern x a = taken at hformed hread
  obtain ⟨row, ref, hrew⟩ := hread.rew
  have hlatched : s.latched x a = (s.arr x a).rew := if_neg (by omega)
  rw [hlatched] at hrew
  obtain ⟨hform, hbank, hother, hmem⟩ := formResidual_spec (s := taken) (x := x) (a := a) rfl
  generalize taken.formResidual x a = formed at hformed hform hbank hother hmem
  rw [hrew] at hformed hform hbank
  have hb := hformed (congrArg (· + 1) hpattern) (by rw [hform]; exact hrank)
  rw [settle_unbuilt (by rw [hform]; exact hbuilt)] at hb
  refine ⟨t, ht, ?_, ?_, (hb.fld _).trans hbank, ?_, fun z hz => ?_⟩
  · rw [arr_congr hb.units.2.2, hform]
    rfl
  · exact (hb.fld _).trans ((hother _ (by simp)).trans (hread.state.trans h.state))
  · exact (hb.fld _).trans ((hother _ (by simp)).trans hread.count)
  · rw [hb.units.2.1, hmem z (fun r hr => hz r ((hread.site.region 7 x).symm.trans hr)), hread.mem]

/-- The first pattern of a measurement takes up the limit, the rank and the iterations that are set (R210, R225). -/
theorem latched_first (h : (s.arr x a).rew.pattern = 0) :
    (s.latched x a).limit = s.fld (F.ARR_RESLIM_LIM x a) ∧ (s.latched x a).rank = rankOf (s.fld (F.ARR_RESCFG_RANK x a)) ∧
      (s.latched x a).iter = s.fld (F.ARR_RESCFG_ITER x a) := by
  unfold State.latched
  dsimp only
  rw [if_pos h]
  exact ⟨rfl, rfl, rfl⟩

/-- What a pattern leaves of the rewrite that it belongs to. -/
theorem PatternTaken.rewrite (h : PatternTaken x a s t) : (t.arr x a).rew.pattern = (s.arr x a).rew.pattern + 1 ∧
    (t.arr x a).rew.reads.length = (s.arr x a).rew.reads.length + 1 ∧
    (t.arr x a).rew.measured = (s.arr x a).rew.measured ∧
    ((s.arr x a).rew.pattern = 0 → (t.arr x a).rew.limit = s.fld (F.ARR_RESLIM_LIM x a) ∧
      (t.arr x a).rew.rank = rankOf (s.fld (F.ARR_RESCFG_RANK x a)) ∧
      (t.arr x a).rew.iter = s.fld (F.ARR_RESCFG_ITER x a)) := by
  obtain ⟨row, ref, hrew⟩ := h.rew
  obtain ⟨-, -, -, hmeasured, -⟩ := latched_keeps (s := s) (x := x) (a := a)
  rw [hrew]
  exact ⟨rfl, List.length_append, hmeasured, latched_first⟩

end Sys2Proof.Machine
end

section
/-! SUPPORT. FACTOR_BUILD (R209, R211, R224, R225, R237): the factors stay as its bank's statistics are taken and its rewrite settles.
-/

namespace Sys2Proof.Machine

variable {s t u v : State} {x a : Nat}

/-! ### The statistics (R224, R225) -/

/-- As SettleFrame, and regions lie where they did. -/
structure StatFrame (x a : Nat) (s u : State) : Prop extends SettleFrame x a s u where
  site : SameSite s u

theorem StatFrame.refl (s : State) : StatFrame x a s s := ⟨.refl s, rfl, fun _ _ => rfl⟩

theorem StatFrame.trans (h : StatFrame x a s u) (h' : StatFrame x a u v) : StatFrame x a s v :=
  ⟨h.toSettleFrame.trans h'.toSettleFrame, h.site.trans h'.site⟩

theorem statFrame_setFld {g : Fld} (n : Nat) (h : Beside (BusyOrCal x a) g) (hoff : g.off ≠ R.FAB_DEVNUM := by
    simp only [R.FAB_DEVNUM]; omega) : StatFrame x a s (s.setFld g n) :=
  ⟨settleFrame_setFld n h, sameSite_setFld n hoff⟩

theorem sameSite_inject (point unit sub col acc : Nat) : SameSite s (s.inject point unit sub col acc).2 := by
  have hset (w : State) (g : Fld) (n : Nat) (hoff : g.off ≠ R.FAB_DEVNUM := by simp) : SameSite w (w.setFld g n) :=
    sameSite_setFld n hoff
  have hseen (w : State) (n : Nat) : SameSite w { w with injSeen := n } := ⟨rfl, fun _ _ => rfl⟩
  unfold State.inject
  dsimp only
  split
  · split
    · refine SameSite.trans ?_ (hseen _ _)
      refine SameSite.trans ?_ (hset _ F.INJ_CNT_COUNT _)
      refine SameSite.trans ?_ ((hset _ F.INJ_ACC_LO_ACC _).trans (hset _ F.INJ_ACC_HI_ACC _))
      exact ((hset _ F.INJ_CTRL_ARM _).trans (hset _ F.INJ_STAT_FIRED _)).trans (hset _ F.INJ_STAT_POINT _)
    · exact hseen s _
  · exact ⟨rfl, fun _ _ => rfl⟩

theorem statFrame_requestTest (kind mode array col steps : Nat) (host : Option Nat) :
    StatFrame x a s (s.requestTest x kind mode array col steps host) :=
  ⟨settleFrame_requestTest .., (tileOnly_requestTest ..).sameSite⟩

/-- A bank's statistics leave its factors. What computes them is generalised before the definition is taken apart, for the kernel would
otherwise run it to see the numbers that it returns. -/
theorem statFrame_bankStatistics (uf vf : List (List FVal)) : StatFrame x a s (s.bankStatistics x a uf vf) := by
  have hinject (s : State) (point unit sub col acc : Nat) : StatFrame x a s (s.inject point unit sub col acc).2 :=
    ⟨settleFrame_inject .., sameSite_inject ..⟩
  have hdef : State.bankStatistics = State.bankStatistics := rfl
  conv at hdef => rhs; delta State.bankStatistics
  generalize statistics = stats at hdef
  generalize State.inject = inject at hdef hinject
  generalize State.bankStatistics = bankStatistics at hdef ⊢
  as_aux_lemma =>
    subst hdef
    beta_reduce
    extract_lets y b
    split
    next tot unc capt cols _ _ =>
    have hseen := hinject s 0x06 x a (s.fld F.INJ_TARGET_COL) 0
    split
    next hit seen hi =>
    rw [hi] at hseen
    extract_lets icol past put s1 s2 s3 s4
    have hput : StatFrame x a seen put := by
      refine ⟨settleFrame_putArr _ (Eq.trans ?_ hseen.results.symm), sameSite_putArr _⟩
      exact results_setBank rfl rfl
    have hshown : StatFrame x a put s3 :=
      (((statFrame_setFld _ beside_busyOrCal).trans (statFrame_setFld _ beside_busyOrCal)).trans
        (statFrame_setFld _ beside_busyOrCal)).trans ((statFrame_setFld _ beside_busyOrCal).trans
        (statFrame_setFld _ beside_busyOrCal))
    have hevent : StatFrame x a s3 s4 := by
      unfold s4
      split
      · exact .refl _
      · exact statFrame_setFld _ beside_busyOrCal
    refine ((hseen.trans hput).trans hshown).trans (hevent.trans ?_)
    exact forEach_keeps (P := StatFrame x a s4) (fun m j hm => hm.trans (statFrame_requestTest ..)) past (.refl s4)

/-! ### The stores (R208, R209) -/

/-- A factor of rank r is 512 rows of r BF16 words. -/
theorem length_factorBytes (r : Nat) (cols : List (List FVal)) : (factorBytes r cols).length = 1024 * r := by
  have hword (i c : Nat) : (leBytes 2 (encodeFloat fmtBF16 ((cols.getD c []).getD i FVal.zero))).length = 2 := leBytes_length ..
  unfold factorBytes
  generalize hcells : List.range 512 = cells
  have hcount : cells.length = 512 := hcells ▸ List.length_range
  rw [length_flatMap_const fun i _ => length_flatMap_const fun c _ => hword i c, hcount, List.length_range]
  omega

/-- The factors written to the scratch region, U before V (R209; log 39). -/
def State.storeFactors (s : State) (x a r : Nat) (uf vf : List (List FVal)) : State :=
  match s.factorAddr x a with
  | some g => (s.putMem g (factorBytes r uf)).putMem (g + 1024 * r) (factorBytes r vf)
  | none => s

theorem storeFactors_units (r : Nat) (uf vf : List (List FVal)) : (s.storeFactors x a r uf vf).regs = s.regs ∧
    (s.storeFactors x a r uf vf).arrs = s.arrs ∧ (s.storeFactors x a r uf vf).tiles = s.tiles := by
  unfold State.storeFactors
  split
  · simp
  · exact ⟨rfl, rfl, rfl⟩

/-- Each factor reads back from its place, and nothing else changes. -/
theorem storeFactors_mem {g r : Nat} (uf vf : List (List FVal)) (hg : s.factorAddr x a = some g)
    (ht : t.mem = (s.storeFactors x a r uf vf).mem) :
    t.memBytes g (1024 * r) = factorBytes r uf ∧ t.memBytes (g + 1024 * r) (1024 * r) = factorBytes r vf ∧
      ∀ z, z < g ∨ g + 2048 * r ≤ z → lookup memReset t.mem z = lookup memReset s.mem z := by
  have hulen := length_factorBytes r uf
  have hvlen := length_factorBytes r vf
  rw [State.storeFactors, hg] at ht
  generalize factorBytes r uf = ub at ht hulen ⊢
  generalize factorBytes r vf = vb at ht hvlen ⊢
  have hmem : t.mem = writeChunks memReset s.mem [(g, ub), (g + 1024 * r, vb)] := ht
  have hapart : [(g, ub), (g + 1024 * r, vb)].Pairwise ChunksApart := by simp [ChunksApart, hulen]
  have hread {c : Nat × List Byte} (hc : c ∈ [(g, ub), (g + 1024 * r, vb)]) : t.memBytes c.1 c.2.length = c.2 := by
    rw [State.memBytes, hmem]
    exact readMany_writeChunks hapart hc
  have hu := hread (c := (g, ub)) (by simp)
  have hv := hread (c := (g + 1024 * r, vb)) (by simp)
  rw [hulen] at hu
  rw [hvlen] at hv
  refine ⟨hu, hv, fun z hz => ?_⟩
  rw [hmem]
  refine lookup_writeChunks_apart (List.forall_mem_cons.mpr ⟨?_, List.forall_mem_singleton.mpr ?_⟩)
  all_goals
    dsimp only
    omega

/-! ### The command -/

/-- The row registers loaded anew, the engine's beats counted, and the factors and their rank entered with the bank (R209, R237). -/
def State.takeFactors (s : State) (x a : Nat) : State :=
  let y := s.arr x a
  let cleared := s.putTileRec x { s.tile x with keep := [] }
  let held := cleared.bumpPair (F.OPE_CNT_BUSY_LO_COUNT x) (F.OPE_CNT_BUSY_HI_COUNT x) ((2 * y.rew.iter + 2) * 128 * y.rew.rank)
  let z := y.setBank y.rew.bank { y.bank y.rew.bank with factors := true, rank := y.rew.rank }
  held.putArr x a { z with rew := { y.rew with built := true } }

/-- FACTOR_BUILD of a measured bank. What builds the factors is generalised before the definition is taken apart, for the kernel would
otherwise run it to see the pair that it returns. -/
theorem exec_factorBuild {uv : List (List FVal) × List (List FVal)} (hon : s.power.on = true)
    (hmeasured : (s.arr x a).rew.measured = true) (hbuilt : (s.arr x a).rew.built = false) (htime : s.arrayTime = true)
    (huv : uv = ((buildFactors (s.residAt x) (s.arr x a).rew.rank (s.arr x a).rew.iter).run 0).1) :
    ∃ t, exec (.factorBuild x a) s = .next t ∧ Became s ((((s.takeFactors x a).bankStatistics x a uv.1 uv.2).storeFactors x a
      (s.arr x a).rew.rank uv.1 uv.2).settle x a) t := by
  have htake : s.takeFactors x a = s.takeFactors x a := rfl
  conv at htake => rhs; delta State.takeFactors
  have hdef : execFactorBuild = execFactorBuild := rfl
  conv at hdef => rhs; delta execFactorBuild
  have hstore : State.storeFactors = State.storeFactors := rfl
  conv at hstore => rhs; delta State.storeFactors
  change ∃ t, execFactorBuild x a s = .next t ∧ _
  generalize buildFactors = build at hdef huv
  generalize State.takeFactors = take at htake ⊢
  generalize State.storeFactors = store at hstore ⊢
  generalize State.bankStatistics = bankStatistics at hdef ⊢
  generalize execFactorBuild = ex at hdef ⊢
  as_aux_lemma =>
    subst hdef hstore
    beta_reduce at htake ⊢
    refine act_next hon fun t ht => ?_
    have hdue : ((s.arr x a).rew.measured && !(s.arr x a).rew.built && s.arrayTime) = true := by
      rw [hmeasured, hbuilt, htime]
      rfl
    rw [if_pos hdue] at ht
    rw [htake]
    subst huv
    exact ht

theorem sameSite_bumpPair {lo hi : Fld} (n : Nat) (hlo : lo.off ≠ R.FAB_DEVNUM) (hhi : hi.off ≠ R.FAB_DEVNUM) :
    SameSite s (s.bumpPair lo hi n) :=
  (sameSite_setFld _ hlo).trans (sameSite_setFld _ hhi)

/-- What the factors' entry changes. -/
theorem takeFactors_spec (hu : s.takeFactors x a = u) : u.mem = s.mem ∧ SameSite s u ∧ (u.tile x).keep = [] ∧
    ((u.arr x a).bank (s.arr x a).rew.bank).factors = true ∧
    ((u.arr x a).bank (s.arr x a).rew.bank).rank = (s.arr x a).rew.rank ∧
    u.pair (F.OPE_CNT_BUSY_LO_COUNT x) (F.OPE_CNT_BUSY_HI_COUNT x) =
      satAdd 48 (s.pair (F.OPE_CNT_BUSY_LO_COUNT x) (F.OPE_CNT_BUSY_HI_COUNT x))
        ((2 * (s.arr x a).rew.iter + 2) * 128 * (s.arr x a).rew.rank) := by
  subst hu
  unfold State.takeFactors
  extract_lets y k cleared held old z
  have hcleared : (cleared.tile x).keep = [] := congrArg Tile.keep (tile_putTileRec ..)
  have hpair : held.pair (F.OPE_CNT_BUSY_LO_COUNT x) (F.OPE_CNT_BUSY_HI_COUNT x) =
      satAdd 48 (s.pair (F.OPE_CNT_BUSY_LO_COUNT x) (F.OPE_CNT_BUSY_HI_COUNT x)) ((2 * y.rew.iter + 2) * 128 * y.rew.rank) :=
    pair_bumpPair _ _ _ (by simp) (by simp) (by simp only; omega)
  have hsite : SameSite s held :=
    SameSite.trans (u := cleared) ⟨rfl, fun _ _ => rfl⟩ (sameSite_bumpPair _ (by simp only [R.FAB_DEVNUM]; omega)
      (by simp only [R.FAB_DEVNUM]; omega))
  have hbank : z.bank y.rew.bank = { old with factors := true, rank := y.rew.rank } := bank_setBank ..
  have hmem : held.mem = s.mem := rfl
  have hkeep : (held.tile x).keep = [] := hcleared
  clear_value held z
  refine ⟨hmem, hsite.trans (sameSite_putArr _), hkeep, ?_, ?_, hpair⟩
  · rw [arr_putArr]
    exact congrArg Bank.factors hbank
  · rw [arr_putArr]
    exact congrArg Bank.rank hbank

/-- The factors of a bank are among an array's results. -/
theorem factors_of_results {y z : Arr} (h : y.results = z.results) (b : Nat) :
    (y.bank b).factors = (z.bank b).factors ∧ (y.bank b).rank = (z.bank b).rank := by
  simp only [Arr.results, Prod.mk.injEq] at h
  obtain ⟨⟨hf0, hr0⟩, ⟨hf1, hr1⟩, -⟩ := h
  unfold Arr.bank
  split
  · exact ⟨hf0, hr0⟩
  · exact ⟨hf1, hr1⟩

theorem SameSite.factorAddr (h : SameSite s u) : u.factorAddr x a = s.factorAddr x a := by
  simp only [State.factorAddr, h.region]

theorem SettleFrame.pair (h : SettleFrame x a s u) : u.pair (F.OPE_CNT_BUSY_LO_COUNT x) (F.OPE_CNT_BUSY_HI_COUNT x) =
    s.pair (F.OPE_CNT_BUSY_LO_COUNT x) (F.OPE_CNT_BUSY_HI_COUNT x) := by
  rw [State.pair, h.busyLo, h.busyHi, State.pair]

/-- FACTOR_BUILD of a measured bank: its factors, in the bank and in the scratch region (R209, log 39). The settling that follows
leaves them. -/
theorem exec_factorBuild_built {r : Nat} {uv : List (List FVal) × List (List FVal)} (hon : s.power.on = true) (hx : x < 512)
    (hmeasured : (s.arr x a).rew.measured = true) (hbuilt : (s.arr x a).rew.built = false) (htime : s.arrayTime = true)
    (hr : r = (s.arr x a).rew.rank)
    (huv : uv = ((buildFactors (s.residAt x) r (s.arr x a).rew.iter).run 0).1) :
    ∃ t, exec (.factorBuild x a) s = .next t ∧ ((t.arr x a).bank (s.arr x a).rew.bank).factors = true ∧
      ((t.arr x a).bank (s.arr x a).rew.bank).rank = r ∧
      (t.tile x).keep = [] ∧ t.pair (F.OPE_CNT_BUSY_LO_COUNT x) (F.OPE_CNT_BUSY_HI_COUNT x) =
        satAdd 48 (s.pair (F.OPE_CNT_BUSY_LO_COUNT x) (F.OPE_CNT_BUSY_HI_COUNT x)) ((2 * (s.arr x a).rew.iter + 2) * 128 * r) ∧
      (s.factorAddr x a = none → t.mem = s.mem) ∧
      ∀ g, s.factorAddr x a = some g → t.memBytes g (1024 * r) = factorBytes r uv.1 ∧
        t.memBytes (g + 1024 * r) (1024 * r) = factorBytes r uv.2 ∧
        ∀ z, z < g ∨ g + 2048 * r ≤ z → lookup memReset t.mem z = lookup memReset s.mem z := by
  subst hr
  obtain ⟨t, hexec, ht⟩ := exec_factorBuild hon hmeasured hbuilt htime huv
  refine ⟨t, hexec, ?_⟩
  obtain ⟨uf, vf⟩ := uv
  clear huv hexec
  generalize htaken : s.takeFactors x a = taken at ht
  obtain ⟨hmem, hsite, hkeep, hfactors, hrank, hpair⟩ := takeFactors_spec htaken
  have hshown := statFrame_bankStatistics (s := taken) (x := x) (a := a) uf vf
  generalize taken.bankStatistics x a uf vf = shown at ht hshown
  obtain ⟨hregs, harrs, htiles⟩ := storeFactors_units (s := shown) (x := x) (a := a) (s.arr x a).rew.rank uf vf
  have hplace : shown.factorAddr x a = s.factorAddr x a := (hsite.trans hshown.site).factorAddr
  have hbase : shown.mem = s.mem := hshown.mem.trans hmem
  have hsettled := settleFrame_settle (s := shown.storeFactors x a (s.arr x a).rew.rank uf vf) (a := a) hx
  have htmem : t.mem = (shown.storeFactors x a (s.arr x a).rew.rank uf vf).mem := ht.units.2.1.trans hsettled.mem
  obtain ⟨hf, hr⟩ := factors_of_results (z := taken.arr x a) (y := t.arr x a) (by
    rw [arr_congr ht.units.2.2, hsettled.results, arr_congr harrs, hshown.results]) (s.arr x a).rew.bank
  refine ⟨hf.trans hfactors, hr.trans hrank, ?_, ?_, fun hnone => ?_, fun g hg => ?_⟩
  · rw [ht.tile, hsettled.keep, State.tile, htiles]
    exact hshown.keep.trans hkeep
  · rw [← hpair, ← hshown.pair, State.pair, ht.fld, ht.fld, hsettled.busyLo, hsettled.busyHi, fld_congr hregs, fld_congr hregs]
    rfl
  · rw [htmem, State.storeFactors, hplace, hnone]
    exact hbase
  · obtain ⟨hu, hv, hother⟩ := storeFactors_mem uf vf (hplace.trans hg) htmem
    exact ⟨hu, hv, fun z hz => (hother z hz).trans (by rw [hbase])⟩

end Sys2Proof.Machine
end

section
/-! SUPPORT. CALIBRATION (R549 to R554): its windows are counted, and its end leaves none and no calibration in progress.
-/

namespace Sys2Proof.Machine

variable {s t u v : State} {x a : Nat}

/-! ### The end of a calibration (R550, R553, R554) -/

/-- No window of array a's calibration is taken, and its state is idle or awaits its step. -/
def CalOver (x a : Nat) (s : State) : Prop :=
  (s.arr x a).cal.windows = 0 ∧ s.fld (F.ARR_CALSTAT_STATE x a) ∈ [0, 2]

theorem SettleFrame.windows (h : SettleFrame x a s u) : (u.arr x a).cal.windows = (s.arr x a).cal.windows :=
  congrArg (·.2.2) h.results

theorem SettleFrame.calOver (h : SettleFrame x a s u) (hs : CalOver x a s) : CalOver x a u := by
  obtain ⟨hwindows, hstate⟩ := hs
  refine ⟨h.windows.trans hwindows, ?_⟩
  rcases h.cal with hcal | hcal
  · rw [hcal]
    exact hstate
  · simp [hcal]

/-- The state entered at the end, once no window is taken. -/
theorem calOver_setFld {n : Nat} (h : (s.arr x a).cal.windows = 0) (hn : n ∈ [0, 2]) :
    CalOver x a (s.setFld (F.ARR_CALSTAT_STATE x a) n) := by
  refine ⟨(congrArg (·.cal.windows) (mem_arr_setFld _ n).2).trans h, ?_⟩
  rw [fld_setFld_same s (F.ARR_CALSTAT_STATE x a) n (by simp) (by simp)]
  simp only [List.mem_cons, List.not_mem_nil, or_false] at hn ⊢
  omega

/-- A calibration's end, whether it fails or not. -/
theorem calOver_endCalibration : CalOver x a (s.endCalibration x a) := by
  unfold State.endCalibration
  extract_lets y active sums cols kind q r ofs gain z old entering rew moved
  split
  next hit seen hseen =>
  clear_value cols q r ofs gain z moved
  extract_lets dofs dgain fail failed again late save cal w rew' put saved shown
  clear_value fail failed again late w
  split
  next cause col _ =>
    extract_lets cal put counted shown
    have hput : (put.arr x a).cal.windows = 0 := by
      unfold put
      rw [arr_putArr]
    have hcounted : SettleFrame x a put counted :=
      (settleFrame_event beside_busyOrCal).trans (settleFrame_bump _ beside_busyOrCal)
    have hzero : (counted.arr x a).cal.windows = 0 := hcounted.windows.trans hput
    clear_value put counted
    have hshown : CalOver x a shown :=
      (settleFrame_setFld _ beside_busyOrCal).calOver (calOver_setFld hzero (by simp))
    clear_value shown
    split
    · exact (settleFrame_requestTest ..).calOver hshown
    · refine SettleFrame.calOver ?_ hshown
      exact (settleFrame_setFld _ beside_busyOrCal).trans (.forEach _ (fun s j => settleFrame_requestTest ..) _)
  next =>
    have hput : (put.arr x a).cal.windows = 0 := congrArg (·.cal.windows) (arr_putArr ..)
    clear_value put
    have hsaved : SettleFrame x a put saved := .ite (settleFrame_ledgerPut ..) (.refl _)
    have hzero : (saved.arr x a).cal.windows = 0 := hsaved.windows.trans hput
    clear_value saved
    have hshown : CalOver x a shown := calOver_setFld hzero (by simp)
    clear_value shown
    split
    · exact hshown
    · exact (settleFrame_applyTrims _).calOver hshown

/-! ### The windows (R549, R551) -/

/-- The converters on for a calibration, and its draws: taken when its first windows are. -/
def State.calDrawn (s : State) (x a : Nat) : Nat × State :=
  let on := s.convertersOn x a false
  if (s.arr x a).cal.windows = 0 then on.drawWindows else ((s.arr x a).cal.draw, on)

/-- The next windows of a calibration counted. -/
def State.takeWindows (s : State) (x a w : Nat) : State :=
  let y := s.arr x a
  let drawn := s.calDrawn x a
  let counted := drawn.2.putArr x a { y with cal := { y.cal with windows := min 256 (y.cal.windows + w), draw := drawn.1 },
                                             refStep := if y.refFault then some drawn.2.step else y.refStep }
  counted.setFld (F.ARR_CALSTAT_STATE x a) 1

/-- What the windows count in, and what they leave. -/
theorem takeWindows_spec {w : Nat} (hu : s.takeWindows x a w = u) :
    (u.arr x a).cal.windows = min 256 ((s.arr x a).cal.windows + w) ∧ u.fld (F.ARR_CALSTAT_STATE x a) = 1 ∧
      (u.arr x a).gain = (s.arr x a).gain ∧ (u.arr x a).ofs = (s.arr x a).ofs := by
  subst hu
  unfold State.takeWindows
  extract_lets y drawn cal counted
  clear_value drawn
  have harr : counted.arr x a = _ := arr_putArr ..
  have hshown : (counted.setFld (F.ARR_CALSTAT_STATE x a) 1).arr x a = counted.arr x a := (mem_arr_setFld ..).2
  rw [hshown, harr]
  exact ⟨rfl, fld_setFld_same counted (F.ARR_CALSTAT_STATE x a) 1 (by simp) (by simp), rfl, rfl⟩

/-- CALIBRATION that an array needs, outside its pulses (R549, R551). -/
theorem exec_calibration {w : Nat} (hon : s.power.on = true) (htime : s.arrayTime = true) (hdfwd : s.dfwd = false)
    (hheld : s.arrayHeld = false) (hstate : s.prgState x a ∉ [1, 2]) (hrows : s.prgState x a = 5 → 512 ≤ (s.arr x a).rew.row)
    (hdue : s.calDue x a = true) :
    ∃ t, exec (.calibration x a w) s = .next t ∧ Became s (if min 256 ((s.arr x a).cal.windows + w) = 256 then
      ((s.takeWindows x a w).endCalibration x a).settle x a else s.takeWindows x a w) t := by
  change ∃ t, execCalibration x a w s = .next t ∧ _
  unfold execCalibration
  refine act_next hon fun t ht => ?_
  have hgo : (s.arrayTime && !s.arrayHeld && !s.dfwd && s.prgState x a != 1 && s.prgState x a != 2 &&
      !(s.prgState x a == 5 && (s.arr x a).rew.row < 512) && s.calDue x a) = true := by
    simp only [List.mem_cons, List.not_mem_nil, or_false, not_or] at hstate
    obtain ⟨hone, htwo⟩ := hstate
    simp only [htime, hheld, hdfwd, hdue, Bool.and_eq_true, Bool.not_eq_true', bne_iff_ne, ne_eq, hone, htwo,
      not_false_eq_true, and_true, true_and, Bool.and_eq_false_iff, beq_eq_false_iff_ne, decide_eq_false_iff_not, Bool.not_false]
    by_cases h : s.prgState x a = 5
    · have := hrows h
      omega
    · exact .inl h
  dsimp only at ht
  rw [if_pos hgo, arr_convertersOn] at ht
  exact ht

/-- CALIBRATION that an array needs: its windows are counted, and with the 256th it is over (R549, R553). -/
theorem exec_calibration_counted {w : Nat} (hon : s.power.on = true) (hx : x < 512) (htime : s.arrayTime = true)
    (hdfwd : s.dfwd = false) (hheld : s.arrayHeld = false) (hstate : s.prgState x a ∉ [1, 2])
    (hrows : s.prgState x a = 5 → 512 ≤ (s.arr x a).rew.row) (hdue : s.calDue x a = true) :
    ∃ t, exec (.calibration x a w) s = .next t ∧
      ((s.arr x a).cal.windows + w < 256 → (t.arr x a).cal.windows = (s.arr x a).cal.windows + w ∧
        t.fld (F.ARR_CALSTAT_STATE x a) = 1 ∧ (t.arr x a).gain = (s.arr x a).gain ∧ (t.arr x a).ofs = (s.arr x a).ofs) ∧
      (256 ≤ (s.arr x a).cal.windows + w → (t.arr x a).cal.windows = 0 ∧ t.fld (F.ARR_CALSTAT_STATE x a) ∈ [0, 2]) := by
  obtain ⟨t, hexec, ht⟩ := exec_calibration hon htime hdfwd hheld hstate hrows hdue (w := w)
  refine ⟨t, hexec, ?_⟩
  generalize htaken : s.takeWindows x a w = taken at ht
  obtain ⟨hwindows, hshown, hgain, hofs⟩ := takeWindows_spec htaken
  refine ⟨fun hmore => ?_, fun hlast => ?_⟩
  · rw [if_neg (by omega)] at ht
    rw [arr_congr ht.units.2.2, ht.fld]
    exact ⟨hwindows.trans (by omega), hshown, hgain, hofs⟩
  · rw [if_pos (by omega)] at ht
    rw [arr_congr ht.units.2.2, ht.fld]
    exact (settleFrame_settle hx).calOver calOver_endCalibration

end Sys2Proof.Machine
end

section
open Sys2Proof Sys2Proof.Machine

/-- Settles O43: a pattern of a measurement changes its array and the counts, and the last one forms the residual in the scratch
region; the factors and the windows of a calibration outlast the settling of the rewrite that they belong to, which reaches neither
device memory nor the row registers; and an image is 512 rows of 288 bytes. -/
theorem measureAndCalibrate : Obligations.MeasureAndCalibrate := by
  unfold Obligations.MeasureAndCalibrate
  refine ⟨fun s x a hon _ _ hstate htime hdfwd hheld hcal hsusp hmeasured hpattern => ?_,
    fun s x a hon _ _ hstate htime hdfwd hheld hcal hsusp hmeasured hbuilt hpattern hrank hfree =>
      exec_residualMeasurement_last hon ⟨hstate, htime, hdfwd, hheld, hcal, hsusp, hmeasured⟩ hbuilt hpattern hrank hfree,
    fun s x a b r uv hon hx _ _ hb hmeasured hbuilt htime hr huv => ?_,
    fun s x a b g hon _ _ _ hregion hcopied himaged htime => ?_,
    fun s x a w hon hx _ htime hdfwd hheld hstate hrows hdue =>
      exec_calibration_counted hon hx htime hdfwd hheld hstate hrows hdue,
    fun s x a hon _ _ hstate => exec_calibrationSuspend hon hstate⟩
  · obtain ⟨t, hexec, ht⟩ :=
      exec_residualMeasurement_pattern hon ⟨hstate, htime, hdfwd, hheld, hcal, hsusp, hmeasured⟩ hpattern
    obtain ⟨hcount, hreads, hkept, hset⟩ := ht.rewrite
    exact ⟨t, hexec, hcount, hreads, hkept.trans hmeasured, ht.state.trans hstate, hset, ht.count, ht.on, ht.mem⟩
  · subst hb
    exact exec_factorBuild_built hon hx hmeasured hbuilt htime hr huv
  · obtain ⟨t, hexec, ht⟩ := exec_pn4ImageBuild hon hregion hcopied himaged htime
    exact ⟨t, hexec, ht.frame⟩
end

section
/-! SUPPORT. Zero-run compression (R296, R297): the tensor's pages, the tokens of a page, and both read back.
-/

namespace Sys2Proof.Machine

variable {α : Type}

/-! ### Lists in pieces -/

theorem flatten_chunksOf {n : Nat} (hn : 0 < n) {fuel : Nat} {xs : List α} (hfuel : xs.length ≤ fuel) :
    (chunksOf n fuel xs).flatten = xs := by
  induction fuel, xs using chunksOf.induct n with
  | case1 xs => simpa [chunksOf] using hfuel
  | case2 => simp [chunksOf]
  | case3 fuel xs hxs ih =>
    rw [chunksOf, List.flatten_cons, ih (by rw [List.length_drop]; omega), List.take_append_drop]
    exact hxs

theorem length_chunksOf {n : Nat} (hn : 0 < n) {fuel : Nat} {xs : List α} (hfuel : xs.length ≤ fuel) :
    (chunksOf n fuel xs).length = ceilDiv xs.length n := by
  induction fuel, xs using chunksOf.induct n with
  | case1 xs =>
    obtain rfl : xs = [] := List.length_eq_zero_iff.mp (by omega)
    simp [chunksOf, ceilDiv, Nat.div_eq_of_lt, hn]
  | case2 => simp [chunksOf, ceilDiv, Nat.div_eq_of_lt, hn]
  | case3 fuel xs hxs ih =>
    have hpos : 0 < xs.length := List.length_pos_iff.mpr hxs
    rw [chunksOf, List.length_cons, ih (by rw [List.length_drop]; omega), List.length_drop]
    · unfold ceilDiv
      rw [← Nat.add_div_right _ hn]
      by_cases h : n ≤ xs.length
      · congr 1; omega
      · rw [show xs.length - n + n - 1 + n = (n - 1) + n by omega, Nat.add_div_right _ hn,
          show xs.length + n - 1 = (xs.length - 1) + n by omega, Nat.add_div_right _ hn,
          Nat.div_eq_of_lt (by omega), Nat.div_eq_of_lt (by omega)]
    · exact hxs

theorem length_le_of_mem_chunksOf {n fuel : Nat} {xs : List α} : ∀ c ∈ chunksOf n fuel xs, c.length ≤ n := by
  induction fuel, xs using chunksOf.induct n with
  | case1 => simp [chunksOf]
  | case2 => simp [chunksOf]
  | case3 fuel xs hxs ih =>
    rw [chunksOf]
    · exact List.forall_mem_cons.mpr ⟨List.length_take_le _ _, ih⟩
    · exact hxs

/-- Pieces padded to their length are the list with padding behind it. -/
theorem flatten_padded_chunksOf {n : Nat} (hn : 0 < n) (z : α) {fuel : Nat} {xs : List α} (hfuel : xs.length ≤ fuel) :
    ∃ pad, ((chunksOf n fuel xs).map (padTo n z)).flatten = xs ++ pad := by
  induction fuel, xs using chunksOf.induct n with
  | case1 xs => exact ⟨[], by simpa [chunksOf, eq_comm] using hfuel⟩
  | case2 => exact ⟨[], by simp [chunksOf]⟩
  | case3 fuel xs hxs ih =>
    obtain ⟨pad, hpad⟩ := ih (by rw [List.length_drop]; omega)
    rw [chunksOf, List.map_cons, List.flatten_cons, hpad, padTo]
    · by_cases h : n ≤ xs.length
      · exact ⟨pad, by simp [h, ← List.append_assoc]⟩
      · refine ⟨List.replicate (n - xs.length) z ++ pad, ?_⟩
        rw [List.take_of_length_le (by omega), List.drop_of_length_le (by omega), List.nil_append, List.append_assoc]
    · exact hxs

theorem flatten_chunks {n : Nat} (hn : 0 < n) (xs : List α) : (chunks n xs).flatten = xs :=
  flatten_chunksOf hn (Nat.le_refl _)

theorem length_chunks {n : Nat} (hn : 0 < n) (xs : List α) : (chunks n xs).length = ceilDiv xs.length n :=
  length_chunksOf hn (Nat.le_refl _)

theorem length_padTo {n : Nat} (z : α) {xs : List α} (h : xs.length ≤ n) : (padTo n z xs).length = n := by
  simp [padTo, h]

/-! ### The tokens of a page -/

theorem length_flatten_granules {n : Nat} {gs : List (List Byte)} (hlen : ∀ g ∈ gs, g.length = n) :
    gs.flatten.length = gs.length * n := by
  simpa using length_flatMap_const (f := id) hlen

theorem flatten_of_zeroGranules {n : Nat} {gs : List (List Byte)} (hlen : ∀ g ∈ gs, g.length = n)
    (hzero : ∀ g ∈ gs, zeroGranule g = true) : gs.flatten = zeros (gs.length * n) := by
  rw [zeros, List.eq_replicate_iff]
  refine ⟨length_flatten_granules hlen, fun b hb => ?_⟩
  obtain ⟨g, hg, hb⟩ := List.mem_flatten.mp hb
  simpa using List.all_eq_true.mp (hzero g hg) b hb

theorem runLength_le (z : Bool) (gs : List (List Byte)) : runLength z gs ≤ gs.length := by
  induction gs with
  | nil => exact Nat.le_refl _
  | cons g gs ih => rw [runLength]; split <;> simp [ih]

/-- The granules of a run are alike. -/
theorem alike_of_le_runLength {z : Bool} {n : Nat} {gs : List (List Byte)} (hn : n ≤ runLength z gs) :
    ∀ g ∈ gs.take n, zeroGranule g = z := by
  induction gs generalizing n with
  | nil => simp
  | cons g gs ih =>
    cases n with
    | zero => simp
    | succ n =>
      rw [runLength] at hn
      split at hn
      next h => simpa [beq_iff_eq.mp h] using ih (by omega)
      · omega

/-- How many granules the first token of a page holds. -/
def tokenRun (g : List Byte) (gs : List (List Byte)) : Nat := min 128 (runLength (zeroGranule g) (g :: gs))

theorem tokenRun_bounds (g : List Byte) (gs : List (List Byte)) :
    0 < tokenRun g gs ∧ tokenRun g gs ≤ 128 ∧ tokenRun g gs ≤ gs.length + 1 := by
  have hle := runLength_le (zeroGranule g) (g :: gs)
  have hpos : 0 < runLength (zeroGranule g) (g :: gs) := by simp [runLength]
  rw [List.length_cons] at hle
  unfold tokenRun
  omega

theorem pageTokens_zero {g : List Byte} (hz : zeroGranule g = true) (fuel : Nat) (gs : List (List Byte)) :
    pageTokens (fuel + 1) (g :: gs) =
      BitVec.ofNat 8 (128 + (tokenRun g gs - 1)) :: pageTokens fuel ((g :: gs).drop (tokenRun g gs)) := by
  simp [pageTokens, tokenRun, hz, leBytes]

theorem pageTokens_literal {g : List Byte} (hz : zeroGranule g = false) (fuel : Nat) (gs : List (List Byte)) :
    pageTokens (fuel + 1) (g :: gs) = BitVec.ofNat 8 (tokenRun g gs - 1) :: (((g :: gs).take (tokenRun g gs)).flatten ++
      pageTokens fuel ((g :: gs).drop (tokenRun g gs))) := by
  simp [pageTokens, tokenRun, hz, leBytes]

/-- A token's byte counts its granules and tells a run of zeros from literals. -/
theorem tokenByte {n : Nat} (hn : 0 < n) (hle : n ≤ 128) :
    (BitVec.ofNat 8 (n - 1)).toNat = n - 1 ∧ (BitVec.ofNat 8 (128 + (n - 1))).toNat = 128 + (n - 1) ∧
      (n - 1) % 128 + 1 = n ∧ (128 + (n - 1)) % 128 + 1 = n := by
  simp only [BitVec.toNat_ofNat]
  omega

/-- A page's tokens give its granules back. -/
theorem readTokens_pageTokens {n : Nat} {fuel k : Nat} {gs : List (List Byte)} (hlen : ∀ g ∈ gs, g.length = n)
    (hfuel : gs.length ≤ fuel) (hk : (pageTokens fuel gs).length ≤ k) :
    readTokens n k (pageTokens fuel gs) = gs.flatten := by
  induction fuel generalizing gs k with
  | zero =>
    obtain rfl : gs = [] := List.length_eq_zero_iff.mp (by omega)
    cases k <;> simp [pageTokens, readTokens]
  | succ fuel ih =>
    cases gs with
    | nil => cases k <;> simp [pageTokens, readTokens]
    | cons g gs =>
      obtain ⟨hpos, hmax, hfit⟩ := tokenRun_bounds g gs
      obtain ⟨hlit, hrun, hlitCount, hrunCount⟩ := tokenByte hpos hmax
      have hhead : ((g :: gs).take (tokenRun g gs)).length = tokenRun g gs := by simp; omega
      have hheadLen : ∀ y ∈ (g :: gs).take (tokenRun g gs), y.length = n := fun y hy => hlen y (List.mem_of_mem_take hy)
      have halike := alike_of_le_runLength (z := zeroGranule g) (gs := g :: gs) (Nat.min_le_right 128 _)
      have hrest : ∀ m, (pageTokens fuel ((g :: gs).drop (tokenRun g gs))).length ≤ m →
          readTokens n m (pageTokens fuel ((g :: gs).drop (tokenRun g gs))) = ((g :: gs).drop (tokenRun g gs)).flatten :=
        fun m => ih (fun y hy => hlen y (List.mem_of_mem_drop hy)) (by simp at hfuel ⊢; omega)
      have hsplit : (g :: gs).flatten = ((g :: gs).take (tokenRun g gs)).flatten ++ ((g :: gs).drop (tokenRun g gs)).flatten := by
        rw [← List.flatten_append, List.take_append_drop]
      have hcount := length_flatten_granules hheadLen
      rw [hhead] at hcount
      rw [hsplit]
      cases hz : zeroGranule g with
      | true =>
        rw [pageTokens_zero hz] at hk ⊢
        obtain ⟨k, rfl⟩ : ∃ m, k = m + 1 := ⟨k - 1, by simp at hk; omega⟩
        rw [readTokens, hrun, hrunCount, if_neg (by omega), hrest k (by simpa using hk),
          flatten_of_zeroGranules hheadLen (fun y hy => (halike y hy).trans hz), hhead]
      | false =>
        rw [pageTokens_literal hz] at hk ⊢
        obtain ⟨k, rfl⟩ : ∃ m, k = m + 1 := ⟨k - 1, by simp at hk; omega⟩
        rw [readTokens, hlit, hlitCount, if_pos (by omega), List.take_left' hcount, List.drop_left' hcount,
          hrest k (by simp at hk; omega)]

/-- A token takes one byte beside its granules. -/
theorem length_pageTokens_le {n : Nat} {fuel : Nat} {gs : List (List Byte)} (hlen : ∀ g ∈ gs, g.length = n) :
    (pageTokens fuel gs).length ≤ gs.length * (n + 1) := by
  induction fuel generalizing gs with
  | zero => simp [pageTokens]
  | succ fuel ih =>
    cases gs with
    | nil => simp [pageTokens]
    | cons g gs =>
      obtain ⟨hpos, -, hfit⟩ := tokenRun_bounds g gs
      have hrest := ih (gs := (g :: gs).drop (tokenRun g gs)) (fun y hy => hlen y (List.mem_of_mem_drop hy))
      have hhead := length_flatten_granules (gs := (g :: gs).take (tokenRun g gs)) (fun y hy => hlen y (List.mem_of_mem_take hy))
      have hsplit : (g :: gs).length * (n + 1) = tokenRun g gs * n + tokenRun g gs + (gs.length + 1 - tokenRun g gs) * (n + 1) := by
        rw [← Nat.mul_succ, ← Nat.add_mul, List.length_cons]
        congr 1
        omega
      rw [List.length_drop, List.length_cons] at hrest
      rw [List.length_take, List.length_cons, Nat.min_eq_left hfit] at hhead
      cases hz : zeroGranule g with
      | true =>
        rw [pageTokens_zero hz, hsplit, List.length_cons]
        omega
      | false =>
        rw [pageTokens_literal hz, hsplit, List.length_cons, List.length_append, hhead]
        omega

/-! ### Pages -/

theorem granuleBytes_bounds (d : W16) : 0 < granuleBytes d ∧ granuleBytes d ≤ 16 := by
  unfold granuleBytes
  split <;> omega

/-- A page's header tells where its tokens end, and its padding where the next page begins. -/
theorem page_reads {gs : List (List Byte)} (hfits : 4 + (pageTokens gs.length gs).length < 2 ^ 16) (rest : List Byte) :
    leAt (pageOf gs ++ rest) 0 2 = 4 + (pageTokens gs.length gs).length ∧
      slice (pageOf gs ++ rest) 4 (pageTokens gs.length gs).length = pageTokens gs.length gs ∧
      (pageOf gs ++ rest).drop (roundUp (4 + (pageTokens gs.length gs).length) 16) = rest := by
  generalize hts : pageTokens gs.length gs = ts at hfits ⊢
  have hpage : pageOf gs = leBytes 2 (4 + ts.length) ++ (zeros 2 ++ (ts ++
      List.replicate (roundUp (4 + ts.length) 16 - (4 + ts.length)) 0)) := by
    simp [pageOf, padTo, hts, zeros]
    omega
  have hround : 4 + ts.length ≤ roundUp (4 + ts.length) 16 := by unfold roundUp; omega
  rw [hpage]
  refine ⟨?_, ?_, List.drop_left' ?_⟩
  · rw [leAt, slice, List.drop_zero, List.append_assoc, List.take_left' (by simp), leNat_leBytes]
    exact Nat.mod_eq_of_lt hfits
  · have hdrop : ∀ tail : List Byte, (leBytes 2 (4 + ts.length) ++ (zeros 2 ++ tail)).drop 4 = tail := fun tail => by
      rw [← List.append_assoc, List.drop_left' (by simp [zeros])]
    rw [slice, List.append_assoc, List.append_assoc, List.append_assoc, hdrop, List.take_left' rfl]
  · simp [zeros]
    omega

/-- Pages of granules of up to 16 bytes, up to 256 of them, are read back. -/
theorem decompress_pages {d : W16} {pages : List (List (List Byte))} (hcount : ∀ p ∈ pages, p.length ≤ 256)
    (hlen : ∀ p ∈ pages, ∀ g ∈ p, g.length = granuleBytes d) (tail : List Byte) :
    decompress d pages.length ((pages.map pageOf).flatten ++ tail) = (pages.map List.flatten).flatten := by
  induction pages with
  | nil => rfl
  | cons p ps ih =>
    obtain ⟨hp, hps⟩ := List.forall_mem_cons.mp hcount
    obtain ⟨hpLen, hpsLen⟩ := List.forall_mem_cons.mp hlen
    have hg := (granuleBytes_bounds d).2
    have htokens : (pageTokens p.length p).length ≤ 256 * 17 :=
      (length_pageTokens_le hpLen).trans (Nat.mul_le_mul hp (by omega))
    obtain ⟨hheader, hslice, hdrop⟩ := page_reads (gs := p) (by omega) ((ps.map pageOf).flatten ++ tail)
    rw [List.map_cons, List.flatten_cons, List.append_assoc, List.length_cons, decompress, hheader,
      Nat.add_sub_cancel_left, hslice, hdrop, ih hps hpsLen,
      readTokens_pageTokens hpLen (Nat.le_refl _) (Nat.le_succ _), List.map_cons, List.flatten_cons]

/-! ### A tensor's pages -/

theorem length_pagesOf (d : W16) (bs : List Byte) : (pagesOf d bs).length = pageCount d bs.length := by
  rw [pagesOf, length_chunks (by omega), List.length_map, length_chunks (granuleBytes_bounds d).1, pageCount]

/-- A page has at most 256 granules, all of the format's length. -/
theorem granules_of_mem_pagesOf {d : W16} {bs : List Byte} {p : List (List Byte)} (hp : p ∈ pagesOf d bs) :
    p.length ≤ 256 ∧ ∀ g ∈ p, g.length = granuleBytes d := by
  refine ⟨length_le_of_mem_chunksOf p hp, fun g hg => ?_⟩
  have hmem : g ∈ (pagesOf d bs).flatten := List.mem_flatten_of_mem hp hg
  rw [pagesOf, flatten_chunks (by omega)] at hmem
  obtain ⟨c, hc, rfl⟩ := List.mem_map.mp hmem
  exact length_padTo 0 (length_le_of_mem_chunksOf c hc)

/-- A tensor's pages hold its bytes, then the padding of its last granule. -/
theorem flatten_pagesOf (d : W16) (bs : List Byte) : ∃ pad, ((pagesOf d bs).map List.flatten).flatten = bs ++ pad := by
  obtain ⟨pad, hpad⟩ := flatten_padded_chunksOf (granuleBytes_bounds d).1 (0 : Byte) (Nat.le_refl bs.length)
  exact ⟨pad, by rw [← List.flatten_flatten, pagesOf, flatten_chunks (by omega), chunks, hpad]⟩

end Sys2Proof.Machine
end

section
open Sys2Proof Sys2Proof.Machine

/-- Settles O60: the pages of a tensor hold its granules, whose tokens are read back page by page. -/
theorem stashRoundTrip : Obligations.StashRoundTrip := by
  unfold Obligations.StashRoundTrip
  intro d bs
  obtain ⟨pad, hpad⟩ := flatten_pagesOf d bs
  rw [compress, ← length_pagesOf, decompress_pages (fun p hp => (granules_of_mem_pagesOf hp).1)
    (fun p hp => (granules_of_mem_pagesOf hp).2), hpad, List.take_left' rfl]
end

section
/-! SUPPORT. Which bank of an array is active (ARR_STAT.ACTIVE) through a boundary (R184, R40): the swap of digital forward mode changes it
in every array (R188), and what follows the swap in none.
-/

namespace Sys2Proof.Machine

variable {s u v : State} {x a y c : Nat}

/-! ### The relation -/

/-- From s to u no array's active bank changed. -/
structure ActiveKept (s u : State) : Prop where
  active : ∀ y c, c < 8 → u.active y c = s.active y c

theorem ActiveKept.refl (s : State) : ActiveKept s s := ⟨fun _ _ _ => rfl⟩

theorem ActiveKept.trans (h : ActiveKept s u) (h' : ActiveKept u v) : ActiveKept s v :=
  ⟨fun y c hc => (h'.active y c hc).trans (h.active y c hc)⟩

theorem ActiveKept.ite {p : Prop} [Decidable p] (h : ActiveKept s u) (h' : ActiveKept s v) :
    ActiveKept s (if p then u else v) := by
  split
  · exact h
  · exact h'

theorem ActiveKept.forEach {α : Type} {f : State → α → State} {es : List α} (h : ActiveKept s u)
    (hf : ∀ w, ∀ e ∈ es, ActiveKept w (f w e)) : ActiveKept s (forEach es u f) := by
  induction es generalizing u with
  | nil => exact h
  | cons e es ih =>
    obtain ⟨he, hes⟩ := List.forall_mem_cons.mp fun e he w => hf w e he
    exact ih (h.trans (he u)) fun w e he => hes e he w

/-- Whatever changes no register. -/
theorem ActiveKept.regs (h : ActiveKept s u) (hregs : v.regs = u.regs) : ActiveKept s v :=
  ⟨fun y c hc => (fld_congr hregs _).trans (h.active y c hc)⟩

/-! ### Registers and records -/

theorem ActiveKept.setFld (h : ActiveKept s u) {f : Fld} {n : Nat} (hwidth : f.lo ≤ f.hi ∧ f.hi < 32 := by simp)
    (hbits : ∀ y c, c < 8 → f.off = (F.ARR_STAT_ACTIVE y c).off → 0 < f.lo := by intros; simp only at *; omega) :
    ActiveKept s (u.setFld f n) := by
  refine ⟨fun y c hc => (fld_setFld_other u (F.ARR_STAT_ACTIVE y c) f n hwidth.1 hwidth.2 ?_).trans (h.active y c hc)⟩
  by_cases hoff : (F.ARR_STAT_ACTIVE y c).off = f.off
  · exact .inr (.inl (hbits y c hc hoff.symm))
  · exact .inl hoff

theorem ActiveKept.setFlag (h : ActiveKept s u) {f : Fld} {b : Bool} (hwidth : f.lo ≤ f.hi ∧ f.hi < 32 := by simp)
    (hbits : ∀ y c, c < 8 → f.off = (F.ARR_STAT_ACTIVE y c).off → 0 < f.lo := by intros; simp only at *; omega) :
    ActiveKept s (u.setFlag f b) := h.setFld hwidth hbits

theorem ActiveKept.event (h : ActiveKept s u) {f : Fld} (hwidth : f.lo ≤ f.hi ∧ f.hi < 32 := by simp)
    (hbits : ∀ y c, c < 8 → f.off = (F.ARR_STAT_ACTIVE y c).off → 0 < f.lo := by intros; simp only at *; omega) :
    ActiveKept s (u.event f) := h.setFld hwidth hbits

theorem ActiveKept.bump (h : ActiveKept s u) {f : Fld} {n : Nat} (hwidth : f.lo ≤ f.hi ∧ f.hi < 32 := by simp)
    (hbits : ∀ y c, c < 8 → f.off = (F.ARR_STAT_ACTIVE y c).off → 0 < f.lo := by intros; simp only at *; omega) :
    ActiveKept s (u.bump f n) := h.setFld hwidth hbits

theorem ActiveKept.wr (h : ActiveKept s u) {off : Nat} {w : W32} (hoff : ∀ y c, c < 8 → off ≠ (F.ARR_STAT_ACTIVE y c).off) :
    ActiveKept s (u.wr off w) :=
  ⟨fun y c hc => (fld_wr_other u (F.ARR_STAT_ACTIVE y c) w (hoff y c hc).symm).trans (h.active y c hc)⟩

theorem ActiveKept.putArr (h : ActiveKept s u) {z : Arr} : ActiveKept s (u.putArr x a z) := h.regs rfl
theorem ActiveKept.putTileRec (h : ActiveKept s u) {z : Tile} : ActiveKept s (u.putTileRec x z) := h.regs rfl
theorem ActiveKept.setJob (h : ActiveKept s u) (j : Job) : ActiveKept s { u with job := j } := h.regs rfl
theorem ActiveKept.putMem (h : ActiveKept s u) {bs : List Byte} : ActiveKept s (u.putMem a bs) := h.regs rfl

/-- What changes no register of a tile. -/
theorem TileRegsKept.activeKept (h : TileRegsKept s u) : ActiveKept s u :=
  ⟨fun y c _ => by simp only [State.active, State.fld, h.rd (F.ARR_STAT_ACTIVE y c).off (by simp only; omega)]⟩

/-- What changes only the registers of a tile that are no array's. -/
theorem TileOnly.activeKept (h : TileOnly x s u) : ActiveKept s u :=
  ⟨fun y c hc => h.fld (F.ARR_STAT_ACTIVE y c) (by simp only [TileOff]; omega)⟩

theorem ActiveKept.setPair (h : ActiveKept s u) {lo hi : Fld} {n : Nat} (hlo : lo.off < 0x1000000 := by simp)
    (hhi : hi.off < 0x1000000 := by simp) : ActiveKept s (u.setPair lo hi n) :=
  h.trans (tileRegsKept_setPair n hlo hhi).activeKept

/-! ### Cover and budget (R226, R252, R583) -/

theorem activeKept_folioPut (hx : x < 512) (type flags layer oper unit acc : Nat) (payload : List Byte) :
    ActiveKept s (s.folioPut x type flags layer oper unit acc payload) := by
  unfold State.folioPut State.foldOcc
  dsimp only
  exact .ite (ActiveKept.refl s).setFld.putTileRec.setFld (ActiveKept.refl s).setFld.putTileRec.bump.bump

theorem activeKept_budgetRecord (hx : x < 512) : ActiveKept s (s.budgetRecord x a) :=
  .ite (activeKept_folioPut hx ..) (.refl s)

theorem activeKept_coverStat : ActiveKept s (s.coverStat x) := by
  unfold State.coverStat
  exact (ActiveKept.refl s).setFld.setFld.forEach fun w b hb => (ActiveKept.refl w).setFlag

theorem activeKept_startCover (cols : List Nat) : ActiveKept s (s.startCover x a cols) := by
  unfold State.startCover
  exact .ite ((ActiveKept.refl s).putArr.trans activeKept_coverStat)
    ((ActiveKept.refl s).event.trans (tileRegsKept_raiseFault ..).activeKept)

theorem activeKept_leaveBudget (hx : x < 512) : ActiveKept s (s.leaveBudget x a) := by
  unfold State.leaveBudget
  extract_lets left
  have hleft : ActiveKept s left := (ActiveKept.refl s).setFlag.event.bump.trans (activeKept_budgetRecord hx)
  exact .ite (hleft.trans (tileOnly_requestTest ..).activeKept) hleft

theorem activeKept_arrayOut (hx : x < 512) : ActiveKept s (s.arrayOut x a) := by
  unfold State.arrayOut
  extract_lets off left y recorded put verdict
  have hoff : ActiveKept s off := (ActiveKept.refl s).setFlag.bump
  have hleft : ActiveKept s left := hoff.trans (.ite (activeKept_leaveBudget hx) (.refl off))
  have hput : ActiveKept s put := (hleft.trans (tileRegsKept_recordFault ..).activeKept).putArr
  have hverdict : ActiveKept s verdict := by
    unfold verdict
    split
    · exact .ite hput.setFld hput
    · exact hput
  exact hverdict.trans (activeKept_startCover _)

theorem activeKept_budget (hx : x < 512) : ActiveKept s (s.budget x a) := by
  unfold State.budget
  extract_lets y was rvcfg nofact rescol due
  have hdue : ActiveKept s due := (ActiveKept.refl s).setFlag.setFlag.setFlag.setFlag
  split
  extract_lets temp now left
  have htemp : ActiveKept s temp := hdue.setFlag.setFlag
  have hleft : ActiveKept s left := htemp.trans (activeKept_leaveBudget hx)
  exact .ite (.ite (hleft.trans (activeKept_arrayOut hx)) hleft) htemp.setFlag

theorem activeKept_coverAll : ActiveKept s s.coverAll :=
  (ActiveKept.refl s).forEach fun _ _ hk =>
    (activeKept_startCover _).trans (activeKept_budget (lt_of_mem_allArrays hk).1)

/-! ### The swap (R184, R188, R378) -/

theorem activeKept_copyMark (b version : Nat) : ActiveKept s (s.copyMark x a b version) := by
  refine (ActiveKept.refl s).putArr.wr fun y c hc => ?_
  split <;> simp only [R.ARR_VER0, R.ARR_VER1] <;> omega

theorem activeKept_copyCopies : ActiveKept s s.copyCopies := by
  refine (ActiveKept.refl s).forEach fun w p _ => ?_
  dsimp only
  split
  · exact (ActiveKept.refl w).putMem.trans (activeKept_copyMark ..)
  · exact .refl w

theorem swapArray_dfwd (h : s.dfwd = true) : s.swapArray x a = s.setFld (F.ARR_STAT_ACTIVE x a) (1 - s.active x a) := by
  unfold State.swapArray
  dsimp only
  exact if_pos h

/-- Arrays swapped in turn in digital forward mode: each of them changes its active bank, and no other does. -/
theorem active_swapArrays {ks : List (Nat × Nat)} (hnodup : ks.Nodup) (hks : ∀ k ∈ ks, k.2 < 8) (h : s.dfwd = true)
    (hc : c < 8) : (forEach ks s fun s k => s.swapArray k.1 k.2).active y c =
      if (y, c) ∈ ks then 1 - s.active y c else s.active y c := by
  induction ks generalizing s with
  | nil => simp [forEach]
  | cons k ks ih =>
    obtain ⟨x, a⟩ := k
    obtain ⟨ha, hks⟩ := List.forall_mem_cons.mp hks
    obtain ⟨hfirst, hnodup⟩ := List.nodup_cons.mp hnodup
    have hrest := ih (s := s.swapArray x a) hnodup hks (by rw [swapArray_dfwd h]; exact h)
    rw [swapArray_dfwd h] at hrest
    change (forEach ks (s.swapArray x a) _).active y c = _
    rw [swapArray_dfwd h, hrest]
    by_cases hk : (y, c) = (x, a)
    · obtain ⟨rfl, rfl⟩ := Prod.mk.inj hk
      have hset := fld_setFld_same s (F.ARR_STAT_ACTIVE y c) (1 - s.active y c) (by simp) (by simp)
      rw [if_neg hfirst, if_pos (List.mem_cons_self ..), State.active, hset]
      exact Nat.mod_eq_of_lt (by simp only; omega)
    · have hother : (s.setFld (F.ARR_STAT_ACTIVE x a) (1 - s.active x a)).active y c = s.active y c :=
        fld_setFld_other s (F.ARR_STAT_ACTIVE y c) (F.ARR_STAT_ACTIVE x a) _ (by simp) (by simp) (.inl fun hoff => hk (by
          simp only at ha hoff ⊢
          rw [Prod.mk.injEq]
          omega))
      rw [hother]
      simp only [List.mem_cons, hk, false_or]

theorem nodup_allArrays : allArrays.Nodup :=
  List.nodup_range.map fun i j h => by
    obtain ⟨hdiv, hmod⟩ := Prod.mk.inj h
    omega

/-- The swap of digital forward mode changes every array's active bank (R188). -/
theorem active_swapAll (h : s.dfwd = true) (hy : y < 512) (hc : c < 8) : s.swapAll.active y c = 1 - s.active y c := by
  unfold State.swapAll
  extract_lets ens swapped job copied
  have hswapped : swapped.active y c = 1 - s.active y c := by
    have hall := active_swapArrays (s := { s with ens := { s.ens with swapDue := none } }) (y := y) nodup_allArrays
      (fun k hk => (lt_of_mem_allArrays hk).2) h hc
    rwa [if_pos (mem_allArrays hy hc)] at hall
  clear_value swapped
  have hcopied : ActiveKept swapped copied := .ite (((ActiveKept.refl swapped).setJob _).trans activeKept_copyCopies) (.refl _)
  exact ((hcopied.trans activeKept_coverAll).active y c hc).trans hswapped

/-! ### After the swap (R40, R309, R483, R555, R557, R565) -/

theorem activeKept_applyTrims (_ : a < 8) (bank : Nat) : ActiveKept s (s.applyTrims x a bank) := by
  unfold State.applyTrims
  exact (ActiveKept.refl s).putArr.setFld.setFld.setFld.event.bump.setFld

theorem activeKept_otherTrims : ActiveKept s s.otherTrims :=
  (ActiveKept.refl s).forEach fun _ _ _ => activeKept_applyTrims (Nat.mod_lt _ (by omega)) _

theorem regs_putParam (param : Nat) (w : W16) : (s.putParam param w).regs = s.regs := by
  unfold State.putParam State.putPlace
  split
  · dsimp only
    split <;> rfl
  · rfl

theorem activeKept_applyMem (n : Nat) : ActiveKept s (s.applyMem n) := by
  unfold State.applyMem
  extract_lets step now job left
  refine ((ActiveKept.refl s).regs (v := left) rfl).forEach fun w e _ => ?_
  split
  · exact (ActiveKept.refl w).regs (regs_putParam ..)
  · exact .refl w

theorem activeKept_ckBoundary (n : Nat) : ActiveKept s (s.ckBoundary n) := by
  unfold State.ckBoundary
  refine .ite ?_ (.refl s)
  extract_lets ckpt shown streamed began moved staged
  have hshown : ActiveKept s shown := .ite (.refl s) (ActiveKept.refl s).setPair
  have hstaged : ActiveKept s staged := by
    unfold staged
    split
    · exact hshown.putMem
    · exact hshown
  exact .ite (.ite (hstaged.regs rfl) (hshown.regs rfl)) (hstaged.regs rfl)

theorem activeKept_redBoundary : ActiveKept s (s.redBoundary x) := by
  have hoff : ∀ y c, c < 8 → R.TIL_REDSTAT x ≠ (F.ARR_STAT_ACTIVE y c).off := by
    intros
    simp only [R.TIL_REDSTAT]
    omega
  exact .ite ((ActiveKept.refl s).putTileRec.wr hoff) ((ActiveKept.refl s).putTileRec.wr hoff)

theorem activeKept_calPoint : ActiveKept s (s.calPoint x) := by
  refine .ite ?_ (.refl s)
  split
  · exact (ActiveKept.refl s).putTileRec.setFld
  · exact (ActiveKept.refl s).putTileRec

/-- What a boundary does before its swap: the hold ends, scale records, gain entries and watchers follow the step (R309, R310, R316). -/
def State.beforeSwap (s : State) (u : Nat) : State :=
  let s := s.endHold.replayed.scaleBoundary u
  let s := forEach s.myPlacements s (fun s p => s.gainBoundary p.tile p.array)
  let s : State := { s with job := { s.job with watched := false }, ens := { s.ens with swapDue := none } }
  forEach s.chart.watchers.zipIdx s (fun s (w : Watcher × Nat) => s.watchStep w.2 w.1)

/-- What a boundary does after its swap: trims and values in memory take effect, a checkpoint is copied, and HUB_STEP moves on (R40, R180,
R483, R555, R557, R565). -/
def State.afterSwap (s : State) (u : Nat) : State :=
  let s := (s.otherTrims.applyMem u).ckBoundary u
  let ts := (s.tiles.filter (fun e => e.2.redWant != 0 || s.fld (F.TIL_REDSTAT_LEFT e.1) != 0)).map (·.1)
  let s := forEach ts s (fun s t => s.redBoundary t)
  let s := forEach ((s.tiles.filter (fun e => e.2.calWant)).map (·.1)) s (fun s t => s.calPoint t)
  let loss := ((pairSum .saturate Pair.zero (s.job.losses.map ofPairBits)).run 0).1
  let s : State :=
    { s with job := { s.job with stepLoss := pairBits loss, losses := [], nextF := 0, nextB := 0, touched := [], bases := [] } }
  let s := (s.keep (u + 1)).setPair F.HUB_STEP_LO_STEP F.HUB_STEP_HI_STEP (u + 1)
  s.setFld F.HUB_STEPSTAT_GBUF (b2n s.chart.gbuf * ((u + 1) % 2))

/-- The time of the step that ends (R522). -/
def State.timeStep (s : State) : State :=
  let s := match s.gov.lastStep with
    | some t => s.setFld F.GOV_STEPPER_TIME (min (2 ^ 32 - 1) (s.osc - t))
    | none => s
  { s with gov := { s.gov with lastStep := some s.osc } }

/-- A boundary in its parts: before its swap, the swap, after it, and the STOP that is due. -/
theorem boundary_eq (n : Nat) (swap : Bool) : s.boundary n swap =
    let closed := ((if swap then (s.beforeSwap n).swapAll else s.beforeSwap n).afterSwap n).timeStep
    if s.endHold.replayed.stopDue n then closed.stopJob else closed := by
  unfold State.boundary
  extract_lets held stop scaled gained job ens marked watched streamed ts redone calibrated loss job' summed stepped gbuf timed gov
    ended closed
  have hgbuf : (if swap then (s.beforeSwap n).swapAll else s.beforeSwap n).afterSwap n = gbuf := by
    unfold State.afterSwap State.beforeSwap
    with_reducible rfl
  have hclosed : closed = gbuf.timeStep := congrArg State.timeStep hgbuf
  rw [hclosed]
  clear_value gbuf
  rfl

theorem activeKept_afterSwap (n : Nat) : ActiveKept s (s.afterSwap n) := by
  unfold State.afterSwap
  extract_lets streamed ts redone calibrated
  have hstreamed : ActiveKept s streamed := (activeKept_otherTrims.trans (activeKept_applyMem n)).trans (activeKept_ckBoundary n)
  have hcalibrated : ActiveKept s calibrated :=
    (hstreamed.forEach fun _ _ _ => activeKept_redBoundary).forEach fun _ _ _ => activeKept_calPoint
  exact ((hcalibrated.setJob _).setJob _).setPair.setFld

theorem activeKept_timeStep : ActiveKept s s.timeStep := by
  unfold State.timeStep
  extract_lets timed
  have htimed : ActiveKept s timed := by
    unfold timed
    split
    · exact (ActiveKept.refl s).setFld
    · exact .refl s
  exact htimed.regs rfl

/-- The active banks after a boundary that no STOP follows are those after its swap. -/
theorem active_boundary {n : Nat} (hstop : s.endHold.replayed.stopDue n = false) (hc : c < 8) :
    (s.boundary n true).active y c = (s.beforeSwap n).swapAll.active y c := by
  rw [boundary_eq, hstop, if_pos rfl]
  generalize (s.beforeSwap n).swapAll = swapped
  extract_lets closed
  rw [if_neg Bool.false_ne_true]
  exact ((activeKept_afterSwap n).trans activeKept_timeStep).active y c hc

/-! ### STEP_BOUNDARY (R181, R40, R47) -/

theorem completeItem_idle (h : s.job.item = none) : s.completeItem = s := by
  unfold State.completeItem
  simp only [h]
  split <;> rfl

/-- A boundary that nothing holds, with its swap in the standby's record. -/
theorem exec_stepBoundary_closes (hon : s.power.on = true) (hended : s.stepEnded = true) (htests : s.stopTests = [])
    (hready : s.boundaryReady s.step = true)
    (hheld : State.recordHeld { s with ens := { s.ens with swapDue := some s.step } } = true) :
    ∃ t, exec .stepBoundary s = .next t ∧
      Became s (State.boundary { s with ens := { s.ens with swapDue := some s.step } } s.step true) t := by
  change ∃ t, execStepBoundary s = .next t ∧ _
  unfold execStepBoundary
  refine act_next hon fun t ht => ?_
  obtain ⟨⟨⟨⟨hissue, hitem⟩, -⟩, -⟩, -⟩ : ((((s.mayIssue = true ∧ s.job.item.isNone = true) ∧ _) ∧ _) ∧ _) := by
    simpa only [State.stepEnded, Bool.and_eq_true] using hended
  simp only [State.mayIssue, Bool.and_eq_true, Bool.not_eq_true'] at hissue
  obtain ⟨⟨-, howe⟩, hresumed⟩ := hissue
  dsimp only at ht
  rw [completeItem_idle (Option.isNone_iff_eq_none.mp hitem), if_neg (by simp [howe]), if_neg (by simp [hresumed]),
    if_pos hended, htests] at ht
  simp only [List.isEmpty_nil, if_true, hready, Bool.not_true, Bool.false_eq_true, if_false, State.orderSwap, hheld] at ht
  exact ht

end Sys2Proof.Machine
end

section
/-! SUPPORT. A state at the end of a step whose array 0 of tile 0 notes that column 3088 clipped, a column that no array has: 4 × 193 bytes
behind the array's first gain register (R136) lies ARR_STAT of its neighbour, and the boundary lowers the neighbour's ACTIVE as if it were
the column's gain (R310).
-/

namespace Sys2Proof.Machine.StrayColumn

/-- A step whose items are done, in digital forward mode, with array 0 of tile 0 placed and bank 1 of array 1 active. -/
def ended : State :=
  { (Tests.closing 1 0 false []).setFld (F.ARR_STAT_ACTIVE 0 1) 1 with
    charter := some { shards := [{ device := 0xFFFF }], dfwd := true, arrays := [{}] }
    arrs := [(0, { clipped := [3088] })] }

/-- As ended, with its swap ordered. -/
def ordered : State := { ended with ens := { ended.ens with swapDue := some ended.step } }

/-- Nothing holds its boundary. -/
theorem ended_closes : (ended.power.on = true ∧ ended.mayIssue = true ∧ ended.stepEnded = true ∧ ended.stopTests = []) ∧
    (ended.job.item = none ∧ ended.job.want = none ∧ ended.job.nextF = ended.chart.micro ∧ ended.job.nextB = ended.chart.micro) ∧
    ended.boundaryReady ended.step = true ∧ ordered.recordHeld = true := by decide +kernel

/-- Before the swap the neighbour's active bank has changed already. -/
theorem ordered_beforeSwap : ended.active 0 1 = 1 ∧ (ordered.beforeSwap ended.step).active 0 1 = 0 ∧
    (ordered.beforeSwap ended.step).dfwd = true ∧ ordered.endHold.replayed.stopDue ended.step = false := by decide +kernel

/-- The boundary leaves the neighbour's bank 1 active. -/
theorem ended_boundary : ∃ t, exec .stepBoundary ended = .next t ∧ t.active 0 1 = 1 := by
  obtain ⟨⟨hon, -, hended, htests⟩, -, hready, hheld⟩ := ended_closes
  obtain ⟨-, hbefore, hdfwd, hstop⟩ := ordered_beforeSwap
  obtain ⟨t, hexec, ht⟩ := exec_stepBoundary_closes hon hended htests hready hheld
  have hswap := active_swapAll hdfwd (y := 0) (c := 1) (by omega) (by omega)
  exact ⟨t, hexec, (ht.fld _).trans ((active_boundary hstop (by omega)).trans (hswap.trans (by rw [hbefore])))⟩

end Sys2Proof.Machine.StrayColumn
end

section
open Sys2Proof Sys2Proof.Machine

/-- Refutes O44, in the clause on the boundary, which asks nothing of the columns that the arrays note as clipped: where one is none of its
array's, lowering its gain changes the active bank of another array, and the swap changes it back (StrayColumn.ended). -/
theorem not_stepSequence : ¬ Obligations.StepSequence := by
  unfold Obligations.StepSequence
  rintro ⟨-, -, -, -, hboundary, -, -⟩
  obtain ⟨⟨hon, hissue, -, htests⟩, ⟨hitem, hwant, hforward, hbackward⟩, hready, hheld⟩ := StrayColumn.ended_closes
  obtain ⟨-, hcloses, -⟩ := hboundary _ _ hon hissue hitem hwant hforward hbackward htests rfl
  obtain ⟨t, ht, -, -, -, -, -, -, hswapped⟩ := hcloses hready hheld
  obtain ⟨u, hu, hactive⟩ := StrayColumn.ended_boundary
  obtain rfl : t = u := by
    rw [ht] at hu
    injection hu
  have hchanged := hswapped 0 (by omega) 1 (by omega)
  rw [hactive, StrayColumn.ordered_beforeSwap.1] at hchanged
  cases hchanged
end

section
/-! SUPPORT. What the computation of tile commands leaves of the engines' side: each engine's record, STATE and PEND, the charter and the
device's number. A lemma for each operation of the model, down to a command that is tried again (R471).
-/

namespace Sys2Proof.Machine

/-! ### The engines' side of a state, and the registers aside from it -/

/-- A register that is neither the device's number nor an UPD_STAT. -/
def Aside (off : Nat) : Prop := off ≠ 0x18000 ∧ ∀ n < 8, off ≠ R.UPD_STAT n

/-- A field of such a register, or one of UPD_STAT below STATE and PEND. -/
def Fld.Aside (f : Fld) : Prop := (f.lo ≤ f.hi ∧ f.hi < 32) ∧ (Machine.Aside f.off ∨ f.off ≠ 0x18000 ∧ f.hi < 27)

@[simp] theorem aside_of_low {off : Nat} (h : off < 0x18000) : Aside off :=
  ⟨by omega, fun n hn => by dsimp only [R.UPD_STAT]; omega⟩
@[simp] theorem aside_of_hub {off : Nat} (h : 0x18000 < off) (h' : off < 0x80000) : Aside off :=
  ⟨by omega, fun n hn => by dsimp only [R.UPD_STAT]; omega⟩
@[simp] theorem aside_of_tile {off k : Nat} (h : 0x82000 ≤ off) : Aside (off + k) :=
  ⟨by omega, fun n hn => by dsimp only [R.UPD_STAT]; omega⟩
@[simp] theorem aside_of_array {off k j : Nat} (h : 0x82000 ≤ off) : Aside (off + k + j) :=
  aside_of_tile (Nat.le_add_right_of_le h)
@[simp] theorem aside_of_stride {off k h : Nat} (hoff : 0x18000 < off) (hk : 0x400 % k = 0) (hmod : off % k ≠ 0) :
    Aside (off + k * h) := by
  refine ⟨by omega, fun n _ heq => hmod ?_⟩
  have hdvd : k ∣ 0x80000 + 0x400 * n :=
    Nat.dvd_add (Nat.dvd_trans (Nat.dvd_of_mod_eq_zero hk) ⟨0x200, rfl⟩) (Dvd.dvd.mul_right (Nat.dvd_of_mod_eq_zero hk) n)
  rw [← Nat.mod_eq_zero_of_dvd hdvd]
  rw [← show off + k * h = 0x80000 + 0x400 * n from heq, Nat.add_mul_mod_self_left]

@[simp] theorem Fld.aside_mk {off hi lo : Nat} : Fld.Aside ⟨off, hi, lo⟩ ↔
    (lo ≤ hi ∧ hi < 32) ∧ (Machine.Aside off ∨ off ≠ 0x18000 ∧ hi < 27) := .rfl
theorem Fld.aside_lowBits {off k hi lo : Nat} (hoff : 0x18000 < off) (hbits : lo ≤ hi ∧ hi < 27) :
    Fld.Aside ⟨off + k, hi, lo⟩ := ⟨⟨hbits.1, by dsimp only; omega⟩, .inr ⟨by dsimp only; omega, hbits.2⟩⟩

/-- What an engine's STATE and PEND show, the device's number, the charter and the engines' records. -/
abbrev EngineSide : Type := (List (Nat × Nat) × W32) × Option Charter × Sparse Engine

/-- STATE and PEND of each engine (R356), and the word of the device's number. -/
def standOf (regs : Sparse W32) : List (Nat × Nat) × W32 :=
  ((List.range 8).map (fun n =>
      (bits (lookup regReset regs (R.UPD_STAT n)) 31 28, bits (lookup regReset regs (R.UPD_STAT n)) 27 27)),
    lookup regReset regs R.FAB_DEVNUM)

/-- The part of a state that says how the engines stand and which shards are theirs. -/
def State.engineSide (s : State) : EngineSide := (standOf s.regs, s.charter, s.engines)

@[simp] theorem engineSide_mk (pending regs latch hiHold readData free osc mem host tstore flash msix power gov snc hal arrs tiles
    charter job engines fre treeC treeR treeT root fab ens injSeen ledger sec dump hang drain sent) :
    (State.mk pending regs latch hiHold readData free osc mem host tstore flash msix power gov snc hal arrs tiles charter job
      engines fre treeC treeR treeT root fab ens injSeen ledger sec dump hang drain sent).engineSide =
      (standOf regs, charter, engines) := (rfl)

@[simp] theorem engineSide_eta (s : State) : (standOf s.regs, s.charter, s.engines) = s.engineSide := (rfl)

@[simp] theorem engineSide_ite (p : Prop) [Decidable p] (s t : State) :
    (if p then s else t).engineSide = if p then s.engineSide else t.engineSide := apply_ite ..

@[simp] theorem engineSide_snd_ite {α : Type} (p : Prop) [Decidable p] (x y : α × State) :
    (if p then x else y).2.engineSide = if p then x.2.engineSide else y.2.engineSide := by split <;> rfl

@[simp] theorem engineSide_forEach {α : Type} (xs : List α) (f : State → α → State)
    (h : ∀ t x, (f t x).engineSide = t.engineSide) (s : State) : (forEach xs s f).engineSide = s.engineSide := by
  induction xs generalizing s with
  | nil => rfl
  | cons x xs ih => exact (ih (f s x)).trans (h s x)

/-! ### Registers, memories and units -/

variable (s : State)

@[simp] theorem standOf_wr {off : Nat} (h : Aside off) (v : W32) : standOf (s.wr off v).regs = standOf s.regs := by
  obtain ⟨hdev, hupd⟩ := h
  have h (o : Nat) (ho : o ≠ off) : lookup regReset (s.wr off v).regs o = lookup regReset s.regs o :=
    lookup_store_other _ _ _ ho
  unfold standOf
  rw [h _ hdev.symm]
  congr 1
  exact List.map_congr_left fun n hn => by rw [h _ (hupd n (List.mem_range.mp hn)).symm]

@[simp] theorem standOf_setFld {f : Fld} (h : f.Aside) (v : Nat) : standOf (s.setFld f v).regs = standOf s.regs := by
  obtain ⟨hwidth, haside | ⟨hdev, hlow⟩⟩ := h
  · exact standOf_wr s haside _
  · have hd : (s.setFld f v).rd R.FAB_DEVNUM = s.rd R.FAB_DEVNUM := rd_wr_other _ _ (Ne.symm hdev)
    have hs (n) : (s.setFld f v).fld (F.UPD_STAT_STATE n) = s.fld (F.UPD_STAT_STATE n) :=
      fld_setFld_other s _ _ _ hwidth.1 hwidth.2 (.inr (.inr (by simp; omega)))
    have hp (n) : (s.setFld f v).fld (F.UPD_STAT_PEND n) = s.fld (F.UPD_STAT_PEND n) :=
      fld_setFld_other s _ _ _ hwidth.1 hwidth.2 (.inr (.inr (by simp; omega)))
    simp only [State.fld, State.rd] at hd hs hp
    simp [standOf, hd, hs, hp]
@[simp] theorem standOf_setFlag {f : Fld} (h : f.Aside) (b : Bool) : standOf (s.setFlag f b).regs = standOf s.regs :=
  standOf_setFld s h _
@[simp] theorem standOf_event {f : Fld} (h : f.Aside) : standOf (s.event f).regs = standOf s.regs := standOf_setFld s h _
@[simp] theorem standOf_bump {f : Fld} (h : f.Aside) (n : Nat) : standOf (s.bump f n).regs = standOf s.regs :=
  standOf_setFld s h _
@[simp] theorem standOf_setPair {lo hi : Fld} (hlo : lo.Aside) (hhi : hi.Aside) (v : Nat) :
    standOf (s.setPair lo hi v).regs = standOf s.regs :=
  (standOf_setFld _ hhi _).trans (standOf_setFld s hlo _)
@[simp] theorem standOf_bumpPair {lo hi : Fld} (hlo : lo.Aside) (hhi : hi.Aside) (n : Nat) :
    standOf (s.bumpPair lo hi n).regs = standOf s.regs :=
  standOf_setPair s hlo hhi _

theorem engineSide_of_regs {t : State} (h : t = { s with regs := t.regs }) (hr : standOf t.regs = standOf s.regs) :
    t.engineSide = s.engineSide := by
  rw [h, engineSide_mk, hr]; rfl

@[simp] theorem engineSide_wr {off : Nat} (h : Aside off) (v : W32) : (s.wr off v).engineSide = s.engineSide :=
  engineSide_of_regs s rfl (standOf_wr s h v)
@[simp] theorem engineSide_setFld {f : Fld} (h : f.Aside) (v : Nat) : (s.setFld f v).engineSide = s.engineSide :=
  engineSide_of_regs s rfl (standOf_setFld s h v)
@[simp] theorem engineSide_setFlag {f : Fld} (h : f.Aside) (b : Bool) : (s.setFlag f b).engineSide = s.engineSide :=
  engineSide_setFld s h _
@[simp] theorem engineSide_event {f : Fld} (h : f.Aside) : (s.event f).engineSide = s.engineSide := engineSide_setFld s h _
@[simp] theorem engineSide_bump {f : Fld} (h : f.Aside) (n : Nat) : (s.bump f n).engineSide = s.engineSide :=
  engineSide_setFld s h _
@[simp] theorem engineSide_setPair {lo hi : Fld} (hlo : lo.Aside) (hhi : hi.Aside) (v : Nat) :
    (s.setPair lo hi v).engineSide = s.engineSide := by
  simp [State.setPair, hlo, hhi]
@[simp] theorem engineSide_bumpPair {lo hi : Fld} (hlo : lo.Aside) (hhi : hi.Aside) (n : Nat) :
    (s.bumpPair lo hi n).engineSide = s.engineSide :=
  engineSide_setPair s hlo hhi _
@[simp] theorem engineSide_putMem (a : Nat) (bs : List Byte) : (s.putMem a bs).engineSide = s.engineSide := (rfl)
@[simp] theorem engineSide_putHost (a : Nat) (bs : List Byte) : (s.putHost a bs).engineSide = s.engineSide := (rfl)
@[simp] theorem engineSide_putTile (t x : Nat) (bs : List Byte) : (s.putTile t x bs).engineSide = s.engineSide := (rfl)
@[simp] theorem engineSide_putPlace (place t off : Nat) (bs : List Byte) :
    (s.putPlace place t off bs).engineSide = s.engineSide := by
  simp [State.putPlace]
@[simp] theorem engineSide_putArr (t a : Nat) (x : Arr) : (s.putArr t a x).engineSide = s.engineSide := (rfl)
@[simp] theorem engineSide_putTileRec (t : Nat) (x : Tile) : (s.putTileRec t x).engineSide = s.engineSide := (rfl)
@[simp] theorem engineSide_draw : s.draw.2.engineSide = s.engineSide := (rfl)
@[simp] theorem engineSide_sendMsix (v : Nat) : (s.sendMsix v).engineSide = s.engineSide := by simp [State.sendMsix]

/-! ### Folio, counter pages, injection and tests (R566 to R574, R620 to R630) -/

@[simp] theorem engineSide_foldOcc (t : Nat) : (s.foldOcc t).engineSide = s.engineSide :=
  engineSide_setFld s (Fld.aside_lowBits (by omega) (by omega)) _
@[simp] theorem engineSide_folioPut (t type flags layer oper unit acc : Nat) (payload : List Byte) :
    (s.folioPut t type flags layer oper unit acc payload).engineSide = s.engineSide := by
  simp [State.folioPut]
@[simp] theorem engineSide_countersRecord (t page flags layer oper unit acc : Nat) :
    (s.countersRecord t page flags layer oper unit acc).engineSide = s.engineSide := by
  simp [State.countersRecord]
@[simp] theorem engineSide_setPage (t page : Nat) (own run : Bool) (acc : Nat) :
    (s.setPage t page own run acc).engineSide = s.engineSide := by
  simp [State.setPage]
@[simp] theorem engineSide_takePage (t unit acc layer oper : Nat) :
    (s.takePage t unit acc layer oper).engineSide = s.engineSide := by
  simp [State.takePage]
@[simp] theorem engineSide_beginCmd (t unit acc layer oper : Nat) (bytes : List Byte) :
    (s.beginCmd t unit acc layer oper bytes).engineSide = s.engineSide := by
  simp [State.beginCmd]
@[simp] theorem engineSide_tally (t code n : Nat) : (s.tally t code n).engineSide = s.engineSide := by
  unfold State.tally; simp only; split <;> simp
@[simp] theorem engineSide_endCmd (t unit acc layer oper status nflags cause sat : Nat) :
    (s.endCmd t unit acc layer oper status nflags cause sat).engineSide = s.engineSide := by
  unfold State.endCmd; simp only; split <;> [split_ifs; skip] <;> simp
@[simp] theorem engineSide_inject (point unit sub col acc : Nat) :
    (s.inject point unit sub col acc).2.engineSide = s.engineSide := by
  simp [State.inject]
@[simp] theorem engineSide_injectMany (point unit acc n : Nat) :
    (s.injectMany point unit acc n).2.engineSide = s.engineSide := by
  simp [State.injectMany]
@[simp] theorem engineSide_wantRed (t n : Nat) : (s.wantRed t n).engineSide = s.engineSide := by simp [State.wantRed]
@[simp] theorem engineSide_startTest (t : Nat) (r : TestReq) : (s.startTest t r).engineSide = s.engineSide := by
  simp [State.startTest]
@[simp] theorem engineSide_requestTest (t kind mode array col steps : Nat) (host : Option Nat) :
    (s.requestTest t kind mode array col steps host).engineSide = s.engineSide := by
  unfold State.requestTest; simp only; split <;> simp

/-! ### Messages and faults (R375, R427 to R436, R579) -/

@[simp] theorem engineSide_putPort (p : Nat) (x : Port) : (s.putPort p x).engineSide = s.engineSide := (rfl)
@[simp] theorem engineSide_transmit (p seq vc flags : Nat) (data : List Byte) (bad : Bool) :
    (s.transmit p seq vc flags data bad).engineSide = s.engineSide := (rfl)
@[simp] theorem engineSide_fillReplay (fuel p : Nat) : (s.fillReplay fuel p).engineSide = s.engineSide := by
  induction fuel generalizing s with
  | zero => rfl
  | succ n ih => unfold State.fillReplay; split <;> simp [ih]
@[simp] theorem engineSide_onPort (p : Nat) (m : Msg) : (s.onPort p m).engineSide = s.engineSide := by simp [State.onPort]
@[simp] theorem engineSide_deliver (m : Msg) : (s.deliver m).engineSide = s.engineSide := by simp [State.deliver]
@[simp] theorem engineSide_emit (m : Msg) (own : Bool) : (s.emit m own).engineSide = s.engineSide := by
  unfold State.emit
  split
  · simp
  · split <;> simp
@[simp] theorem engineSide_sendOn (dest cls stream : Nat) (payload : List Byte) :
    (s.sendOn dest cls stream payload).engineSide = s.engineSide := by simp [State.sendOn]
@[simp] theorem engineSide_sendCtrl (dest kind step : Nat) (fields : List Byte) :
    (s.sendCtrl dest kind step fields).engineSide = s.engineSide := by simp [State.sendCtrl]
@[simp] theorem engineSide_toRoot (kind step : Nat) (fields : List Byte) :
    (s.toRoot kind step fields).engineSide = s.engineSide := by
  simp [State.toRoot]
@[simp] theorem engineSide_recordFault (cls ukind unit acc : Nat) :
    (s.recordFault cls ukind unit acc).engineSide = s.engineSide := by
  simp [State.recordFault, R.RST_FLTCLS]
@[simp] theorem engineSide_sendFault (cls : Nat) (halt : Bool) : (s.sendFault cls halt).engineSide = s.engineSide := by
  simp [State.sendFault]
@[simp] theorem engineSide_raiseFault (cls ukind unit acc : Nat) (halt : Bool) :
    (s.raiseFault cls ukind unit acc halt).engineSide = s.engineSide := by simp [State.raiseFault]
@[simp] theorem engineSide_tileFault (t acc : Nat) : (s.tileFault t acc).engineSide = s.engineSide := by simp [State.tileFault]

/-! ### Arrays (R129 to R158, R213) -/

@[simp] theorem engineSide_convertersOn (t a : Nat) (mvm : Bool) : (s.convertersOn t a mvm).engineSide = s.engineSide := by
  simp [State.convertersOn]
@[simp] theorem engineSide_refFault (t a : Nat) : (s.refFault t a).engineSide = s.engineSide := by
  unfold State.refFault; simp only; split <;> simp
@[simp] theorem engineSide_refCheck (t a acc : Nat) (ref0 ref1 : Int) :
    (s.refCheck t a acc ref0 ref1).engineSide = s.engineSide := by
  simp [State.refCheck]
@[simp] theorem engineSide_chkMismatch (t a acc index : Nat) : (s.chkMismatch t a acc index).engineSide = s.engineSide := by
  unfold State.chkMismatch; simp only; split <;> simp
@[simp] theorem engineSide_chkCompare (t a b acc index : Nat) (d codes : List Int) (lsbs : List Nat) (chk : Int) (tripped : Bool) :
    
    (s.chkCompare t a b acc index d codes lsbs chk tripped).engineSide = s.engineSide := by simp [State.chkCompare]
@[simp] theorem engineSide_noteClips (t a : Nat) (tripped : List Bool) :
    (s.noteClips t a tripped).engineSide = s.engineSide := by
  simp [State.noteClips]
@[simp] theorem engineSide_slice (t a acc index : Nat) (d : List Int) (lim : Nat → Option (Int × Int)) :
    (s.slice t a acc index d lim).2.engineSide = s.engineSide := by
  unfold State.slice
  split
  · exact (engineSide_tally ..).trans (engineSide_bump _ (by simp) _)
  · simp
@[simp] theorem engineSide_vector (t a acc index : Nat) (p : Policy) (two : Bool) (m : List Int) (e : Int) :
    (s.vector t a acc index p two m e).2.2.2.engineSide = s.engineSide := by
  unfold State.vector; simp only; split <;> simp
@[simp] theorem engineSide_corrBeats (t a : Nat) (m : List Int) : (s.corrBeats t a m).engineSide = s.engineSide := by
  simp [State.corrBeats]

/-! ### Completions and numeric status (R108 to R110, R473 to R477) -/

@[simp] theorem engineSide_putHalyard (h : Nat) (x : Halyard) : (s.putHalyard h x).engineSide = s.engineSide := (rfl)
@[simp] theorem engineSide_halIrq (h : Nat) : (s.halIrq h).engineSide = s.engineSide := by simp [State.halIrq]
@[simp] theorem engineSide_writeCompletion (h : Nat) (c : HeldCpl) : (s.writeCompletion h c).engineSide = s.engineSide := by
  simp [State.writeCompletion]
@[simp] theorem engineSide_releaseHeld (fuel h : Nat) : (s.releaseHeld fuel h).engineSide = s.engineSide := by
  induction fuel generalizing s with
  | zero => rfl
  | succ n ih => unfold State.releaseHeld; simp only; split <;> simp [ih]
@[simp] theorem engineSide_drainHeld (h : Nat) : (s.drainHeld h).engineSide = s.engineSide := by simp [State.drainHeld]
@[simp] theorem engineSide_raiseCompletion (h : Nat) (c : HeldCpl) : (s.raiseCompletion h c).engineSide = s.engineSide := by
  simp [State.raiseCompletion]
@[simp] theorem engineSide_halStat (h : Nat) : (s.halStat h).engineSide = s.engineSide := by simp [State.halStat]
@[simp] theorem engineSide_countCtx (acc status : Nat) : (s.countCtx acc status).engineSide = s.engineSide := by
  simp [State.countCtx]
@[simp] theorem engineSide_completeWith (acc status nflags : Nat) (n : NumStat) (ref : Nat) :
    (s.completeWith acc status nflags n ref).engineSide = s.engineSide := by
  unfold State.completeWith; simp only; split_ifs <;> simp
@[simp] theorem engineSide_numStatus (t acc : Nat) (np : Bool) (n : NumStat) :
    (s.numStatus t acc np n).engineSide = s.engineSide := by
  simp [State.numStatus]

/-! ### Operands and memory errors (R300, R305 to R312, R581, R582) -/

@[simp] theorem engineSide_traffic (t : Nat) (x : Tensor) (write : Bool) (rows : Nat) :
    (s.traffic t x write rows).engineSide = s.engineSide := by simp [State.traffic]
@[simp] theorem engineSide_touchRow (x : Tensor) (r : Nat) : (s.touchRow x r).engineSide = s.engineSide :=
  engineSide_forEach _ _ (fun t i => by split <;> simp) s
@[simp] theorem engineSide_gradAddParam (p : Policy) (param : Nat) (v : FVal) :
    (s.gradAddParam p param v).2.2.2.engineSide = s.engineSide := by
  unfold State.gradAddParam
  split
  · rfl
  · rfl
@[simp] theorem engineSide_jit (x : Tensor) (amax : FVal) : (s.jit x amax).engineSide = s.engineSide := by
  unfold State.jit; split <;> simp
@[simp] theorem engineSide_putUse (id : Nat) (u : ScaleUse) : (s.putUse id u).engineSide = s.engineSide := (rfl)
@[simp] theorem engineSide_memCorrected (addr : Nat) : (s.memCorrected addr).engineSide = s.engineSide := by
  simp [State.memCorrected]
@[simp] theorem engineSide_memUncorrected (addr : Nat) : (s.memUncorrected addr).engineSide = s.engineSide := by
  unfold State.memUncorrected; simp only; split <;> simp
@[simp] theorem engineSide_readsMemory (acc : Nat) (xs : List (Option Tensor)) :
    (s.readsMemory acc xs).engineSide = s.engineSide := by
  simp [State.readsMemory]

/-! ### The tile sequencer (R24, R25, R471) -/

@[simp] theorem engineSide_keepOutput (c : TileCmd) (x : Tensor) (rows : List Nat) :
    (s.keepOutput c x rows).engineSide = s.engineSide := by
  simp [State.keepOutput]
@[simp] theorem engineSide_startBubble (cause : Nat) : (s.startBubble cause).engineSide = s.engineSide := by
  simp [State.startBubble]
@[simp] theorem engineSide_bucketFlags (op : Nat) (c : TileCmd) (num : NumStat) :
    (s.bucketFlags op c num).engineSide = s.engineSide := (rfl)
@[simp] theorem engineSide_jobDone (op : Nat) (c : TileCmd) : (s.jobDone op c).engineSide = s.engineSide := by
  simp [State.jobDone]
@[simp] theorem engineSide_waitCmd (op : Nat) (c : TileCmd) : (s.waitCmd op c).engineSide = s.engineSide := by
  simp [State.waitCmd]
@[simp] theorem engineSide_rseRegs (t : Nat) : (s.rseRegs t).engineSide = s.engineSide := by simp [State.rseRegs]
@[simp] theorem engineSide_putGroups (t : Nat) (gs : List StatGroup) : (s.putGroups t gs).engineSide = s.engineSide := by
  simp [State.putGroups]
@[simp] theorem engineSide_releaseGroup (op : Nat) (c : TileCmd) : (s.releaseGroup op c).engineSide = s.engineSide := by
  simp [State.releaseGroup]
@[simp] theorem engineSide_tileDone (op unit : Nat) (c : TileCmd) (status : Nat) (num : NumStat) :
    (s.tileDone op unit c status num).engineSide = s.engineSide := by simp [State.tileDone]
@[simp] theorem engineSide_tileRefuse (op unit : Nat) (c : TileCmd) (status : Nat) :
    (s.tileRefuse op unit c status).engineSide = s.engineSide := by simp [State.tileRefuse]
@[simp] theorem engineSide_suspend (s0 : State) (op unit : Nat) (c : TileCmd) (x : Tensor) (rows : List Nat) (beside : List Range)
    (num : NumStat) : (s.suspend s0 op unit c x rows beside num).engineSide = s.engineSide := by simp [State.suspend]

/-- What a command computes before its output conversion leaves the engineSide. -/
def Body.KeepsEngineSide (body : Body) : Prop := ∀ s : State, (body s).2.2.engineSide = s.engineSide

theorem engineSide_forEach_snd {α β : Type} (xs : List α) (f : β × State → α → β × State)
    (h : ∀ q x, (f q x).2.engineSide = q.2.engineSide) (q : β × State) : (forEach xs q f).2.engineSide = q.2.engineSide := by
  induction xs generalizing q with
  | nil => rfl
  | cons x xs ih => exact (ih (f q x)).trans (h q x)

@[simp] theorem engineSide_writeRows (t : Nat) (c : TileCmd) (x : Tensor) (k : FVal) (num : NumStat) (rows : List (Nat × List Elem)) :
    
    (s.writeRows t c x k num rows).2.engineSide = s.engineSide := by
  unfold State.writeRows
  exact engineSide_forEach_snd _ _ (fun q re => by dsimp only; split; simp) _
theorem engineSide_justInTime {c : TileCmd} {xa xb : Option Tensor} {x : Tensor} {body : Body} (h : body.KeepsEngineSide) :
    (s.justInTime c xa xb x body).engineSide = s.engineSide := by simp [State.justInTime, h s]
theorem engineSide_produce {t : Nat} {c : TileCmd} {xa xb : Option Tensor} {x : Tensor} {body : Body} (h : body.KeepsEngineSide) :
    
    (s.produce t c xa xb x body).2.engineSide = s.engineSide := by simp [State.produce, h s]

/-- A tile sequencer leaves the engineSide (R24, R471), where the command's computation and what follows it do. -/
theorem engineSide_runTile {op unit : Nat} {c : TileCmd} {refusal : Nat} {xa xb xc : Option Tensor} {outRows : List Nat}
    {dup : Bool} {body : Body} {after : NumStat × State → NumStat × State} {from' : TileCmd} {beside : List Range}
    (hb : body.KeepsEngineSide) (ha : ∀ q, (after q).2.engineSide = q.2.engineSide) :
    (s.runTile op unit c refusal xa xb xc outRows dup body after from' beside).engineSide = s.engineSide := by
  unfold State.runTile
  simp only
  cases xc <;> simp [engineSide_justInTime _ hb, engineSide_produce _ hb, ha]

/-! ### Segments, stash and inter-stage queues (R295 to R299, R361 to R372, R410 to R413) -/

@[simp] theorem engineSide_leave (o : OutSeg) : (s.leave o).engineSide = s.engineSide := by simp [State.leave]
@[simp] theorem engineSide_sendSegment (dest : Nat) (payload : List Byte) (stream : Option Nat) :
    (s.sendSegment dest payload stream).engineSide = s.engineSide := by simp [State.sendSegment]
@[simp] theorem engineSide_putStash (half : Nat) (q : List StashRes) : (s.putStash half q).engineSide = s.engineSide := by
  unfold State.putStash; split_ifs <;> simp
@[simp] theorem engineSide_putRing (r : Region) (pos : Nat) (bs : List Byte) :
    (s.putRing r pos bs).engineSide = s.engineSide := by
  simp [State.putRing]
@[simp] theorem engineSide_stashRows (c : TileCmd) (x : Tensor) : (s.stashRows c x).engineSide = s.engineSide := by
  unfold State.stashRows
  simp only
  split
  · split <;> simp
  · rfl
@[simp] theorem engineSide_putRows (t : Nat) (x : Tensor) (r0 : Nat) (bs : List Byte) :
    (s.putRows t x r0 bs).engineSide = s.engineSide :=
  engineSide_forEach _ _ (fun _ _ => engineSide_putPlace ..) s
@[simp] theorem engineSide_unstashRows (c : TileCmd) (x : Tensor) : (s.unstashRows c x).engineSide = s.engineSide := by
  unfold State.unstashRows
  simp only
  split
  · split <;> simp
  · rfl
@[simp] theorem engineSide_queueDepths : s.queueDepths.engineSide = s.engineSide := by simp [State.queueDepths]
@[simp] theorem engineSide_putQueue (kind pos : Nat) (q : List ActMsg) : (s.putQueue kind pos q).engineSide = s.engineSide := by
  unfold State.putQueue; split <;> simp
@[simp] theorem engineSide_putOutbound (back : Bool) (q : List ActMsg) : (s.putOutbound back q).engineSide = s.engineSide := by
  simp [State.putOutbound]
@[simp] theorem engineSide_putCredit (back : Bool) (n : Nat) : (s.putCredit back n).engineSide = s.engineSide := by
  cases back <;> simp [State.putCredit, creditFld]
@[simp] theorem engineSide_creditWaitEnd (back : Bool) : (s.creditWaitEnd back).engineSide = s.engineSide := by
  unfold State.creditWaitEnd; split <;> simp
@[simp] theorem engineSide_creditWaitBegin (back : Bool) : (s.creditWaitBegin back).engineSide = s.engineSide := by
  simp [State.creditWaitBegin]
@[simp] theorem engineSide_countWait (m : ActMsg) : (s.countWait m).engineSide = s.engineSide := by simp [State.countWait]
@[simp] theorem engineSide_flushOut (fuel : Nat) (back : Bool) : (s.flushOut fuel back).engineSide = s.engineSide := by
  induction fuel generalizing s with
  | zero => rfl
  | succ n ih => unfold State.flushOut; split <;> simp [ih]
@[simp] theorem engineSide_enqueueOut (back : Bool) (m : ActMsg) : (s.enqueueOut back m).engineSide = s.engineSide := by
  simp [State.enqueueOut]
@[simp] theorem engineSide_sendRows (c : TileCmd) (x : Tensor) : (s.sendRows c x).engineSide = s.engineSide := by
  simp [State.sendRows]

/-! ### Checks, row registers and counters of the engines (R229 to R260, R560) -/

@[simp] theorem engineSide_checkHard (t acc n : Nat) : (s.checkHard t acc n).engineSide = s.engineSide := by
  simp [State.checkHard]
@[simp] theorem engineSide_checkFailed (t : Nat) : (s.checkFailed t).engineSide = s.engineSide := by simp [State.checkFailed]
@[simp] theorem engineSide_checkRuns (t acc point : Nat) (on : Bool) (n fails : Nat) (els : List (List Elem)) :
    (s.checkRuns t acc point on n fails els).2.engineSide = s.engineSide := by
  unfold State.checkRuns
  split
  · rfl
  · extract_lets s1
    have h1 : s1.engineSide = s.engineSide := by simp [s1]
    have h2 := engineSide_injectMany s1 point t acc n
    split
    · next hit => rw [hit] at h2; exact h2.trans h1
    · next hit => rw [hit] at h2; simp [h2, h1]
@[simp] theorem engineSide_checkCover (t acc : Nat) (first : Bool) (ws : List (Nat × List FVal)) (m : List Int) (runs : List Elem) :
    
    (s.checkCover t acc first ws m runs).2.engineSide = s.engineSide := by simp [State.checkCover]
@[simp] theorem engineSide_setKeep (c : TileCmd) (xb : Tensor) (depth : Nat) (b : List (List FVal)) :
    (s.setKeep c xb depth b).engineSide = s.engineSide := by simp [State.setKeep]
@[simp] theorem engineSide_opeMode (c : TileCmd) : (s.opeMode c).engineSide = s.engineSide := by simp [State.opeMode]
@[simp] theorem engineSide_opeCounts (c : TileCmd) (xa xb : Tensor) (n : Nat) (kept : Bool) :
    (s.opeCounts c xa xb n kept).engineSide = s.engineSide := by simp [State.opeCounts]
@[simp] theorem engineSide_dpaCounts (t m k n runs : Nat) : (s.dpaCounts t m k n runs).engineSide = s.engineSide := by
  simp [State.dpaCounts]
@[simp] theorem engineSide_attributeClips (t a : Nat) (x : Tensor) (before : List Nat) :
    (s.attributeClips t a x before).engineSide = s.engineSide := by simp [State.attributeClips]

/-! ### Statistics groups (R280 to R286) -/

@[simp] theorem engineSide_spillGroup (t : Nat) (g : StatGroup) : (s.spillGroup t g).engineSide = s.engineSide := by
  unfold State.spillGroup; simp only; split <;> simp
theorem engineSide_spillOldest {t : Nat} {keep : Option Nat} {u : State} (h : s.spillOldest t keep = some u) :
    u.engineSide = s.engineSide := by
  unfold State.spillOldest at h
  dsimp only at h
  split at h
  · split at h
    · cases h; simp
    · cases h
  · cases h
theorem engineSide_makeRoom {fuel t n : Nat} {keep : Option Nat} {s u : State} (h : s.makeRoom fuel t n keep = some u) :
    u.engineSide = s.engineSide := by
  induction fuel generalizing s with
  | zero => unfold State.makeRoom at h; split at h <;> simp_all
  | succ f ih =>
    unfold State.makeRoom at h
    split at h
    · simp_all
    · obtain ⟨v, hv, hu⟩ := Option.bind_eq_some_iff.mp h
      exact (ih hu).trans (engineSide_spillOldest s hv)
theorem engineSide_roomFor {t n : Nat} {keep : Option Nat} {u : State} (h : s.roomFor t n keep = some u) :
    u.engineSide = s.engineSide :=
  engineSide_makeRoom h
@[simp] theorem engineSide_roomFor_getD (t n : Nat) (keep : Option Nat) :
    ((s.roomFor t n keep).getD s).engineSide = s.engineSide := by
  cases h : s.roomFor t n keep with
  | none => rfl
  | some u => exact engineSide_roomFor s h
@[simp] theorem engineSide_reload (t acc : Nat) : (s.reload t acc).engineSide = s.engineSide := by
  unfold State.reload
  split
  · split
    · next h => simp [engineSide_roomFor s h]
    · rfl
  · rfl
@[simp] theorem engineSide_putGroup (c : TileCmd) (recs : List (W32 × W32)) :
    (s.putGroup c recs).engineSide = s.engineSide := by
  simp [State.putGroup]
@[simp] theorem engineSide_rseRefusalEvents (t r : Nat) (fwd : Bool) :
    (s.rseRefusalEvents t r fwd).engineSide = s.engineSide := by
  simp [State.rseRefusalEvents]
@[simp] theorem engineSide_noteLoss (t : Nat) : (s.noteLoss t).engineSide = s.engineSide := by simp [State.noteLoss]
@[simp] theorem engineSide_noteReload (t acc : Nat) : (s.noteReload t acc).engineSide = s.engineSide := by
  simp [State.noteReload]

/-! ### Computations of tile commands -/

/-- A computation that counts saturations, whatever its count so far, ends in a state with a given engineSide. -/
def Cnt.LeadsTo {α : Type} (m : Cnt (α × State)) (q : EngineSide) : Prop := ∀ n, (m.run n).1.2.engineSide = q

theorem Cnt.leadsTo_pure {α : Type} (a : α) {s : State} {q : EngineSide} (h : s.engineSide = q) :
    Cnt.LeadsTo (pure (a, s)) q := fun _ => h

theorem Cnt.leadsTo_bind {α β : Type} {m : Cnt α} {f : α → Cnt (β × State)} {q : EngineSide}
    (h : ∀ a, Cnt.LeadsTo (f a) q) : Cnt.LeadsTo (m >>= f) q := fun n => h (m.run n).1 (m.run n).2

theorem Cnt.leadsTo_bind_state {α β : Type} {m : Cnt (α × State)} {f : α × State → Cnt (β × State)} {q : EngineSide}
    (hm : Cnt.LeadsTo m q) (h : ∀ a, a.2.engineSide = q → Cnt.LeadsTo (f a) q) : Cnt.LeadsTo (m >>= f) q :=
  fun n => h (m.run n).1 (hm n) (m.run n).2

theorem engineSide_mvmVector (c : TileCmd) (xa : Tensor) (ws : List (Nat × List FVal)) (r : Nat) :
    Cnt.LeadsTo (s.mvmVector c xa ws r) s.engineSide := by
  unfold State.mvmVector
  refine Cnt.leadsTo_bind fun v => ?_
  split
  · exact Cnt.leadsTo_pure _ (by simp)
  · dsimp only
    split <;> [skip; split]
    on_goal 1 => refine Cnt.leadsTo_bind_state (Cnt.leadsTo_pure _ rfl) ?_
    on_goal 2 => refine Cnt.leadsTo_bind_state (Cnt.leadsTo_pure _ (engineSide_vector ..)) ?_
    on_goal 3 => refine Cnt.leadsTo_bind fun y => Cnt.leadsTo_bind fun z =>
      Cnt.leadsTo_bind_state (Cnt.leadsTo_pure _ (by simp)) ?_
    all_goals exact fun q hq =>
      Cnt.leadsTo_bind fun runs => Cnt.leadsTo_bind fun out => Cnt.leadsTo_pure _ (by simp [hq])

theorem engineSide_mvmRows (c : TileCmd) (xa : Tensor) (ws : List (Nat × List FVal)) (n : Nat) (rs : List Nat) :
    Cnt.LeadsTo (State.mvmRows c xa ws n rs s) s.engineSide := by
  induction rs generalizing s with
  | nil => exact Cnt.leadsTo_pure _ rfl
  | cons r rs ih =>
    refine Cnt.leadsTo_bind_state (engineSide_mvmVector s c xa ws r) fun q hq => ?_
    exact Cnt.leadsTo_bind_state (hq ▸ ih q.2) fun q hq => Cnt.leadsTo_pure _ hq

theorem convertBody_keepsEngineSide (c : TileCmd) (x : Tensor) : (convertBody c x).KeepsEngineSide :=
  fun s => by simp [convertBody]
theorem amaxBody_keepsEngineSide (c : TileCmd) (x : Tensor) : (amaxBody c x).KeepsEngineSide := fun s => by
  unfold amaxBody; dsimp only; split; simp
theorem gradBody_keepsEngineSide (c : TileCmd) (x : Tensor) : (gradBody c x).KeepsEngineSide := fun s => by
  unfold gradBody; dsimp only; split; simp
theorem opeBody_keepsEngineSide (c : TileCmd) (xa xb xc : Tensor) : (opeBody c xa xb xc).KeepsEngineSide := fun s => by
  unfold opeBody; dsimp only
  split; split; split
  simp
theorem dpaBody_keepsEngineSide (c : TileCmd) (xa xb xc : Tensor) : (dpaBody c xa xb xc).KeepsEngineSide := fun s => by
  unfold dpaBody; dsimp only
  split; split; split
  simp
theorem mvmBody_keepsEngineSide (c : TileCmd) (xa xc : Tensor) : (mvmBody c xa xc).KeepsEngineSide := fun s => by
  unfold mvmBody; dsimp only
  split
  next rows t sat hrun =>
    have h : t.engineSide = _ := (congrArg (fun r => r.1.2.engineSide) hrun).symm.trans
      (Cnt.leadsTo_bind (fun ws => engineSide_mvmRows _ c xa ws _ _) 0)
    simp [h]
theorem forwardBody_keepsEngineSide (c : TileCmd) (xa xb xd : Tensor) (n : Nat) : (forwardBody c xa xb xd n).KeepsEngineSide :=
  fun s => by
  unfold forwardBody; dsimp only
  split; split
  simp
theorem normBackBody_keepsEngineSide (c : TileCmd) (xa xb xd : Tensor) (n : Nat) :
    (normBackBody c xa xb xd n).KeepsEngineSide :=
    fun s => by
  unfold normBackBody; dsimp only
  split; split; split <;> simp
theorem smbBody_keepsEngineSide (c : TileCmd) (xa xd : Tensor) (n : Nat) : (smbBody c xa xd n).KeepsEngineSide := fun s => by
  unfold smbBody; dsimp only; split; simp
theorem xentBody_keepsEngineSide (c : TileCmd) (xa xb xd : Tensor) (n : Nat) : (xentBody c xa xb xd n).KeepsEngineSide :=
  fun s => by
  unfold xentBody; dsimp only
  split; split
  simp

theorem engineSide_addNormGrads (c : TileCmd) (n : Nat) (q : NumStat × State) :
    (State.addNormGrads c n q).2.engineSide = q.2.engineSide := by
  unfold State.addNormGrads
  split
  · rfl
  · extract_lets word add q1
    have hadd (q : NumStat × State) (x : Option Tensor) (row : Nat) : (add q x row).2.engineSide = q.2.engineSide := by
      cases x with
      | none => rfl
      | some x => exact engineSide_forEach_snd _ _ (fun q i => by exact engineSide_gradAddParam ..) q
    simp [q1, hadd]

/-! ### Tile commands (R470) and those that wait, tried again (R471) -/

@[simp] theorem engineSide_convert (c : TileCmd) : (s.convert c).engineSide = s.engineSide := by
  unfold State.convert
  exact engineSide_runTile _ (convertBody_keepsEngineSide _ _) (fun _ => rfl)
@[simp] theorem engineSide_amaxCmd (c : TileCmd) : (s.amaxCmd c).engineSide = s.engineSide := by
  unfold State.amaxCmd
  exact engineSide_runTile _ (amaxBody_keepsEngineSide _ _) (fun _ => rfl)
@[simp] theorem engineSide_gradAdd (c : TileCmd) : (s.gradAdd c).engineSide = s.engineSide := by
  unfold State.gradAdd
  exact engineSide_runTile _ (gradBody_keepsEngineSide _ _) (fun _ => rfl)
@[simp] theorem engineSide_stash (c : TileCmd) : (s.stash c).engineSide = s.engineSide := by
  unfold State.stash
  exact engineSide_runTile _ (fun _ => rfl) (fun _ => by simp)
@[simp] theorem engineSide_unstash (c : TileCmd) : (s.unstash c).engineSide = s.engineSide := by
  unfold State.unstash
  exact engineSide_runTile _ (fun _ => rfl) (fun _ => by simp)
@[simp] theorem engineSide_sendCmd (c : TileCmd) : (s.sendCmd c).engineSide = s.engineSide := by
  unfold State.sendCmd
  exact engineSide_runTile _ (fun _ => rfl) (fun _ => by simp)
@[simp] theorem engineSide_opeProduct (c : TileCmd) : (s.opeProduct c).engineSide = s.engineSide := by
  unfold State.opeProduct
  exact engineSide_runTile _ (opeBody_keepsEngineSide _ _ _ _) (fun _ => rfl)
@[simp] theorem engineSide_dpaProduct (c : TileCmd) : (s.dpaProduct c).engineSide = s.engineSide := by
  unfold State.dpaProduct
  exact engineSide_runTile _ (dpaBody_keepsEngineSide _ _ _ _) (fun _ => rfl)
@[simp] theorem engineSide_mvm (c : TileCmd) : (s.mvm c).engineSide = s.engineSide := by
  unfold State.mvm
  dsimp only
  split
  · simp
  · exact engineSide_runTile _ (mvmBody_keepsEngineSide _ _ _) (fun _ => rfl)
@[simp] theorem engineSide_rse (c : TileCmd) : (s.rse c).engineSide = s.engineSide := by
  unfold State.rse
  split
  · rfl
  · extract_lets op xa xb xc xd n r back useB s1 spilled waits waited s2 src s3 body after
    have h2 : s2.engineSide = s.engineSide := by simp [s2, s1]
    have h3 : s3.engineSide = s.engineSide := by simp [s3, h2]
    have hb : body.KeepsEngineSide := by
      dsimp only [body]
      split
      · exact forwardBody_keepsEngineSide _ _ _ _ _
      · split
        · exact smbBody_keepsEngineSide _ _ _ _
        · split
          · exact xentBody_keepsEngineSide _ _ _ _ _
          · exact normBackBody_keepsEngineSide _ _ _ _ _
    have ha (q : NumStat × State) : (after q).2.engineSide = q.2.engineSide := by simp [after, engineSide_addNormGrads]
    split
    · simp [h2]
    · exact (engineSide_runTile _ hb ha).trans h3
@[simp] theorem engineSide_runOp (op : Nat) (c : TileCmd) : (s.runOp op c).engineSide = s.engineSide := by simp [State.runOp]
@[simp] theorem engineSide_rerun (t : Nat) : (s.rerun t).engineSide = s.engineSide := by simp [State.rerun]
@[simp] theorem engineSide_rerunAll : s.rerunAll.engineSide = s.engineSide := by simp [State.rerunAll]

end Sys2Proof.Machine
end

section
/-! SUPPORT. What the engines' side says of an engine and of where its shards lie, and what the sends of a step, the return of parameters and the
rest of an outcome leave of it.
-/

namespace Sys2Proof.Machine

variable {s t u v w : State} {n : Nat}

/-! ### What the projection says -/

theorem engineSide_parts (h : u.engineSide = s.engineSide) :
    standOf u.regs = standOf s.regs ∧ u.charter = s.charter ∧ u.engines = s.engines :=
  ⟨congrArg (·.1) h, congrArg (·.2.1) h, congrArg (·.2.2) h⟩

theorem fld_of_engineSide (h : u.engineSide = s.engineSide) (hn : n < 8) :
    u.fld (F.UPD_STAT_STATE n) = s.fld (F.UPD_STAT_STATE n) ∧ u.fld (F.UPD_STAT_PEND n) = s.fld (F.UPD_STAT_PEND n) := by
  obtain ⟨hstand, -, -⟩ := engineSide_parts h
  have hstats : (standOf u.regs).1 = (standOf s.regs).1 := congrArg (·.1) hstand
  simp only [standOf, List.map_inj_left, List.mem_range, Prod.mk.injEq] at hstats
  exact hstats n hn

theorem sameSite_of_engineSide (h : u.engineSide = s.engineSide) : SameSite s u := by
  obtain ⟨hstand, hcharter, -⟩ := engineSide_parts h
  refine ⟨hcharter, fun f hf => ?_⟩
  have hword : u.rd R.FAB_DEVNUM = s.rd R.FAB_DEVNUM := congrArg Prod.snd hstand
  simp only [State.fld, hf, hword]

theorem engine_of_engineSide (h : u.engineSide = s.engineSide) (n : Nat) : u.engine n = s.engine n := by
  obtain ⟨-, -, hengines⟩ := engineSide_parts h
  simp only [State.engine, hengines]

/-! ### Sends -/

/-- The gradient exchange and the scalar trees of a state: what a message leaves that this device sends. -/
def State.exchange (s : State) : Fre × Sparse STree × Sparse STree := (s.fre, s.treeR, s.treeT)

@[simp] theorem exchange_mk (pending regs latch hiHold readData free osc mem host tstore flash msix power gov snc hal arrs tiles
    charter job engines fre treeC treeR treeT root fab ens injSeen ledger sec dump hang drain sent) :
    (State.mk pending regs latch hiHold readData free osc mem host tstore flash msix power gov snc hal arrs tiles charter job
      engines fre treeC treeR treeT root fab ens injSeen ledger sec dump hang drain sent).exchange = (fre, treeR, treeT) := (rfl)

@[simp] theorem exchange_eta (s : State) : (s.fre, s.treeR, s.treeT) = s.exchange := (rfl)

@[simp] theorem exchange_forEach {α : Type} (es : List α) (f : State → α → State) (h : ∀ t e, (f t e).exchange = t.exchange)
    (s : State) : (forEach es s f).exchange = s.exchange :=
  forEach_keeps (P := fun t => t.exchange = s.exchange) (fun t e ht => (h t e).trans ht) es rfl

@[simp] theorem exchange_setFld (s : State) (f : Fld) (k : Nat) : (s.setFld f k).exchange = s.exchange := (rfl)
@[simp] theorem exchange_bump (s : State) (f : Fld) (k : Nat) : (s.bump f k).exchange = s.exchange := (rfl)
@[simp] theorem exchange_event (s : State) (f : Fld) : (s.event f).exchange = s.exchange := (rfl)
@[simp] theorem exchange_setPair (s : State) (lo hi : Fld) (k : Nat) : (s.setPair lo hi k).exchange = s.exchange := (rfl)
@[simp] theorem exchange_bumpPair (s : State) (lo hi : Fld) (k : Nat) : (s.bumpPair lo hi k).exchange = s.exchange := (rfl)
@[simp] theorem exchange_putPort (s : State) (p : Nat) (x : Port) : (s.putPort p x).exchange = s.exchange := (rfl)

@[simp] theorem exchange_inject (s : State) (point unit sub col acc : Nat) :
    (s.inject point unit sub col acc).2.exchange = s.exchange := by
  unfold State.inject
  dsimp only
  split_ifs <;> simp

@[simp] theorem exchange_updSats (s : State) (n k : Nat) : (s.updSats n k).exchange = s.exchange := by
  unfold State.updSats
  split <;> simp

@[simp] theorem exchange_fillReplay (s : State) (fuel p : Nat) : (s.fillReplay fuel p).exchange = s.exchange := by
  induction fuel generalizing s with
  | zero => rfl
  | succ k ih =>
    unfold State.fillReplay
    split
    · rfl
    · split
      · simp [ih, State.transmit]
      · rfl

theorem exchange_emit (s : State) (m : Msg) (own : Bool) : (s.emit m own).exchange = s.exchange := by
  unfold State.emit
  split
  · unfold State.deliver
    split <;> simp
  · split <;> simp [State.onPort]

@[simp] theorem exchange_sendCtrl (s : State) (dest kind step : Nat) (fields : List Byte) :
    (s.sendCtrl dest kind step fields).exchange = s.exchange := by
  unfold State.sendCtrl State.sendOn
  split
  · simp [exchange_emit]
  · rfl

/-! ### Parameter return, copies and the rest of an outcome -/

variable (s)

@[simp] theorem engineSide_flushSegments (fuel : Nat) : (State.flushSegments fuel s).engineSide = s.engineSide := by
  induction fuel generalizing s with
  | zero => rfl
  | succ k ih => unfold State.flushSegments; split <;> simp [ih]

@[simp] theorem engineSide_copyMark (t a b version : Nat) : (s.copyMark t a b version).engineSide = s.engineSide := by
  unfold State.copyMark; split_ifs <;> simp
@[simp] theorem engineSide_copyComplete (p : Placement) (step : Nat) : (s.copyComplete p step).engineSide = s.engineSide := by
  simp [State.copyComplete]
@[simp] theorem engineSide_putParam (param : Nat) (v : W16) : (s.putParam param v).engineSide = s.engineSide := by
  unfold State.putParam; split <;> simp
@[simp] theorem engineSide_returnValue (step param : Nat) (v : W16) :
    (s.returnValue step param v).engineSide = s.engineSide := by
  unfold State.returnValue
  split
  · extract_lets x put b bank taken stored k count job counted
    have hput (s : State) (b : Nat) : (put s b).engineSide = s.engineSide := by dsimp only [put]; split <;> simp
    simp [counted, stored, taken, hput]
  · simp
@[simp] theorem engineSide_deliverParams (payload : List Byte) : (s.deliverParams payload).engineSide = s.engineSide := by
  simp [State.deliverParams]
@[simp] theorem engineSide_returnParams (n : Nat) : (s.returnParams n).engineSide = s.engineSide :=
  engineSide_forEach _ _ (fun t x => by simp) s
@[simp] theorem engineSide_reloadEngine (n : Nat) : (s.reloadEngine n).engineSide = s.engineSide := by
  unfold State.reloadEngine
  split
  · exact (engineSide_setFld _ (Fld.aside_lowBits (by omega) (by omega)) _).trans (by simp)
  · rfl
@[simp] theorem engineSide_awaitReturn (step : Nat) : (s.awaitReturn step).engineSide = s.engineSide := by
  simp [State.awaitReturn]
@[simp] theorem engineSide_copyCopies : s.copyCopies.engineSide = s.engineSide :=
  engineSide_forEach _ _ (fun t p => by dsimp only; split <;> simp) s
@[simp] theorem engineSide_vetoCopies (step : Nat) : (s.vetoCopies step).engineSide = s.engineSide := by
  simp [State.vetoCopies]
@[simp] theorem engineSide_endBubble : s.endBubble.engineSide = s.engineSide := by
  unfold State.endBubble; split <;> simp
@[simp] theorem engineSide_endBufferWait : s.endBufferWait.engineSide = s.engineSide := by
  unfold State.endBufferWait; simp only; split <;> simp
@[simp] theorem engineSide_releaseFeeds (step : Nat) : (s.releaseFeeds step).engineSide = s.engineSide :=
  engineSide_forEach _ _ (fun t f => by simp) s
@[simp] theorem engineSide_ckBegin (c : Ckpt) : (s.ckBegin c).engineSide = s.engineSide := by simp [State.ckBegin]
@[simp] theorem engineSide_rbackCheck : s.rbackCheck.engineSide = s.engineSide := by simp [State.rbackCheck, State.sendRback]
@[simp] theorem engineSide_updSats (n k : Nat) : (s.updSats n k).engineSide = s.engineSide := by simp [State.updSats]
@[simp] theorem engineSide_toAll (kind step : Nat) (fields : List Byte) :
    (s.toAll kind step fields).engineSide = s.engineSide := by
  simp [State.toAll]
end Sys2Proof.Machine
end

section
/-! SUPPORT. An engine's STATE through an outcome, handled or issued (R346, R347): it stays, or returns to idle.
-/

namespace Sys2Proof.Machine

variable {s t u v w : State} {n m : Nat}

/-! ### An engine's STATE through an outcome -/

/-- From s to u the STATE of engine n stays, or returns to idle. -/
def Rests (n : Nat) (s u : State) : Prop :=
  u.fld (F.UPD_STAT_STATE n) = s.fld (F.UPD_STAT_STATE n) ∨ u.fld (F.UPD_STAT_STATE n) = 0

theorem Rests.refl (s : State) : Rests n s s := .inl rfl

theorem Rests.trans (h : Rests n s u) (h' : Rests n u v) : Rests n s v := by
  rcases h' with h' | h'
  · exact h.imp h'.trans h'.trans
  · exact .inr h'

theorem Rests.of_regs (h : u.regs = s.regs) : Rests n s u := .inl (fld_congr h _)

theorem Rests.of_engineSide (hn : n < 8) (h : u.engineSide = s.engineSide) : Rests n s u := .inl (fld_of_engineSide h hn).1

theorem Rests.ite {p : Prop} [Decidable p] (h : Rests n s u) (h' : Rests n s v) : Rests n s (if p then u else v) := by
  split <;> assumption

theorem Rests.forEach {α : Type} {f : State → α → State} (h : ∀ s e, Rests n s (f s e)) (es : List α) (s : State) :
    Rests n s (forEach es s f) :=
  forEach_keeps (P := Rests n s) (fun m e hm => hm.trans (h m e)) es (.refl s)

theorem rests_setState (m : Nat) : Rests n s (s.setFld (F.UPD_STAT_STATE m) 0) := by
  by_cases h : m = n
  · subst h
    exact .inr (fld_setFld_same _ _ _ (by simp) (by simp))
  · exact .inl (fld_setFld_other _ _ _ _ (by simp) (by simp) (.inl (by simp; omega)))

/-- The end of an engine's step leaves no other STATE than idle, whichever engine it is. -/
theorem rests_endEngine (m step : Nat) : Rests n s (s.endEngine m step) := by
  refine Rests.trans (.of_regs rfl) ((rests_setState (s := s.putEngine m { handled := step + 1 }) m).trans (.inl ?_))
  refine (fld_setFld_other _ _ _ _ (by simp) (by simp) (.inl (by simp; omega))).trans ?_
  exact fld_setFld_other _ _ _ _ (by simp) (by simp) (.inr (.inr (by simp)))

theorem rests_vetoEngine (hn : n < 8) (m step cause : Nat) : Rests n s (s.vetoEngine m step cause) :=
  Rests.trans (.of_engineSide hn (by simp)) (rests_endEngine m step)

theorem rests_commitEngine (hn : n < 8) (m step : Nat) (ratios : List (Nat × W32)) :
    Rests n s (s.commitEngine m step ratios) := by
  unfold State.commitEngine
  extract_lets xs written counted mine ratioed top shown
  have hcounted : counted.engineSide = s.engineSide := by simp [counted, written]
  have hratioed : ratioed.engineSide = s.engineSide := by
    dsimp only [ratioed]
    split <;> simp [hcounted]
  have hshown : shown.engineSide = s.engineSide := by simp [shown, hratioed]
  have hended : Rests n s (shown.endEngine m step) := (Rests.of_engineSide hn hshown).trans (rests_endEngine m step)
  exact .ite hended (hended.trans (.of_engineSide hn (by simp)))

theorem rests_vetoHere (hn : n < 8) (step cause : Nat) : Rests n s (s.vetoHere step cause) := by
  unfold State.vetoHere
  extract_lets vetoed job dropped
  have hvetoed : Rests n s vetoed := .forEach (fun t m => rests_vetoEngine hn m step cause) _ s
  exact hvetoed.trans (.of_engineSide hn (by simp [dropped]))

theorem rests_handleOutcome (hn : n < 8) (step out cause : Nat) (ratios : List (Nat × W32)) :
    Rests n s (s.handleOutcome step out cause ratios) := by
  unfold State.handleOutcome
  split
  · exact .of_engineSide hn (by simp)
  · extract_lets shown stepped job taken counted worked job' cleared flushed hal staged done ens job'' last
    have hcounted : Rests n s counted := .of_engineSide hn (by
      dsimp only [counted]
      split_ifs <;> simp [taken, stepped, shown, R.FRE_OUTCOME])
    have hworked : Rests n s worked := hcounted.trans <| .ite
      (Rests.trans (.of_engineSide hn (by simp)) (.forEach (fun t m => rests_commitEngine hn m step ratios) _ _))
      (rests_vetoHere hn step cause)
    have hcleared : Rests n s cleared := hworked.trans (.of_regs rfl)
    have hflushed : Rests n s flushed := hcleared.trans (.of_engineSide hn (by simp [flushed]))
    have hstaged : Rests n s staged := by
      refine hflushed.trans (.of_engineSide hn ?_)
      dsimp only [staged]
      split
      · split_ifs <;> simp
      · rfl
    exact hstaged.trans (.of_engineSide hn (by simp [last]))

theorem rests_issueOutcome (hn : n < 8) (w : Waiting) (ratios : List (Nat × W32)) : Rests n s (s.issueOutcome w ratios) := by
  unfold State.issueOutcome
  dsimp only
  split
  · exact .refl s
  · split
    · exact .of_regs rfl
    · refine Rests.trans (.of_engineSide hn ?_) (rests_handleOutcome hn _ _ _ _)
      split_ifs <;> simp

end Sys2Proof.Machine
end

section
/-! SUPPORT. The work of other engines than one, and of one among the others.
-/

namespace Sys2Proof.Machine

variable {s t u v w : State} {n m : Nat}

@[simp] theorem engine_putEngine_same (s : State) (n : Nat) (e : Engine) : (s.putEngine n e).engine n = e :=
  lookup_store_same ..

theorem engine_putEngine_other (s : State) (e : Engine) (h : n ≠ m) : (s.putEngine m e).engine n = s.engine n :=
  lookup_store_other _ _ _ h

theorem held_any (h : (s.engine n).held = true) : s.engines.any (fun e => e.2.held) = true := by
  unfold State.engine at h
  generalize s.engines = es at h ⊢
  induction es with
  | nil => cases h
  | cons e es ih =>
    obtain ⟨k, e⟩ := e
    unfold lookup at h
    rw [List.any_cons, Bool.or_eq_true]
    split at h
    · exact .inl h
    · exact .inr (ih h)

theorem hold_ckHoldFlag (h : (s.engine n).held = true) : s.ckHoldFlag.fld F.HAL_CKSTAT_HOLD = 1 := by
  rw [State.ckHoldFlag, held_any h]
  exact fld_setFld_same _ _ _ (by simp) (by simp)

theorem ckHolds_congr (hhal : u.hal = s.hal) (hengine : u.engine n = s.engine n) : u.ckHolds n = s.ckHolds n := by
  simp only [State.ckHolds, hhal, hengine]

/-- A whole register set as its only field reads back. -/
theorem rd_setFld_whole (s : State) (off : Nat) (w : W32) : (s.setFld ⟨off, 31, 0⟩ w.toNat).rd off = w := by
  have hbits := fld_setFld_same s ⟨off, 31, 0⟩ w.toNat (by simp) (by simp)
  have hw := w.isLt
  apply BitVec.eq_of_toNat_eq
  have := ((s.setFld ⟨off, 31, 0⟩ w.toNat).rd off).isLt
  simp only [State.fld, bits] at hbits
  omega

/-- The offsets of engine n's registers (R356). -/
def UpdOff (n off : Nat) : Prop := 0x80000 + 0x400 * n ≤ off ∧ off < 0x80400 + 0x400 * n

/-- From s to u other engines than n worked: registers and engine records alone changed, none of engine n's, and HAL_CKSTAT.HOLD
still shows that it is held. -/
structure OtherEngines (n : Nat) (s u : State) : Prop where
  only : u = { s with regs := u.regs, engines := u.engines }
  engine : u.engine n = s.engine n
  rd : ∀ off, UpdOff n off → u.rd off = s.rd off
  hold : (s.engine n).held = true → s.fld F.HAL_CKSTAT_HOLD = 1 → u.fld F.HAL_CKSTAT_HOLD = 1

theorem OtherEngines.refl (s : State) : OtherEngines n s s := ⟨rfl, rfl, fun _ _ => rfl, fun _ h => h⟩

theorem OtherEngines.trans (h : OtherEngines n s u) (h' : OtherEngines n u v) : OtherEngines n s v where
  only := by rw [h'.only, h.only]
  engine := h'.engine.trans h.engine
  rd off hoff := (h'.rd off hoff).trans (h.rd off hoff)
  hold hheld hs := h'.hold (h.engine ▸ hheld) (h.hold hheld hs)

theorem OtherEngines.ite {p : Prop} [Decidable p] (h : OtherEngines n s u) (h' : OtherEngines n s v) :
    OtherEngines n s (if p then u else v) := by split <;> assumption

theorem OtherEngines.fld (h : OtherEngines n s u) {f : Fld} (hoff : UpdOff n f.off := by simp [UpdOff]) :
    u.fld f = s.fld f := by
  simp only [State.fld, h.rd _ hoff]

theorem otherEngines_putEngine (h : n ≠ m) (e : Engine) : OtherEngines n s (s.putEngine m e) :=
  ⟨rfl, engine_putEngine_other s e h, fun _ _ => rfl, fun _ h => h⟩

theorem OtherEngines.of_setFld {f : Fld} (k : Nat) (hoff : ¬ UpdOff n f.off)
    (hhold : (s.engine n).held = true → s.fld F.HAL_CKSTAT_HOLD = 1 → (s.setFld f k).fld F.HAL_CKSTAT_HOLD = 1) :
    OtherEngines n s (s.setFld f k) :=
  ⟨rfl, rfl, fun _ h => rd_wr_other _ _ fun heq => hoff (heq ▸ h), hhold⟩

/-- A field of another engine's registers. -/
theorem otherEngines_setFld (hnm : n ≠ m) {f : Fld} (k : Nat) (hoff : UpdOff m f.off := by simp [UpdOff]) :
    OtherEngines n s (s.setFld f k) := by
  unfold UpdOff at hoff
  refine .of_setFld k (by unfold UpdOff; omega) fun _ h => ?_
  rw [State.setFld, fld_wr_other _ _ _ (by dsimp only; omega), h]

theorem otherEngines_ckHoldFlag : OtherEngines n s s.ckHoldFlag := by
  have hhold := hold_ckHoldFlag (s := s) (n := n)
  rw [State.ckHoldFlag, State.setFlag] at hhold ⊢
  exact .of_setFld _ (by dsimp only [UpdOff]; omega) fun hheld _ => hhold hheld

theorem otherEngines_enterApply (h : n ≠ m) : OtherEngines n s (s.enterApply m) :=
  .ite ((otherEngines_putEngine h _).trans otherEngines_ckHoldFlag) (otherEngines_setFld h _)

theorem otherEngines_clipEngine (h : n ≠ m) (gnorm kappa : W32) : OtherEngines n s (s.clipEngine gnorm kappa m) := by
  unfold State.clipEngine
  exact (((otherEngines_setFld h _).trans (otherEngines_setFld h _)).trans
    (.ite ((otherEngines_setFld h _).trans (otherEngines_setFld h _)) (.refl _))).trans (otherEngines_enterApply h)

theorem otherEngines_updSats (h : n ≠ m) (k : Nat) : OtherEngines n s (s.updSats m k) :=
  .ite (.refl s) ((otherEngines_setFld h _).trans (otherEngines_setFld h _))

/-- Where engine n is none of those that work, the others alone do. -/
theorem forEach_other_engines {f : State → Nat → State} {es : List Nat} (hn : n ∉ es)
    (hother : ∀ s m, n ≠ m → OtherEngines n s (f s m)) (s : State) : OtherEngines n s (forEach es s f) := by
  induction es generalizing s with
  | nil => exact .refl s
  | cons m es ih =>
    rw [List.mem_cons, not_or] at hn
    exact (hother s m hn.1).trans (ih hn.2 (f s m))

/-- Where it is one of those that each work once, the others alone do before it and after it. -/
theorem forEach_one_engine {f : State → Nat → State} {es : List Nat} (hnodup : es.Nodup) (hn : n ∈ es)
    (hother : ∀ s m, n ≠ m → OtherEngines n s (f s m)) (s : State) :
    ∃ u, OtherEngines n s u ∧ OtherEngines n (f u n) (forEach es s f) := by
  obtain ⟨as, bs, rfl⟩ := List.append_of_mem hn
  obtain ⟨-, hbs, hdisj⟩ := List.nodup_append.mp hnodup
  refine ⟨forEach as s f, forEach_other_engines (fun h => hdisj n h n (by simp) rfl) hother s, ?_⟩
  simp only [forEach, List.foldl_append, List.foldl_cons]
  exact forEach_other_engines (List.nodup_cons.mp hbs).1 hother _

theorem nodup_ownEngines (s : State) (p : Nat → Bool) : (s.ownEngines.filter p).Nodup := (List.nodup_range.filter _).filter _

end Sys2Proof.Machine
end

section
/-! SUPPORT. CLIP at an engine (R343, R347, R485).
-/

namespace Sys2Proof.Machine

variable {s t u v w : State} {n m : Nat}

/-! ### CLIP -/

/-- What an engine does that may start to apply: it applies, or a checkpoint holds it, with HAL_CKSTAT.HOLD set. -/
structure ApplyEntered (n : Nat) (s u : State) : Prop where
  only : u = { s with regs := u.regs, engines := u.engines }
  rd : ∀ off, UpdOff n off → off ≠ R.UPD_STAT n → u.rd off = s.rd off
  applies : s.ckHolds n = false → u.fld (F.UPD_STAT_STATE n) = 3
  held : s.ckHolds n = true → u.fld (F.UPD_STAT_STATE n) = s.fld (F.UPD_STAT_STATE n) ∧ (u.engine n).held = true ∧
    u.fld F.HAL_CKSTAT_HOLD = 1

/-- A field set in s, or in s with an engine's record replaced, leaves all else. -/
theorem setFld_only (s : State) (es : Sparse Engine) (f : Fld) (k : Nat) :
    State.setFld { s with engines := es } f k =
      { s with regs := (State.setFld { s with engines := es } f k).regs,
               engines := (State.setFld { s with engines := es } f k).engines } := rfl

@[simp] theorem engine_setFld (s : State) (f : Fld) (k n : Nat) : (s.setFld f k).engine n = s.engine n := (rfl)

theorem applyEntered_held (h : s.ckHolds n = true) :
    ApplyEntered n s (s.putEngine n { s.engine n with held := true }).ckHoldFlag := by
  have hheld : ((s.putEngine n { s.engine n with held := true }).engine n).held = true := by
    rw [engine_putEngine_same]
  have hhold := hold_ckHoldFlag hheld
  rw [State.ckHoldFlag, State.setFlag] at hhold ⊢
  have hoff (off : Nat) (hoff : UpdOff n off) : off ≠ F.HAL_CKSTAT_HOLD.off := by
    dsimp only [UpdOff] at hoff ⊢
    omega
  refine ⟨?_, fun off hupd _ => rd_wr_other _ _ (hoff off hupd), fun h' => absurd (h.symm.trans h') Bool.noConfusion,
    fun _ => ⟨fld_wr_other _ _ _ (hoff _ (by simp [UpdOff])), ?_, hhold⟩⟩
  · exact setFld_only s _ _ _
  · rw [engine_setFld]
    exact hheld

theorem applyEntered_enterApply : ApplyEntered n s (s.enterApply n) := by
  unfold State.enterApply
  split
  · next h => exact applyEntered_held h
  · next h =>
    exact ⟨setFld_only s _ _ _, fun off _ hoff => rd_wr_other _ _ hoff,
      fun _ => fld_setFld_same _ _ _ (by simp) (by simp), fun h' => absurd h' h⟩

/-- What CLIP leaves at an engine that waits for it (R347 steps 3 and 4, R485). -/
structure Clipped (n : Nat) (gnorm kappa : W32) (s u : State) : Prop where
  only : u = { s with regs := u.regs, engines := u.engines }
  norm : u.rd (R.UPD_GNORM n) = gnorm
  factor : u.rd (R.UPD_KAPPA n) = kappa
  event : FVal.lt (ofFP32 kappa) (FVal.ofInt 1) = true → u.fld (F.UPD_EVT_CLIP n) = 1
  applies : s.ckHolds n = false → u.fld (F.UPD_STAT_STATE n) = 3
  held : s.ckHolds n = true → u.fld (F.UPD_STAT_STATE n) = s.fld (F.UPD_STAT_STATE n) ∧ (u.engine n).held = true ∧
    u.fld F.HAL_CKSTAT_HOLD = 1

theorem clipped_clipEngine (gnorm kappa : W32) : Clipped n gnorm kappa s (s.clipEngine gnorm kappa n) := by
  unfold State.clipEngine
  extract_lets shown counted
  have hcounted : counted = { s with regs := counted.regs } := by
    dsimp only [counted]
    split <;> rfl
  have hnorm : counted.rd (R.UPD_GNORM n) = gnorm := by
    have hshown : shown.rd (R.UPD_GNORM n) = gnorm := (rd_wr_other _ _ (by simp)).trans (rd_setFld_whole s _ gnorm)
    dsimp only [counted]
    split
    · exact (rd_wr_other _ _ (by simp)).trans ((rd_wr_other _ _ (by simp)).trans hshown)
    · exact hshown
  have hfactor : counted.rd (R.UPD_KAPPA n) = kappa := by
    have hshown : shown.rd (R.UPD_KAPPA n) = kappa := rd_setFld_whole _ _ kappa
    dsimp only [counted]
    split
    · exact (rd_wr_other _ _ (by simp)).trans ((rd_wr_other _ _ (by simp)).trans hshown)
    · exact hshown
  have hevent (hlt : FVal.lt (ofFP32 kappa) (FVal.ofInt 1) = true) : counted.fld (F.UPD_EVT_CLIP n) = 1 := by
    dsimp only [counted]
    rw [if_pos hlt]
    exact (fld_bump_other _ _ _ _ (by simp) (by simp) (.inl (by simp))).trans (fld_event_same _ _ (by simp) (by simp))
  have hstate : counted.fld (F.UPD_STAT_STATE n) = s.fld (F.UPD_STAT_STATE n) := by
    have hshown : shown.fld (F.UPD_STAT_STATE n) = s.fld (F.UPD_STAT_STATE n) :=
      (fld_wr_other _ _ _ (by simp)).trans (fld_wr_other _ _ _ (by simp))
    dsimp only [counted]
    split
    · exact (fld_wr_other _ _ _ (by simp)).trans ((fld_wr_other _ _ _ (by simp)).trans hshown)
    · exact hshown
  have hholds : counted.ckHolds n = s.ckHolds n := ckHolds_congr (by rw [hcounted]) (by rw [hcounted]; rfl)
  obtain ⟨honly, hrd, happlies, hheld⟩ := applyEntered_enterApply (s := counted) (n := n)
  refine ⟨?_, ?_, ?_, fun hlt => ?_, hholds ▸ happlies, ?_⟩
  · rw [honly, hcounted]
  · exact (hrd _ (by simp [UpdOff]) (by simp)).trans hnorm
  · exact (hrd _ (by simp [UpdOff]) (by simp)).trans hfactor
  · rw [State.fld, hrd _ (by simp [UpdOff]) (by simp)]
    exact hevent hlt
  · rw [← hholds, ← hstate]
    exact hheld

theorem clipped_clip {gnorm kappa : W32} (hown : n ∈ s.ownEngines) (hstate : s.fld (F.UPD_STAT_STATE n) = 2)
    (hfree : (s.engine n).held = false) : Clipped n gnorm kappa s (s.clip gnorm kappa) := by
  obtain ⟨u, hsu, hut⟩ := forEach_one_engine (f := fun s n => s.clipEngine gnorm kappa n)
    (es := s.ownEngines.filter (fun n => s.fld (F.UPD_STAT_STATE n) == 2 && !(s.engine n).held))
    (nodup_ownEngines s _) (List.mem_filter.mpr ⟨hown, by simp [hstate, hfree]⟩)
    (fun s m h => otherEngines_clipEngine h gnorm kappa) s
  obtain ⟨honly, hnorm, hfactor, hevent, happlies, hheld⟩ := clipped_clipEngine (s := u) (n := n) gnorm kappa
  have hholds : u.ckHolds n = s.ckHolds n := ckHolds_congr (by rw [hsu.only]) hsu.engine
  unfold State.clip
  refine ⟨?_, (hut.rd _ (by simp [UpdOff])).trans hnorm, (hut.rd _ (by simp [UpdOff])).trans hfactor,
    fun hlt => hut.fld.trans (hevent hlt), fun h => hut.fld.trans (happlies (hholds.trans h)), fun h => ?_⟩
  · rw [hut.only, honly, hsu.only]
  · obtain ⟨hkept, heng, hflag⟩ := hheld (hholds.trans h)
    exact ⟨hut.fld.trans (hkept.trans hsu.fld), hut.engine ▸ heng, hut.hold heng hflag⟩

theorem exec_clipMessage (gnorm kappa : W32) (s : State) :
    exec (.clipMessage gnorm kappa) s = act s (fun s => s.clip gnorm kappa) := rfl

end Sys2Proof.Machine
end

section
/-! SUPPORT. Reports and trust sums on their way through the scalar trees, and the end of the trust barrier (R339, R341, R346, R374).
-/

namespace Sys2Proof.Machine

variable {s t u v w : State} {n m : Nat}

/-! ### Scalar trees (R341, R374) -/

@[simp] theorem treeOf_putTree (ts : Sparse STree) (step : Nat) (tr : STree) : treeOf (putTree ts step tr) step = tr :=
  lookup_store_same ..

/-- A value put into a tree is found there, as are those that were. -/
theorem find_put_isSome (tr : STree) (f g : Nat) (v : Node) :
    ((tr.put f v).find g).isSome = true ↔ g = f ∨ (tr.find g).isSome = true := by
  simp only [STree.find, STree.put, Option.isSome_map, List.find?_isSome, List.mem_append, List.mem_filter, List.mem_singleton]
  constructor
  · rintro ⟨x, ⟨hx, -⟩ | rfl, hg⟩
    · exact .inr ⟨x, hx, hg⟩
    · exact .inl (eq_of_beq hg).symm
  · rintro (rfl | ⟨x, hx, hg⟩)
    · exact ⟨(g, v), .inr rfl, by simp⟩
    · by_cases hf : x.1 = f
      · exact ⟨(f, v), .inr rfl, by simpa [hf] using hg⟩
      · exact ⟨x, .inl ⟨hx, by simpa using hf⟩, hg⟩

/-- Where each of a list of shards puts its value into a step's tree, all of them stand there. -/
theorem forEach_puts {tree : State → STree} {f : State → ShardAt → State}
    (hput : ∀ s x, ∃ v, tree (f s x) = (tree s).put x.num v) {xs : List ShardAt} {x : ShardAt} (hx : x ∈ xs) (s : State) :
    ((tree (forEach xs s f)).find x.num).isSome = true := by
  refine forEach_establishes (P := fun s => ((tree s).find x.num).isSome = true) (fun s y h => ?_) (fun s => ?_) hx s
  · obtain ⟨v, hv⟩ := hput s y
    rw [hv]
    exact (find_put_isSome ..).mpr (.inr h)
  · obtain ⟨v, hv⟩ := hput s x
    rw [hv]
    exact (find_put_isSome ..).mpr (.inl rfl)

/-! ### Shards -/

theorem SameSite.devNum (h : SameSite s u) : u.devNum = s.devNum := by
  unfold State.devNum State.flag
  rw [h.dev _ rfl, h.dev _ rfl, h.dev _ rfl]

theorem SameSite.shardDevice (h : SameSite s u) (f : Nat) : u.shardDevice f = s.shardDevice f := by
  simp only [State.shardDevice, State.chart, h.charter]

theorem SameSite.shardsAt (h : SameSite s u) (n : Nat) : u.shardsAt n = s.shardsAt n := by
  simp only [State.shardsAt, State.shardBase, State.engineShards, State.chart, h.charter, h.devNum, h.region]

theorem SameSite.allShards (h : SameSite s u) (n : Nat) (done : List Nat) : u.allShards n done = s.allShards n done := by
  simp only [State.allShards, h.shardsAt]

/-! ### Trust sums (R339) -/

/-- What a send of a step's sums or reports leaves: the engines' side, and the values of the step's trees. -/
structure TreesSent (step : Nat) (s u : State) : Prop where
  side : u.engineSide = s.engineSide
  fre : u.fre = s.fre
  trust : ∀ f, (treeOf u.treeT step).find f = (treeOf s.treeT step).find f
  report : ∀ f, (treeOf u.treeR step).find f = (treeOf s.treeR step).find f

theorem TreesSent.trans {step : Nat} (h : TreesSent step s u) (h' : TreesSent step u v) : TreesSent step s v :=
  ⟨h'.side.trans h.side, h'.fre.trans h.fre, fun f => (h'.trust f).trans (h.trust f),
    fun f => (h'.report f).trans (h.report f)⟩

theorem treesSent_of_exchange {step : Nat} (hside : u.engineSide = s.engineSide) (h : u.exchange = s.exchange) :
    TreesSent step s u := by
  have hfre : u.fre = s.fre := congrArg (·.1) h
  have hreport : u.treeR = s.treeR := congrArg (·.2.1) h
  have htrust : u.treeT = s.treeT := congrArg (·.2.2) h
  exact ⟨hside, hfre, fun f => by rw [htrust], fun f => by rw [hreport]⟩

theorem treesSent_sends {α : Type} {step : Nat} {f : State → α → State} (hside : ∀ s e, (f s e).engineSide = s.engineSide)
    (h : ∀ s e, (f s e).exchange = s.exchange) (es : List α) (s : State) : TreesSent step s (forEach es s f) :=
  treesSent_of_exchange (engineSide_forEach es f hside s) (exchange_forEach es f h s)

theorem treesSent_trust {step : Nat} {tr : STree} (h : ∀ f, tr.find f = (treeOf s.treeT step).find f) :
    TreesSent step s { s with treeT := putTree s.treeT step tr } :=
  ⟨rfl, rfl, fun f => by simp [h], fun _ => rfl⟩

theorem treesSent_report {step : Nat} {tr : STree} (h : ∀ f, tr.find f = (treeOf s.treeR step).find f) :
    TreesSent step s { s with treeR := putTree s.treeR step tr } :=
  ⟨rfl, rfl, fun _ => rfl, fun f => by simp [h]⟩

/-- Trust sums that move on are sent; at the root they also end the barrier of the engines that wait at it. -/
theorem advanceTrust_cases (s : State) (step : Nat) :
    ∃ u, TreesSent step s u ∧ (s.advanceTrust step = u ∨ ∃ ls, s.advanceTrust step = u.trustDown step ls) := by
  unfold State.advanceTrust
  extract_lets tr up sent noted passed
  have hnoted : TreesSent step s noted := treesSent_trust fun _ => rfl
  have hpassed : TreesSent step noted passed := treesSent_sends (fun s q => by simp) (fun s q => by simp) _ _
  have htree (f : Nat) : sent.find f = (treeOf passed.treeT step).find f := by
    rw [hpassed.trust f]
    simp [noted]
  split
  · exact ⟨passed, hnoted.trans hpassed, .inl rfl⟩
  · split
    · next v _ =>
      have hrooted := (hnoted.trans hpassed).trans (treesSent_trust (tr := { sent with sent := 0 :: sent.sent }) htree)
      exact ⟨_, hrooted.trans (treesSent_sends (fun s d => by simp) (fun s d => by simp) _ _), .inr ⟨v.layers, rfl⟩⟩
    · exact ⟨passed, hnoted.trans hpassed, .inl rfl⟩

/-! ### The end of the trust barrier -/

/-- The end of the trust barrier at an engine: it applies, if it waits there, and keeps what pass 1 has run over. -/
structure BarrierEnded (n : Nat) (s u : State) : Prop where
  trees : u.treeT = s.treeT
  passed : (u.engine n).passed = (s.engine n).passed
  state : u.fld (F.UPD_STAT_STATE n) = s.fld (F.UPD_STAT_STATE n) ∧ (u.engine n).trusted = (s.engine n).trusted ∨
    s.fld (F.UPD_STAT_STATE n) = 4 ∧ u.fld (F.UPD_STAT_STATE n) = 3 ∧ (u.engine n).trusted = true

theorem OtherEngines.barrierEnded (h : OtherEngines n s u) : BarrierEnded n s u :=
  ⟨by rw [h.only], by rw [h.engine], .inl ⟨h.fld, by rw [h.engine]⟩⟩

/-- An engine takes the sums of the whole job, with what it counts of φmax and of saturations, and applies. -/
def State.takeTrust (s : State) (ls : List LayerSums) (n : Nat) : State :=
  let mine := ls.filter (fun q => (s.chart.layerGroup q.layer).opt == 2
    && (s.shardsAt n).any (fun x => (List.range x.shard.length).any (fun i => s.chart.layerOf (x.shard.first + i) == q.layer)))
  let (phis, sats) := (mine.mapM s.chart.layerPhi).run 0
  let s := s.putEngine n { s.engine n with trusted := true, trust := ls }
  (s.setFld (F.UPD_STAT_STATE n) 3).bump (F.UPD_CNT_TRUSTCLAMP_COUNT n) (phis.filter (·.2)).length |>.updSats n sats

theorem trustDown_eq (s : State) (step : Nat) (ls : List LayerSums) : s.trustDown step ls =
    forEach (s.ownEngines.filter (fun n => s.fld (F.UPD_STAT_STATE n) == 4 && (s.engine n).handled == step)) s
      (fun s n => s.takeTrust ls n) := rfl

theorem otherEngines_takeTrust (ls : List LayerSums) (h : n ≠ m) : OtherEngines n s (s.takeTrust ls m) :=
  (((otherEngines_putEngine h _).trans (otherEngines_setFld h _)).trans (otherEngines_setFld h _)).trans
    (otherEngines_updSats h _)

theorem takeTrust_eq (s : State) (ls : List LayerSums) (n : Nat) : ∃ k sats, s.takeTrust ls n =
    State.updSats (((s.putEngine n { s.engine n with trusted := true, trust := ls }).setFld (F.UPD_STAT_STATE n) 3).bump
      (F.UPD_CNT_TRUSTCLAMP_COUNT n) k) n sats := ⟨_, _, rfl⟩

theorem takeTrust_spec (ls : List LayerSums) (hn : n < 8) : (s.takeTrust ls n).treeT = s.treeT ∧
    (s.takeTrust ls n).engine n = { s.engine n with trusted := true, trust := ls } ∧
    (s.takeTrust ls n).fld (F.UPD_STAT_STATE n) = 3 := by
  obtain ⟨k, sats, htaken⟩ := takeTrust_eq s ls n
  have hexchange : (s.takeTrust ls n).exchange = s.exchange := by
    rw [htaken, exchange_updSats, exchange_bump, exchange_setFld]
    rfl
  have hside : (s.takeTrust ls n).engineSide =
      ((s.putEngine n { s.engine n with trusted := true, trust := ls }).setFld (F.UPD_STAT_STATE n) 3).engineSide := by
    rw [htaken, engineSide_updSats, engineSide_bump _ (by simp)]
  refine ⟨congrArg (·.2.2) hexchange, ?_, ?_⟩
  · rw [engine_of_engineSide hside, engine_setFld, engine_putEngine_same]
  · rw [(fld_of_engineSide hside hn).1]
    exact fld_setFld_same _ _ _ (by simp) (by simp)

theorem barrierEnded_trustDown (s : State) (step n : Nat) (ls : List LayerSums) :
    BarrierEnded n s (s.trustDown step ls) := by
  rw [trustDown_eq]
  by_cases h : n ∈ s.ownEngines.filter (fun n => s.fld (F.UPD_STAT_STATE n) == 4 && (s.engine n).handled == step)
  · obtain ⟨hown, hwaits⟩ := List.mem_filter.mp h
    have hn : n < 8 := List.mem_range.mp (List.mem_filter.mp hown).1
    obtain ⟨u, hsu, hut⟩ := forEach_one_engine (nodup_ownEngines s _) h (fun s m => otherEngines_takeTrust ls) s
    obtain ⟨htree, hengine, hstate⟩ := takeTrust_spec (s := u) ls hn
    refine ⟨?_, ?_, .inr ⟨by simp at hwaits; exact hwaits.1, hut.fld.trans hstate, ?_⟩⟩
    · rw [hut.only, htree, hsu.only]
    · rw [hut.engine, hengine, hsu.engine]
    · rw [hut.engine, hengine]
  · exact (forEach_other_engines h (fun s m => otherEngines_takeTrust ls) s).barrierEnded

/-! ### Reports (R346) -/

/-- Reports that move on are sent; at the root they become the outcome. -/
theorem advanceReports_cases (s : State) (step : Nat) :
    ∃ u, TreesSent step s u ∧ (s.advanceReports step = u ∨ s.shardDevice 0 = s.devNum ∧
      ∃ w ratios, s.advanceReports step = u.issueOutcome w ratios) := by
  unfold State.advanceReports
  extract_lets tr up sent noted passed
  have hnoted : TreesSent step s noted := treesSent_report fun _ => rfl
  have hpassed : TreesSent step noted passed := treesSent_sends (fun s q => by simp) (fun s q => by simp) _ _
  have htree (f : Nat) : sent.find f = (treeOf passed.treeR step).find f := by
    rw [hpassed.report f]
    simp [noted]
  split
  · exact ⟨passed, hnoted.trans hpassed, .inl rfl⟩
  · split
    · next v hroot =>
      have hrooted := (hnoted.trans hpassed).trans (treesSent_report (tr := { sent with sent := 0 :: sent.sent }) htree)
      refine ⟨_, hrooted, .inr ⟨?_, ?_⟩⟩
      · have hsite := sameSite_of_engineSide (hnoted.trans hpassed).side
        by_contra h
        rw [State.treeRoot, if_neg (by rwa [hsite.shardDevice, hsite.devNum])] at hroot
        cases hroot
      · split
        · exact ⟨_, _, rfl⟩
        · exact ⟨_, _, rfl⟩
    · exact ⟨passed, hnoted.trans hpassed, .inl rfl⟩

end Sys2Proof.Machine
end

section
/-! SUPPORT. Pass 1 of an engine and the application of its update (R339, R344, R345).
-/

namespace Sys2Proof.Machine

variable {s t u v w : State} {n m : Nat}

/-! ### The answer of a step of an engine -/

theorem Became.engine (h : Became s u t) (n : Nat) : t.engine n = u.engine n := by
  obtain ⟨-, ⟨-, -, -, -, -, -, -, -, hengines, -⟩, -⟩ := h.frame
  simp only [State.engine, hengines]

theorem Became.exchange (h : Became s u t) : t.exchange = u.exchange := by
  obtain ⟨-, ⟨-, -, -, -, -, -, -, -, -, hfre, -, hreport, htrust⟩, -⟩ := h.frame
  rw [State.exchange, hfre, hreport, htrust]
  rfl

theorem Became.sent (h : Became s u t) : t.sent = u.sent := by
  obtain ⟨k, rfl⟩ := h
  rfl

theorem Became.only_engines (h : Became s u t) (hu : u = { s with regs := u.regs, engines := u.engines }) :
    t = { s with regs := t.regs, msix := t.msix, engines := t.engines } := by
  rw [hu] at h
  obtain ⟨k, rfl⟩ := h
  rfl

/-! ### An engine's record and STATE -/

theorem fld_setState (s : State) (n : Nat) {k : Nat} (hk : k < 16) :
    (s.setFld (F.UPD_STAT_STATE n) k).fld (F.UPD_STAT_STATE n) = k :=
  (fld_setFld_same _ _ _ (by simp) (by simp)).trans (Nat.mod_eq_of_lt hk)

theorem sameSite_putEngine (n : Nat) (e : Engine) : SameSite s (s.putEngine n e) := ⟨rfl, fun _ _ => rfl⟩

/-! ### Pass 1 (R339) -/

theorem trustPass_keeps (s : State) (x : ShardAt) (k : UpdCtx) :
    (s.trustPass x k).1.engineSide = s.engineSide ∧ (s.trustPass x k).1.exchange = s.exchange := by
  obtain ⟨bytes, hwrites⟩ : ∃ bytes, (s.trustPass x k).1 =
      if s.chart.shardTrust x.shard then s.putMem (x.area 11) bytes else s := ⟨_, rfl⟩
  rw [hwrites]
  split <;> exact ⟨rfl, rfl⟩

/-- Pass 1 over a shard, whose sums enter the step's tree. -/
def State.passShard (n step : Nat) (s : State) (x : ShardAt) : State :=
  let (s, ls, sats) := s.trustPass x (s.updCtx n x)
  let s := s.updSats n sats
  { s with treeT := putTree s.treeT step ((treeOf s.treeT step).put x.num { layers := ls }) }

/-- The shards that pass 1 of an engine has run over once its complete shards are. -/
def State.passedOf (s : State) (n : Nat) : List Nat :=
  (s.engine n).passed ++ (s.shardsLeft n (s.engine n).passed).map (·.num)

/-- The end of pass 1 over the shards that were complete: an engine waits for more of them, or at the barrier. -/
def State.endPass (s : State) (n : Nat) (passed : List Nat) : State :=
  let s := s.putEngine n { s.engine n with passed }
  s.setFld (F.UPD_STAT_STATE n) (if s.allShards n passed then 4 else 1)

/-- Pass 1 of an engine over its complete shards. -/
def State.passEngine (s : State) (n : Nat) : State :=
  (forEach (s.shardsLeft n (s.engine n).passed) s (State.passShard n (s.engine n).handled)).endPass n (s.passedOf n)

theorem exec_trustPassOneComplete (n : Nat) (s : State) : exec (.trustPassOneComplete n) s =
    act s fun s => if s.fld (F.UPD_STAT_STATE n) = 3 && s.chart.usesTrust && !(s.engine n).trusted then
      (s.passEngine n).advanceTrust (s.engine n).handled
    else s := rfl

theorem passShard_spec (n step : Nat) (s : State) (x : ShardAt) : (s.passShard n step x).engineSide = s.engineSide ∧
    ∃ v, treeOf (State.passShard n step s x).treeT step = (treeOf s.treeT step).put x.num v := by
  obtain ⟨hside, hexchange⟩ := trustPass_keeps s x (s.updCtx n x)
  unfold State.passShard
  generalize s.trustPass x (s.updCtx n x) = worked at hside hexchange ⊢
  obtain ⟨p, ls, sats⟩ := worked
  have htree : (p.updSats n sats).treeT = s.treeT := congrArg (·.2.2) ((exchange_updSats p n sats).trans hexchange)
  refine ⟨((engineSide_updSats p n sats).trans hside), { layers := ls }, ?_⟩
  dsimp only
  rw [treeOf_putTree, htree]

/-- What pass 1 of engine n leaves. -/
structure PassedOne (n : Nat) (passed : List Nat) (s u : State) : Prop where
  engine : u.engine n = { s.engine n with passed }
  sums : ∀ x ∈ s.shardsLeft n (s.engine n).passed, ((treeOf u.treeT (s.engine n).handled).find x.num).isSome = true
  state : u.fld (F.UPD_STAT_STATE n) = if s.allShards n passed then 4 else 1

theorem passedOne_passEngine (s : State) (n : Nat) : PassedOne n (s.passedOf n) s (s.passEngine n) := by
  have hside := engineSide_forEach (s.shardsLeft n (s.engine n).passed) (State.passShard n (s.engine n).handled)
    (fun s x => (passShard_spec n _ s x).1) s
  have hsums (x) (hx : x ∈ s.shardsLeft n (s.engine n).passed) :=
    forEach_puts (tree := fun v => treeOf v.treeT (s.engine n).handled) (f := State.passShard n (s.engine n).handled)
      (fun v x => (passShard_spec n _ v x).2) hx s
  unfold State.passEngine State.endPass
  generalize forEach _ s _ = worked at hside hsums ⊢
  have hsite := (sameSite_of_engineSide hside).trans (sameSite_putEngine n { worked.engine n with passed := s.passedOf n })
  dsimp only
  rw [hsite.allShards n (s.passedOf n)]
  refine ⟨?_, by simpa [State.putEngine] using hsums, fld_setState _ _ (by split <;> simp)⟩
  rw [engine_setFld, engine_putEngine_same, engine_of_engineSide hside]

/-! ### The application of an update (R344, R345) -/

/-- What the work on a shard leaves that is no report. -/
structure ShardWorked (s u : State) : Prop where
  side : u.engineSide = s.engineSide
  exchange : u.exchange = s.exchange
  sent : u.sent = s.sent

theorem ShardWorked.trans (h : ShardWorked s u) (h' : ShardWorked u v) : ShardWorked s v :=
  ⟨h'.side.trans h.side, h'.exchange.trans h.exchange, h'.sent.trans h.sent⟩

theorem shardWorked_updSats (s : State) (n k : Nat) : ShardWorked s (s.updSats n k) :=
  ⟨by simp, by simp, by unfold State.updSats; split <;> rfl⟩

/-- The engine's flag and busy count after a shard. -/
def State.countShard (s : State) (n st : Nat) (x : ShardAt) : State :=
  let s := if st = 0 then s else s.event (F.UPD_EVT_NONFIN n)
  let beats := (if s.chart.shardTrust x.shard then 2 else 1) * ceilDiv x.shard.length 128
  s.bumpPair (F.UPD_CNT_BUSY_LO_COUNT n) (F.UPD_CNT_BUSY_HI_COUNT n) beats

/-- The pending slots of a shard, and its report, which an engine does not send that asked for a veto. -/
def State.applyShard (n step : Nat) (vreq : Bool) (s : State) (x : ShardAt) : State :=
  let (s, st, ls, sats) := s.writePending x (s.updCtx n x)
  let s := (s.updSats n sats).countShard n st x
  if vreq then s
  else { s with treeR := putTree s.treeR step ((treeOf s.treeR step).put x.num { status := st, layers := ls }) }

/-- The shards that an engine has applied once its complete shards are. -/
def State.appliedOf (s : State) (n : Nat) : List Nat :=
  (s.engine n).applied ++ (s.shardsLeft n (s.engine n).applied).map (·.num)

/-- The end of apply over the shards that were complete: an engine waits for more of them, or for the outcome, with pending
slots. -/
def State.endApply (s : State) (n : Nat) (applied : List Nat) : State :=
  let s := s.putEngine n { s.engine n with applied }
  (s.setFld (F.UPD_STAT_STATE n) (if s.allShards n applied then 5 else 1)).setFlag (F.UPD_STAT_PEND n) true

/-- An engine applies its complete shards. -/
def State.applyEngine (s : State) (n : Nat) : State :=
  (forEach (s.shardsLeft n (s.engine n).applied) s (State.applyShard n (s.engine n).handled (s.engine n).vreq)).endApply n
    (s.appliedOf n)

theorem exec_updateApplyComplete (n : Nat) (s : State) : exec (.updateApplyComplete n) s =
    act s fun s => if s.fld (F.UPD_STAT_STATE n) = 3 && (!s.chart.usesTrust || (s.engine n).trusted) then
      if (s.engine n).vreq then s.applyEngine n
      else (s.applyEngine n).advanceReports (s.engine n).handled
    else s := rfl

theorem writePending_writes (s : State) (x : ShardAt) (k : UpdCtx) : ∃ slot hi lo m u powers, (s.writePending x k).1 =
    ((((s.putMem (x.area (2 + slot)) hi).putMem (x.area (4 + slot)) lo).putMem (x.area (6 + slot)) m).putMem
      (x.area (8 + slot)) u).putMem (x.area slot + 32) powers := ⟨_, _, _, _, _, _, rfl⟩

theorem shardWorked_writePending (s : State) (x : ShardAt) (k : UpdCtx) : ShardWorked s (s.writePending x k).1 := by
  obtain ⟨slot, hi, lo, m, u, powers, hwrites⟩ := writePending_writes s x k
  rw [hwrites]
  exact ⟨rfl, rfl, rfl⟩

theorem shardWorked_countShard (s : State) (n st : Nat) (x : ShardAt) : ShardWorked s (s.countShard n st x) := by
  unfold State.countShard
  split
  · exact ⟨by simp, by simp, rfl⟩
  · exact ⟨by simp, by simp, rfl⟩

theorem applyShard_spec (n step : Nat) (vreq : Bool) (s : State) (x : ShardAt) : ∃ u v, ShardWorked s u ∧
    State.applyShard n step vreq s x =
      if vreq then u else { u with treeR := putTree u.treeR step ((treeOf u.treeR step).put x.num v) } := by
  have hpending := shardWorked_writePending s x (s.updCtx n x)
  unfold State.applyShard
  generalize s.writePending x (s.updCtx n x) = worked at hpending ⊢
  obtain ⟨p, st, ls, sats⟩ := worked
  exact ⟨_, _, hpending.trans ((shardWorked_updSats p n sats).trans (shardWorked_countShard _ n st x)), rfl⟩

theorem engineSide_applyShard (n step : Nat) (vreq : Bool) (s : State) (x : ShardAt) :
    (s.applyShard n step vreq x).engineSide = s.engineSide := by
  obtain ⟨u, v, hu, heq⟩ := applyShard_spec n step vreq s x
  rw [heq]
  split <;> exact hu.side

theorem fre_applyShard (n step : Nat) (vreq : Bool) (s : State) (x : ShardAt) :
    (s.applyShard n step vreq x).fre = s.fre := by
  obtain ⟨u, v, hu, heq⟩ := applyShard_spec n step vreq s x
  rw [heq]
  split <;> exact congrArg (·.1) hu.exchange

/-- What the end of apply leaves at engine n, its reports not yet sent. -/
structure Applied (n : Nat) (applied : List Nat) (s u : State) : Prop where
  site : SameSite s u
  engine : u.engine n = { s.engine n with applied }
  state : u.fld (F.UPD_STAT_STATE n) = if s.allShards n applied then 5 else 1
  pend : u.fld (F.UPD_STAT_PEND n) = 1
  fre : u.fre = s.fre
  vetoed : (s.engine n).vreq = true → u.treeR = s.treeR ∧ u.sent = s.sent
  reports : (s.engine n).vreq = false → ∀ x ∈ s.shardsLeft n (s.engine n).applied,
    ((treeOf u.treeR (s.engine n).handled).find x.num).isSome = true

theorem shardWorked_applyShard {vreq : Bool} (h : vreq = true) (n step : Nat) (s : State) (x : ShardAt) :
    ShardWorked s (s.applyShard n step vreq x) := by
  obtain ⟨u, v, hu, heq⟩ := applyShard_spec n step vreq s x
  rw [heq, if_pos h]
  exact hu

theorem applyShard_puts {vreq : Bool} (h : vreq = false) (n step : Nat) (s : State) (x : ShardAt) :
    ∃ v, treeOf (State.applyShard n step vreq s x).treeR step = (treeOf s.treeR step).put x.num v := by
  obtain ⟨u, v, hu, heq⟩ := applyShard_spec n step vreq s x
  have htree : u.treeR = s.treeR := congrArg (·.2.1) hu.exchange
  rw [heq, h, ← htree]
  exact ⟨v, treeOf_putTree ..⟩

/-- The end of apply, after work that leaves the engines' side. -/
theorem applied_endApply {applied : List Nat} (hside : u.engineSide = s.engineSide) (hfre : u.fre = s.fre)
    (hvetoed : (s.engine n).vreq = true → u.treeR = s.treeR ∧ u.sent = s.sent)
    (hreports : (s.engine n).vreq = false → ∀ x ∈ s.shardsLeft n (s.engine n).applied,
      ((treeOf u.treeR (s.engine n).handled).find x.num).isSome = true) :
    Applied n applied s (u.endApply n applied) := by
  have hsite := (sameSite_of_engineSide hside).trans (sameSite_putEngine n { u.engine n with applied })
  unfold State.endApply
  dsimp only
  rw [hsite.allShards n applied]
  refine ⟨?_, ?_, ?_, fld_setFld_same _ _ _ (by simp) (by simp), by simpa [State.putEngine] using hfre,
    by simpa [State.putEngine] using hvetoed, by simpa [State.putEngine] using hreports⟩
  · exact hsite.trans ((sameSite_setFld _ (by simp [R.FAB_DEVNUM]; omega)).trans
      (sameSite_setFld _ (by simp [R.FAB_DEVNUM]; omega)))
  · rw [State.setFlag, engine_setFld, engine_setFld, engine_putEngine_same, engine_of_engineSide hside]
  · refine (fld_setFld_other _ _ _ _ (by simp) (by simp) (.inr (by simp))).trans ?_
    exact fld_setState _ _ (by split <;> simp)

theorem applied_applyEngine (s : State) (n : Nat) : Applied n (s.appliedOf n) s (s.applyEngine n) := by
  refine applied_endApply (engineSide_forEach _ _ (engineSide_applyShard n _ _) s) ?_ (fun h => ?_) fun h x hx => ?_
  · exact forEach_keeps (P := fun v => v.fre = s.fre) (fun v x hv => (fre_applyShard n _ _ v x).trans hv) _ rfl
  · have hworked := forEach_keeps (P := ShardWorked s)
      (fun v x hv => hv.trans (shardWorked_applyShard h n (s.engine n).handled v x))
      (s.shardsLeft n (s.engine n).applied) ⟨rfl, rfl, rfl⟩
    exact ⟨congrArg (·.2.1) hworked.exchange, hworked.sent⟩
  · exact forEach_puts (tree := fun v => treeOf v.treeR (s.engine n).handled) (applyShard_puts h n _) hx s

end Sys2Proof.Machine
end

section
/-! SUPPORT. CLIP, the trust barrier and the end of apply as commands that complete (R339, R343 to R347, R485).
-/

namespace Sys2Proof.Machine

variable {s t u v w : State} {n m : Nat}

/-! ### The events of an engine's step, in every case (R339, R343 to R347, R485) -/

/-- Sums that move on leave an engine that does not wait at the barrier; one that does, where the barrier ends, applies. -/
theorem advanceTrust_spec (s : State) (step : Nat) (hn : n < 8) :
    ((s.advanceTrust step).engine n).passed = (s.engine n).passed ∧
    (∀ f, (treeOf (s.advanceTrust step).treeT step).find f = (treeOf s.treeT step).find f) ∧
    ((s.advanceTrust step).fld (F.UPD_STAT_STATE n) = s.fld (F.UPD_STAT_STATE n) ∧
        ((s.advanceTrust step).engine n).trusted = (s.engine n).trusted ∨
      s.fld (F.UPD_STAT_STATE n) = 4 ∧ (s.advanceTrust step).fld (F.UPD_STAT_STATE n) = 3 ∧
        ((s.advanceTrust step).engine n).trusted = true) := by
  obtain ⟨u, hsent, hend⟩ := advanceTrust_cases s step
  have hengine := engine_of_engineSide hsent.side n
  have hstate := (fld_of_engineSide hsent.side hn).1
  rw [← hengine, ← hstate]
  rcases hend with heq | ⟨ls, heq⟩
  · rw [heq]
    exact ⟨rfl, hsent.trust, .inl ⟨rfl, rfl⟩⟩
  · obtain ⟨htrees, hpassed, hends⟩ := barrierEnded_trustDown u step n ls
    rw [heq, htrees]
    exact ⟨hpassed, hsent.trust, hends⟩

theorem exec_clipMessage_spec {gnorm kappa : W32} (hon : s.power.on = true) (hown : n ∈ s.ownEngines)
    (hstate : s.fld (F.UPD_STAT_STATE n) = 2) (hfree : (s.engine n).held = false) :
    ∃ t, exec (.clipMessage gnorm kappa) s = .next t ∧ t.rd (R.UPD_GNORM n) = gnorm ∧ t.rd (R.UPD_KAPPA n) = kappa ∧
      (s.ckHolds n = false → t.fld (F.UPD_STAT_STATE n) = 3) ∧
      (s.ckHolds n = true → t.fld (F.UPD_STAT_STATE n) = 2 ∧ (t.engine n).held = true ∧ t.fld F.HAL_CKSTAT_HOLD = 1) ∧
      (FVal.lt (ofFP32 kappa) (FVal.ofInt 1) = true → t.fld (F.UPD_EVT_CLIP n) = 1) ∧
      t = { s with regs := t.regs, msix := t.msix, engines := t.engines } := by
  rw [exec_clipMessage]
  obtain ⟨t, ht, hb⟩ := act_became (fun s => s.clip gnorm kappa) hon
  obtain ⟨honly, hnorm, hfactor, hevent, happlies, hheld⟩ := clipped_clip (gnorm := gnorm) (kappa := kappa) hown hstate hfree
  rw [hstate] at hheld
  refine ⟨t, ht, ?_, ?_, ?_, ?_, ?_, hb.only_engines honly⟩
  · rw [hb.rd, hnorm]
  · rw [hb.rd, hfactor]
  · rwa [hb.fld]
  · rwa [hb.fld, hb.fld, hb.engine]
  · rwa [hb.fld]

theorem exec_trustPassOneComplete_spec (hon : s.power.on = true) (hn : n < 8) (hstate : s.fld (F.UPD_STAT_STATE n) = 3)
    (htrust : s.chart.usesTrust = true) (huntrusted : (s.engine n).trusted = false) :
    ∃ t, exec (.trustPassOneComplete n) s = .next t ∧ (t.engine n).passed = s.passedOf n ∧
      (∀ x ∈ s.shardsLeft n (s.engine n).passed, ((treeOf t.treeT (s.engine n).handled).find x.num).isSome = true) ∧
      (s.allShards n (s.passedOf n) = false → t.fld (F.UPD_STAT_STATE n) = 1 ∧ (t.engine n).trusted = false) ∧
      (s.allShards n (s.passedOf n) = true → t.fld (F.UPD_STAT_STATE n) = 4 ∧ (t.engine n).trusted = false ∨
        t.fld (F.UPD_STAT_STATE n) = 3 ∧ (t.engine n).trusted = true) := by
  rw [exec_trustPassOneComplete]
  obtain ⟨t, ht, hb⟩ := act_became (fun s => if s.fld (F.UPD_STAT_STATE n) = 3 && s.chart.usesTrust && !(s.engine n).trusted
    then (s.passEngine n).advanceTrust (s.engine n).handled else s) hon
  rw [if_pos (by simp [hstate, htrust, huntrusted])] at hb
  obtain ⟨hengine, hsums, hpass⟩ := passedOne_passEngine s n
  obtain ⟨hpassed, htree, hends⟩ := advanceTrust_spec (s.passEngine n) (s.engine n).handled hn
  have htrees : t.treeT = ((s.passEngine n).advanceTrust (s.engine n).handled).treeT := congrArg (·.2.2) hb.exchange
  have huntrusted' : ((s.passEngine n).engine n).trusted = false := by rw [hengine, ← huntrusted]
  rw [hpass, huntrusted'] at hends
  refine ⟨t, ht, ?_, fun x hx => ?_, fun hall => ?_, fun hall => ?_⟩
  · rw [hb.engine, hpassed, hengine]
  · rw [htrees, htree]
    exact hsums x hx
  · rw [hb.fld, hb.engine]
    simpa [hall] using hends
  · rw [hb.fld, hb.engine]
    simpa [hall] using hends

/-- What an engine that applies leaves before its step's reports move on. -/
theorem exec_updateApplyComplete_applies (hon : s.power.on = true) (hstate : s.fld (F.UPD_STAT_STATE n) = 3)
    (hready : s.chart.usesTrust = false ∨ (s.engine n).trusted = true) :
    ∃ t, exec (.updateApplyComplete n) s = .next t ∧ Became s (if (s.engine n).vreq then s.applyEngine n
      else (s.applyEngine n).advanceReports (s.engine n).handled) t := by
  rw [exec_updateApplyComplete]
  obtain ⟨t, ht, hb⟩ := act_became (fun s => if s.fld (F.UPD_STAT_STATE n) = 3 && (!s.chart.usesTrust || (s.engine n).trusted)
    then if (s.engine n).vreq then s.applyEngine n else (s.applyEngine n).advanceReports (s.engine n).handled else s) hon
  rw [if_pos (by simpa [hstate] using hready)] at hb
  exact ⟨t, ht, hb⟩

/-- Away from the step root the reports of a step only move on. -/
theorem treesSent_advanceReports (step : Nat) (h : s.devNum ≠ s.chart.stepRoot) : TreesSent step s (s.advanceReports step) := by
  obtain ⟨u, hsent, heq | ⟨hroot, -⟩⟩ := advanceReports_cases s step
  · rwa [heq]
  · exact absurd hroot.symm h

theorem exec_updateApplyComplete_spec (hon : s.power.on = true) (hn : n < 8) (hstate : s.fld (F.UPD_STAT_STATE n) = 3)
    (hready : s.chart.usesTrust = false ∨ (s.engine n).trusted = true)
    (haway : (s.engine n).vreq = true ∨ s.devNum ≠ s.chart.stepRoot) :
    ∃ t, exec (.updateApplyComplete n) s = .next t ∧ (t.engine n).applied = s.appliedOf n ∧
      t.fld (F.UPD_STAT_STATE n) = (if s.allShards n (s.appliedOf n) then 5 else 1) ∧ t.fld (F.UPD_STAT_PEND n) = 1 ∧
      t.fre = s.fre ∧ ((s.engine n).vreq = true → t.treeR = s.treeR ∧ t.sent = s.sent) ∧
      ((s.engine n).vreq = false → ∀ x ∈ s.shardsLeft n (s.engine n).applied,
        ((treeOf t.treeR (s.engine n).handled).find x.num).isSome = true) := by
  obtain ⟨t, ht, hb⟩ := exec_updateApplyComplete_applies hon hstate hready
  obtain ⟨hsite, hengine, happly, hpend, hfre, hvetoed, hreports⟩ := applied_applyEngine s n
  have hfret := congrArg (·.1) hb.exchange
  have htreet := congrArg (·.2.1) hb.exchange
  simp only [State.exchange] at hfret htreet
  refine ⟨t, ht, ?_⟩
  rw [hb.engine, hb.fld, hb.fld, hfret, htreet, hb.sent]
  cases hv : (s.engine n).vreq with
  | true =>
    rw [if_pos rfl]
    exact ⟨by rw [hengine], happly, hpend, hfre, fun _ => hvetoed hv, Bool.noConfusion⟩
  | false =>
    rw [if_neg Bool.noConfusion]
    have hchart : (s.applyEngine n).chart = s.chart := by rw [State.chart, hsite.charter, State.chart]
    obtain ⟨hside, hfre', -, hreport⟩ := treesSent_advanceReports (s := s.applyEngine n) (s.engine n).handled
      (by rw [hsite.devNum, hchart]; exact haway.resolve_left (by simp [hv]))
    obtain ⟨hstate', hpend'⟩ := fld_of_engineSide hside hn
    refine ⟨?_, hstate'.trans happly, hpend'.trans hpend, hfre'.trans hfre, Bool.noConfusion, fun _ x hx => ?_⟩
    · rw [engine_of_engineSide hside, hengine]
    · rw [hreport]
      exact hreports hv x hx

/-- At the step root the reports may complete the step, and its outcome returns the engine to idle. -/
theorem rests_advanceReports (hn : n < 8) (step : Nat) : Rests n s (s.advanceReports step) := by
  obtain ⟨u, hsent, heq | ⟨-, w, ratios, heq⟩⟩ := advanceReports_cases s step
  · rw [heq]
    exact .of_engineSide hn hsent.side
  · rw [heq]
    exact (Rests.of_engineSide hn hsent.side).trans (rests_issueOutcome hn w ratios)

theorem exec_updateApplyComplete_state (hon : s.power.on = true) (hn : n < 8) (hstate : s.fld (F.UPD_STAT_STATE n) = 3)
    (hready : s.chart.usesTrust = false ∨ (s.engine n).trusted = true) (hv : (s.engine n).vreq = false) :
    ∃ t, exec (.updateApplyComplete n) s = .next t ∧ t.fld (F.UPD_STAT_STATE n) ∈ [0, 1, 5] := by
  obtain ⟨t, ht, hb⟩ := exec_updateApplyComplete_applies hon hstate hready
  have happly := (applied_applyEngine s n).state
  refine ⟨t, ht, ?_⟩
  rw [hb.fld, hv, if_neg Bool.noConfusion]
  rcases rests_advanceReports (s := s.applyEngine n) hn (s.engine n).handled with hkept | hidle
  · rw [hkept, happly]
    split <;> simp
  · simp [hidle]

end Sys2Proof.Machine
end

section
open Sys2Proof Sys2Proof.Machine

/-- Settles O46: what each of CLIP, pass 1 and the end of apply leaves at its engine, kept by the sends after it; only an
outcome that the step root issues, or the end of the trust barrier, moves the engine on. -/
theorem engineSequence : Obligations.EngineSequence := by
  unfold Obligations.EngineSequence
  refine ⟨fun s gnorm kappa n hon hown hstate hfree => exec_clipMessage_spec hon hown hstate hfree, ?_, ?_, ?_⟩
  · rintro s n passed hon hn hstate htrust huntrusted rfl
    exact exec_trustPassOneComplete_spec hon hn hstate htrust huntrusted
  · rintro s n applied hon hn hstate hready rfl haway
    exact exec_updateApplyComplete_spec hon hn hstate hready haway
  · intro s n hon hn hstate hready hv _
    exact exec_updateApplyComplete_state hon hn hstate hready hv

end

section
/-! SUPPORT. Messages on their way out (R430, R436, R437): what they change of the device, and which ones were originated.
-/

namespace Sys2Proof.Machine

variable {s u v : State} {ms ns : List Msg}

/-- A register that no message on its way out changes: one below the injection's, or the device's number. -/
def OffLink (off : Nat) : Prop := off < 0x14000 ∨ off = 0x18000

/-- From s to u the device originated the messages ms: its ports, the injection on their wires and their registers changed, and
nothing else. -/
structure Messaged (ms : List Msg) (s u : State) : Prop where
  only : ∃ r f k, u = { s with regs := r, fab := f, injSeen := k, sent := s.sent ++ ms }
  rd : ∀ off, OffLink off → u.rd off = s.rd off

theorem Messaged.refl (s : State) : Messaged [] s s :=
  ⟨⟨s.regs, s.fab, s.injSeen, by rw [List.append_nil]⟩, fun _ _ => rfl⟩

theorem Messaged.trans (h : Messaged ms s u) (h' : Messaged ns u v) : Messaged (ms ++ ns) s v := by
  obtain ⟨⟨r, f, k, rfl⟩, hrd⟩ := h
  obtain ⟨⟨r', f', k', rfl⟩, hrd'⟩ := h'
  exact ⟨⟨r', f', k', by rw [← List.append_assoc]⟩, fun off hoff => (hrd' off hoff).trans (hrd off hoff)⟩

/-- A change behind which no message stands. -/
theorem Messaged.quietly (h : Messaged ms s u) (h' : Messaged [] u v) : Messaged ms s v := by simpa using h.trans h'

theorem Messaged.fld (h : Messaged ms s u) {f : Fld} (hoff : OffLink f.off := by simp [OffLink]) : u.fld f = s.fld f := by
  simp only [State.fld, h.rd _ hoff]

theorem Messaged.flag (h : Messaged ms s u) {f : Fld} (hoff : OffLink f.off := by simp [OffLink]) : u.flag f = s.flag f := by
  simp only [State.flag, h.fld hoff]

theorem Messaged.sameSite (h : Messaged ms s u) : SameSite s u := by
  obtain ⟨⟨r, f, k, rfl⟩, hrd⟩ := h
  refine ⟨rfl, fun g hg => ?_⟩
  simp only [State.fld, hrd g.off (.inr hg)]

/-- The rest of the device stays. -/
theorem Messaged.frame (h : Messaged ms s u) : u.mem = s.mem ∧ u.arrs = s.arrs ∧ u.tiles = s.tiles ∧ u.charter = s.charter ∧
    u.job = s.job ∧ u.engines = s.engines ∧ u.fre = s.fre ∧ u.root = s.root ∧ u.sent = s.sent ++ ms := by
  obtain ⟨⟨r, f, k, rfl⟩, -⟩ := h
  exact ⟨rfl, rfl, rfl, rfl, rfl, rfl, rfl, rfl, rfl⟩

theorem Messaged.engine (h : Messaged ms s u) (n : Nat) : u.engine n = s.engine n := by
  obtain ⟨⟨r, f, k, rfl⟩, -⟩ := h
  rfl

theorem messaged_setFld {f : Fld} (k : Nat) (h : ¬ OffLink f.off) : Messaged [] s (s.setFld f k) :=
  ⟨⟨_, s.fab, s.injSeen, by rw [List.append_nil]; rfl⟩, fun _ hoff => rd_wr_other s _ (fun he => h (he ▸ hoff))⟩

theorem messaged_setPair {lo hi : Fld} (k : Nat) (hlo : ¬ OffLink lo.off) (hhi : ¬ OffLink hi.off) :
    Messaged [] s (s.setPair lo hi k) := (messaged_setFld _ hlo).quietly (messaged_setFld _ hhi)

theorem messaged_injSeen (k : Nat) : Messaged [] s { s with injSeen := k } :=
  ⟨⟨s.regs, s.fab, k, by rw [List.append_nil]⟩, fun _ _ => rfl⟩

theorem messaged_fab (f : Fabric) : Messaged [] s { s with fab := f } :=
  ⟨⟨s.regs, f, s.injSeen, by rw [List.append_nil]⟩, fun _ _ => rfl⟩

theorem messaged_inject (point unit sub col acc : Nat) : Messaged [] s (s.inject point unit sub col acc).2 := by
  unfold State.inject
  dsimp only
  split
  · split
    · refine Messaged.quietly ?_ (messaged_injSeen 0)
      refine Messaged.quietly ?_ (messaged_setFld _ (by simp [OffLink]))
      refine Messaged.quietly ?_ (messaged_setPair _ (by simp [OffLink]) (by simp [OffLink]))
      refine Messaged.quietly ?_ (messaged_setFld _ (by simp [OffLink]))
      exact (messaged_setFld _ (by simp [OffLink])).quietly (messaged_setFld _ (by simp [OffLink]))
    · exact messaged_injSeen _
  · exact .refl s

theorem messaged_fillReplay (fuel p : Nat) : Messaged [] s (s.fillReplay fuel p) := by
  induction fuel generalizing s with
  | zero => exact .refl s
  | succ n ih =>
    unfold State.fillReplay
    split
    · exact .refl s
    · next f x _ =>
      split
      · dsimp only
        exact (((messaged_fab _).quietly (messaged_inject 0x0C p 0 0 0)).quietly (messaged_fab _)).quietly ih
      · exact .refl s

theorem messaged_onPort (p : Nat) (m : Msg) : Messaged [] s (s.onPort p m) := by
  refine ((messaged_fab _).quietly (messaged_setPair _ ?_ ?_)).quietly (messaged_fillReplay _ p)
  all_goals
    simp only [OffLink]
    omega

theorem messaged_emit (m : Msg) (own : Bool) : Messaged [] s (s.emit m own) := by
  unfold State.emit State.deliver
  split
  · split
    · exact messaged_fab _
    · exact (messaged_fab _).quietly (messaged_fab _)
  · split
    · exact messaged_onPort _ m
    · exact messaged_fab _

/-- A numbered device originates one message for each that it hands to the fabric, and an unnumbered one none (R448). -/
theorem messaged_sendOn (dest cls stream : Nat) (payload : List Byte) :
    ∃ ms, Messaged ms s (s.sendOn dest cls stream payload) ∧ (s.flag F.FAB_DEVNUM_VALID = true →
      ∃ m : Msg, ms = [m] ∧ m.dest = dest ∧ m.cls = cls ∧ m.payload = payload) := by
  unfold State.sendOn
  split
  · next hnumbered =>
    extract_lets k f m counted sent
    have hsent : Messaged [m] s sent := ⟨⟨_, _, _, rfl⟩, fun _ _ => rfl⟩
    exact ⟨[m], hsent.quietly (messaged_emit m true), fun _ => ⟨m, rfl, rfl, rfl, rfl⟩⟩
  · next hnone => exact ⟨[], .refl s, fun h => absurd h hnone⟩

theorem messaged_sendCtrl (s : State) (dest kind step : Nat) (fields : List Byte) :
    ∃ ms, Messaged ms s (s.sendCtrl dest kind step fields) := (messaged_sendOn ..).imp fun _ h => h.1

theorem messaged_toRoot (s : State) (kind step : Nat) (fields : List Byte) :
    ∃ ms, Messaged ms s (s.toRoot kind step fields) := messaged_sendCtrl ..

theorem messaged_sendFault (s : State) (cls : Nat) (halt : Bool) : ∃ ms, Messaged ms s (s.sendFault cls halt) := messaged_toRoot ..

theorem messaged_toAll (s : State) (kind step : Nat) (fields : List Byte) : ∃ ms, Messaged ms s (s.toAll kind step fields) :=
  forEach_keeps (P := fun u => ∃ ms, Messaged ms s u)
    (fun u d ⟨_, h⟩ => (messaged_sendCtrl u d kind step fields).elim fun _ h' => ⟨_, h.trans h'⟩) _ ⟨[], .refl s⟩

end Sys2Proof.Machine
end

section
/-! SUPPORT. Segments on their way into the reduction tree and out of it (R362 to R373): what a flush of the waiting segments and an
ascent leave.
-/

namespace Sys2Proof.Machine

variable {s t u v : State}

/-! ### Waiting segments (R371, R372) -/

/-- The store once a segment has left it, with a credit of its destination (R371, R372). -/
def Fre.pay (f : Fre) (o : OutSeg) : Fre :=
  { f with gone := f.gone ++ [segKey o.payload],
           credit := store (fun _ => 0) f.credit o.dest (lookup (fun _ => 0) f.credit o.dest - 1) }

@[simp] theorem Fre.pay_credit (f : Fre) (o : OutSeg) (d : Nat) : lookup (fun _ => 0) (f.pay o).credit d =
    if d = o.dest then lookup (fun _ => 0) f.credit o.dest - 1 else lookup (fun _ => 0) f.credit d := lookup_store ..
@[simp] theorem Fre.pay_frame (f : Fre) (o : OutSeg) : (f.pay o).slots = f.slots ∧ (f.pay o).out = f.out ∧
    (f.pay o).full = f.full := ⟨rfl, rfl, rfl⟩

/-- A segment that leaves costs a credit, and is one message of a numbered device. -/
theorem leave_spec (s : State) (o : OutSeg) : (s.leave o).fre = s.fre.pay o ∧ (s.leave o).behindFabric = s.behindFabric ∧
    (s.leave o).flag F.FAB_DEVNUM_VALID = s.flag F.FAB_DEVNUM_VALID ∧
    (s.flag F.FAB_DEVNUM_VALID = true → (s.leave o).sent.length = s.sent.length + 1) := by
  obtain ⟨ms, hsent, hone⟩ := messaged_sendOn (s := { s with fre := s.fre.pay o }) o.dest 1
    (o.stream.getD (leAt o.payload 8 4 % 2 ^ 16)) o.payload
  obtain ⟨-, -, -, -, -, -, hfre, -, hms⟩ := hsent.frame
  refine ⟨hfre, behindFabric_sendOn .., hsent.flag, fun hnumbered => ?_⟩
  obtain ⟨m, rfl, -⟩ := hone hnumbered
  exact (congrArg List.length hms).trans (List.length_append ..)

/-- Waiting segments for a destination. -/
def Fre.waitingFor (f : Fre) (d : Nat) : Nat := (f.out.filter (fun o => o.dest == d)).length

/-- From s to u waiting segments left, each with a credit of its destination and, from a numbered device, in one message. -/
structure SegmentsLeft (s u : State) : Prop where
  slots : u.fre.slots = s.fre.slots
  out : u.fre.out.Sublist s.fre.out
  credit : ∀ d, lookup (fun _ => 0) u.fre.credit d + s.fre.waitingFor d =
    lookup (fun _ => 0) s.fre.credit d + u.fre.waitingFor d
  numbered : u.flag F.FAB_DEVNUM_VALID = s.flag F.FAB_DEVNUM_VALID
  sent : s.flag F.FAB_DEVNUM_VALID = true → u.sent.length + u.fre.out.length = s.sent.length + s.fre.out.length

theorem SegmentsLeft.refl (s : State) : SegmentsLeft s s := ⟨rfl, .refl _, fun _ => rfl, rfl, fun _ => rfl⟩

theorem SegmentsLeft.trans (h : SegmentsLeft s u) (h' : SegmentsLeft u v) : SegmentsLeft s v where
  slots := h'.slots.trans h.slots
  out := h'.out.trans h.out
  credit d := by have := h.credit d; have := h'.credit d; omega
  numbered := h'.numbered.trans h.numbered
  sent hn := (h'.sent (h.numbered.trans hn)).trans (h.sent hn)

/-- A segment that may leave has a credit of its destination to leave with (R372). -/
theorem credit_of_mayLeave {o : OutSeg} (h : s.mayLeave o = true) : 0 < lookup (fun _ => 0) s.fre.credit o.dest :=
  Nat.lt_of_le_of_lt (Nat.zero_le _) (of_decide_eq_true h)

theorem segmentsLeft_leave {o : OutSeg} (hwaits : o ∈ s.fre.out) (hcredit : 0 < lookup (fun _ => 0) s.fre.credit o.dest) :
    SegmentsLeft s (({ s with fre := { s.fre with out := s.fre.out.erase o } } : State).leave o) := by
  obtain ⟨hfre, -, hnumbered, hone⟩ := leave_spec { s with fre := { s.fre with out := s.fre.out.erase o } } o
  have hperm := List.perm_cons_erase hwaits
  refine ⟨congrArg (·.slots) hfre, ?_, fun d => ?_, hnumbered, fun hn => ?_⟩
  · rw [hfre]
    exact List.erase_sublist
  · have hcount := (hperm.filter (fun x => x.dest == d)).length_eq
    simp only [hfre, Fre.waitingFor, Fre.pay_credit, Fre.pay_frame, hcount, List.filter_cons]
    by_cases hd : d = o.dest
    · subst hd
      simp only [if_true, beq_self_eq_true, List.length_cons]
      omega
    · simp only [hd, if_false, beq_eq_false_iff_ne.mpr (Ne.symm hd), Bool.false_eq_true]
  · have hlen := hperm.length_eq
    rw [hone hn, hfre]
    simp only [List.length_cons, Fre.pay_frame] at hlen ⊢
    omega

/-- With a turn for each, the segments that wait on have no turn yet. -/
theorem flushSegments_spec (fuel : Nat) (h : s.fre.out.length ≤ fuel) : SegmentsLeft s (State.flushSegments fuel s) ∧
    ∀ o ∈ (State.flushSegments fuel s).fre.out, (State.flushSegments fuel s).mayLeave o = false := by
  induction fuel generalizing s with
  | zero =>
    refine ⟨.refl s, fun o ho => ?_⟩
    rw [State.flushSegments, List.eq_nil_of_length_eq_zero (Nat.le_zero.mp h)] at ho
    cases ho
  | succ n ih =>
    unfold State.flushSegments
    split
    · next o ho =>
      have hwaits := List.mem_of_find?_eq_some ho
      have hleft := segmentsLeft_leave hwaits (credit_of_mayLeave (List.find?_some ho))
      have hshort : (({ s with fre := { s.fre with out := s.fre.out.erase o } } : State).leave o).fre.out.length ≤ n := by
        obtain ⟨hfre, -⟩ := leave_spec { s with fre := { s.fre with out := s.fre.out.erase o } } o
        have := List.length_erase_of_mem hwaits
        simp only [hfre, Fre.pay_frame]
        omega
      obtain ⟨hrest, hkept⟩ := ih hshort
      exact ⟨hleft.trans hrest, hkept⟩
    · next hnone =>
      exact ⟨.refl s, fun o ho => by simpa using List.find?_eq_none.mp hnone o ho⟩

/-! ### The tree (R362, R364) -/

/-- What an ascent leaves: all but the reduction store, registers and messages, and of the store the full buckets. -/
def State.besideTree (s : State) : (Job × Sparse Byte × Sparse Byte × Sparse Tile × Sparse Arr) × List (Nat × Nat) :=
  (s.behindFabric, s.fre.full)

theorem besideTree_sendSegment (s : State) (dest : Nat) (payload : List Byte) :
    (s.sendSegment dest payload).besideTree = s.besideTree := by
  unfold State.sendSegment
  extract_lets o
  split
  · obtain ⟨hfre, hbehind, -⟩ := leave_spec s o
    exact Prod.ext hbehind (congrArg (·.full) hfre)
  · rfl

theorem besideTree_ascend (fuel : Nat) (s : State) (x : Slot) : (s.ascend fuel x).besideTree = s.besideTree := by
  induction fuel generalizing s x with
  | zero => rfl
  | succ n ih =>
    unfold State.ascend
    extract_lets d h o
    split
    · rfl
    · split
      · exact ih s _
      · split
        · split
          · extract_lets p
            split
            refine (ih _ _).trans ?_
            split <;> rfl
          · rfl
        · refine (besideTree_sendSegment (s.freFlags x.svf x.sat) _ _).trans ?_
          unfold State.freFlags
          dsimp only
          split_ifs <;> rfl

end Sys2Proof.Machine
end

section
/-! SUPPORT. BUCKET_SEND (R362): what the segments of a bucket leave on their way into the tree, and what the command answers.
-/

namespace Sys2Proof.Machine

variable {s t u : State}

/-! ### Answers -/

/-- What a command of act answers hangs on its effect in this state alone. -/
theorem act_congr {f g : State → State} (h : f s = g s) : act s f = act s g := by simp only [act, h]

theorem Became.fre (h : Became s u t) : t.fre = u.fre := congrArg (·.1) h.exchange

/-! ### BUCKET_SEND (R362) -/

/-- From s to u, in a job of one rank, the segments of a bucket entered their trees, of which each is the root. -/
structure SegmentsEntered (step b k : Nat) (s u : State) : Prop where
  charter : u.charter = s.charter
  slots : ∃ new : List Slot, u.fre.slots = s.fre.slots ++ new ∧ new.length = k ∧
    ∀ y ∈ new, y.step = step ∧ y.bucket = b ∧ y.level = 0 ∧ y.own = true

theorem SegmentsEntered.trans {step b k j : Nat} (h : SegmentsEntered step b k s t) (h' : SegmentsEntered step b j t u) :
    SegmentsEntered step b (k + j) s u := by
  obtain ⟨new, hslots, hlen, hnew⟩ := h.slots
  obtain ⟨new', hslots', hlen', hnew'⟩ := h'.slots
  refine ⟨h'.charter.trans h.charter, new ++ new', ?_, by rw [List.length_append, hlen, hlen'], fun y hy => ?_⟩
  · rw [hslots', hslots, List.append_assoc]
  · exact (List.mem_append.mp hy).elim (hnew y) (hnew' y)

/-- A leaf of the only rank is its tree's root (R364). -/
theorem ascend_one (h : s.chart.replicas ≤ 1) (n : Nat) {x : Slot} (hlevel : x.level = 0) (hown : x.own = true) :
    s.ascend (n + 1) x = State.freSlots { s with fre := { s.fre with slots := s.fre.slots ++ [x] } } := by
  have hroot : clog2 s.chart.replicas ≤ x.level := by rw [clog2, if_pos h, hlevel]
  have hx : { x with own := true } = x := by rw [← hown]
  simp only [State.ascend, if_pos hroot, hx]

theorem segmentsEntered_ascend {step b : Nat} (h : s.chart.replicas ≤ 1) (n : Nat) {x : Slot}
    (hx : x.step = step ∧ x.bucket = b ∧ x.level = 0 ∧ x.own = true) : SegmentsEntered step b 1 s (s.ascend (n + 1) x) := by
  rw [ascend_one h n hx.2.2.1 hx.2.2.2]
  refine ⟨rfl, [x], rfl, rfl, fun y hy => ?_⟩
  rw [List.mem_singleton.mp hy]
  exact hx

/-- A segment of a bucket enters its tree (R361, R362). -/
def State.enterSegment (g : Region) (step b : Nat) (svf sat : Bool) (s : State) (q : Nat × Nat × Nat × Nat) : State :=
  s.ascend (clog2 s.chart.replicas + 2)
    { step, bucket := b, shard := q.1, offset := q.2.1, level := 0, svf, sat, own := true,
      vals := (List.range q.2.2.1).map fun i => BitVec.ofNat 32 (leNat (s.memBytes (g.addr + 4 * (q.2.2.2 + i)) 4)) }

theorem sendBucket_eq (s : State) (g : Region) (step b : Nat) : s.sendBucket g step b = forEach (s.bucketSegments b) s
    (State.enterSegment g step b (s.fre.bsvf.contains (step, b)) (s.fre.bsat.contains (step, b))) := (rfl)

theorem segmentsEntered_sendBucket (g : Region) (step b : Nat) (h : s.chart.replicas ≤ 1) :
    SegmentsEntered step b (s.bucketSegments b).length s (s.sendBucket g step b) := by
  rw [sendBucket_eq]
  generalize s.fre.bsvf.contains (step, b) = svf
  generalize s.fre.bsat.contains (step, b) = sat
  generalize s.bucketSegments b = qs
  induction qs generalizing s with
  | nil => exact ⟨rfl, [], (List.append_nil _).symm, rfl, by simp⟩
  | cons q qs ih =>
    have hone : SegmentsEntered step b 1 s (s.enterSegment g step b svf sat q) :=
      segmentsEntered_ascend h _ ⟨rfl, rfl, rfl, rfl⟩
    rw [List.length_cons, Nat.add_comm]
    exact hone.trans (ih (by rwa [State.chart, hone.charter]))

theorem besideTree_sendBucket (s : State) (g : Region) (step b : Nat) : (s.sendBucket g step b).besideTree = s.besideTree := by
  rw [sendBucket_eq]
  exact forEach_keeps (P := fun u : State => u.besideTree = s.besideTree) (fun _ _ h => (besideTree_ascend ..).trans h) _ rfl

/-- Where no command waits on a tile, only the bubble may end with the sending of a bucket (R303, R304). -/
theorem endBufferWait_idle (h : ∀ e ∈ s.tiles, e.2.seqWait = []) : s.endBufferWait = s ∨ s.endBufferWait = s.endBubble := by
  have hrerun : s.rerunAll = s := by
    have hnone : s.tiles.filter (fun e => !e.2.seqWait.isEmpty) = [] :=
      List.filter_eq_nil_iff.mpr fun e he => by simp [h e he]
    rw [State.rerunAll, hnone]
    rfl
  unfold State.endBufferWait
  rw [hrerun]
  dsimp only
  split
  · split
    · exact .inl rfl
    · exact .inr rfl
  · exact .inl rfl

theorem endBubble_keeps (s : State) : s.endBubble.mem = s.mem ∧ s.endBubble.arrs = s.arrs ∧ s.endBubble.fre = s.fre := by
  unfold State.endBubble
  split
  · exact ⟨rfl, rfl, rfl⟩
  · exact ⟨rfl, rfl, rfl⟩

theorem exec_bucketSend_spec {step b : Nat} {rest : List (Nat × Nat)} {g : Region} (hon : s.power.on = true)
    (hfull : s.fre.full = (step, b) :: rest) (hregion : s.region (2 + b2n s.chart.gbuf * (step % 2)) 0xFFFF = some g)
    (hidle : ∀ e ∈ s.tiles, e.2.seqWait = []) :
    ∃ t, exec .bucketSend s = .next t ∧ t.fre.full = rest ∧ t.mem = s.mem ∧ t.arrs = s.arrs ∧
      (s.chart.replicas ≤ 1 → ∃ new : List Slot, t.fre.slots = s.fre.slots ++ new ∧ new.length = (s.bucketSegments b).length ∧
        ∀ y ∈ new, y.step = step ∧ y.bucket = b ∧ y.level = 0 ∧ y.own = true) := by
  have hexec : exec .bucketSend s = act s fun _ =>
      (({ s with fre := { s.fre with full := rest } } : State).sendBucket g step b).endBufferWait := by
    change execBucketSend s = _
    unfold execBucketSend
    refine act_congr ?_
    simp only [hfull, List.head?_cons, Option.bind_some, hregion, List.tail_cons]
  rw [hexec]
  refine act_next hon fun t hb => ?_
  have hkept := besideTree_sendBucket { s with fre := { s.fre with full := rest } } g step b
  have hentered := segmentsEntered_sendBucket (s := { s with fre := { s.fre with full := rest } }) g step b
  generalize ({ s with fre := { s.fre with full := rest } } : State).sendBucket g step b = u at hb hkept hentered
  have htiles : u.tiles = s.tiles := congrArg (·.1.2.2.2.1) hkept
  obtain ⟨hmem, harrs, hfre⟩ : t.mem = u.mem ∧ t.arrs = u.arrs ∧ t.fre = u.fre := by
    obtain ⟨-, hmem, harrs⟩ := hb.units
    have hfre := hb.fre
    rcases endBufferWait_idle (s := u) (by rwa [htiles]) with h | h
    · rw [h] at hmem harrs hfre
      exact ⟨hmem, harrs, hfre⟩
    · rw [h] at hmem harrs hfre
      obtain ⟨hmem', harrs', hfre'⟩ := endBubble_keeps u
      exact ⟨hmem.trans hmem', harrs.trans harrs', hfre.trans hfre'⟩
  refine ⟨?_, hmem.trans (congrArg (·.1.2.1) hkept), harrs.trans (congrArg (·.1.2.2.2.2) hkept), fun hone => ?_⟩
  · rw [hfre]
    exact congrArg (·.2) hkept
  · rw [hfre]
    exact (hentered hone).slots

end Sys2Proof.Machine
end

section
/-! SUPPORT. REDUCTION_SEGMENT (R368, R371, R378, R592): a segment discarded, counted, refused or taken.
-/

namespace Sys2Proof.Machine

variable {s t u : State}

theorem exec_reductionSegment_discarded (hon : s.power.on = true) (hrolling : s.job.rolling.isSome = true) (p : List Byte) :
    exec (.reductionSegment p) s = .next s := by
  change execReductionSegment p s = _
  unfold execReductionSegment
  exact act_eq hon (if_pos hrolling) rfl rfl rfl

theorem fld_recordFault_before (s : State) (cls ukind unit acc : Nat) {f : Fld} (hoff : f.off < 0x13008) :
    (s.recordFault cls ukind unit acc).fld f = s.fld f := by
  have hother := rd_recordFault_other s cls ukind unit acc (o := f.off) (by
    simp only [faultRecordOffs, R.RST_FLTCLS, R.RST_FLTACC_LO, R.RST_FLTACC_HI, R.RST_FLTSTEP_LO, R.RST_FLTSTEP_HI,
      List.mem_cons, List.not_mem_nil, or_false]
    omega)
  simp only [State.fld, hother]

/-- A fault leaves the reduction store, and the registers that stand before its record (R617). -/
theorem raiseFault_keeps (s : State) (cls ukind unit acc : Nat) (halt : Bool) :
    (s.raiseFault cls ukind unit acc halt).fre = s.fre ∧
      ∀ f : Fld, f.off < 0x13008 → (s.raiseFault cls ukind unit acc halt).fld f = s.fld f := by
  have hbefore (f : Fld) (hoff : f.off < 0x13008) := fld_recordFault_before s cls ukind unit acc hoff
  obtain ⟨r, hr⟩ := recordFault_only s cls ukind unit acc
  rw [hr] at hbefore
  unfold State.raiseFault
  rw [hr]
  dsimp only
  split
  · split
    · exact ⟨rfl, hbefore⟩
    · obtain ⟨ms, hsent⟩ := messaged_sendFault
        { s with regs := r, job := { s.job with stopItems := true, fault := some (cls, halt), faultSends := 1 } } cls halt
      obtain ⟨-, -, -, -, -, -, hfre, -⟩ := hsent.frame
      exact ⟨hfre, fun f hoff => (hsent.fld (.inl (by omega))).trans (hbefore f hoff)⟩
  · exact ⟨rfl, hbefore⟩

theorem exec_reductionSegment_crc (hon : s.power.on = true) (hrolling : s.job.rolling = none) (hunarmed : Unarmed s)
    {p : List Byte} (hcrc : leAt p 28 4 ≠ (crc32c (p.take 28 ++ p.drop 32)).toNat) :
    ∃ t, exec (.reductionSegment p) s = .next t ∧ t.fld F.FRE_EVT_CRC = 1 ∧ t.fre = s.fre ∧
      t.fld F.FRE_CNT_CRC_COUNT = satAdd 32 (s.fld F.FRE_CNT_CRC_COUNT) 1 := by
  have hexec : exec (.reductionSegment p) s = act s fun s =>
      ((s.event F.FRE_EVT_CRC).bump F.FRE_CNT_CRC_COUNT 1).raiseFault 0x13 0x7 0 0 false := by
    change execReductionSegment p s = _
    unfold execReductionSegment
    refine act_congr ?_
    simp [hrolling, inject_unarmed hunarmed, hcrc]
  rw [hexec]
  refine act_next hon fun t hb => ?_
  obtain ⟨hfre, hfld⟩ := raiseFault_keeps ((s.event F.FRE_EVT_CRC).bump F.FRE_CNT_CRC_COUNT 1) 0x13 0x7 0 0 false
  refine ⟨?_, hb.fre.trans hfre, ?_⟩
  · rw [hb.fld, hfld _ (by simp), fld_bump_other _ _ _ _ (by simp) (by simp) (by simp),
      fld_event_same _ _ (by simp) (by simp)]
  · refine ((hb.fld _).trans (hfld _ (by simp))).trans ((fld_bump_same _ _ _ (by simp) (by simp)).trans ?_)
    exact congrArg (satAdd 32 · 1) (fld_event_other _ _ _ (by simp) (by simp) (by simp))

/-- The flags of a segment are registers' alone. -/
theorem freFlags_only (s : State) (svf sat : Bool) : ∃ r, s.freFlags svf sat = { s with regs := r } := by
  unfold State.freFlags
  dsimp only
  split_ifs <;> exact ⟨_, rfl⟩

/-- The slot that a message of the reduction class takes (R367, R371). -/
def segmentSlot (p : List Byte) : Slot :=
  { step := leAt p 0 8, bucket := leAt p 20 4, shard := leAt p 8 4, offset := leAt p 12 4, level := leAt p 18 1,
    svf := (leAt p 19 1).testBit 0, sat := (leAt p 19 1).testBit 1, own := false,
    vals := (List.range (leAt p 16 2 + 1)).map fun i => BitVec.ofNat 32 (leAt (p.drop 32) (4 * i) 4) }

/-- A segment takes the slot that is reserved for its sender, or gives it back where its step's outcome was handled (R371, R378). -/
def State.acceptSegment (s : State) (dev : Nat) (p : List Byte) : State :=
  let s := (s.freFlags (segmentSlot p).svf (segmentSlot p).sat).putReserved dev (s.reservedFor dev - 1)
  if (segmentSlot p).step < s.job.handled then s
  else State.freSlots { s with fre := { s.fre with slots := s.fre.slots ++ [segmentSlot p], came := s.fre.came ++ [segKey p] } }

theorem exec_reductionSegment_unreserved (hon : s.power.on = true) (hrolling : s.job.rolling = none) (hunarmed : Unarmed s)
    {p : List Byte} (hcrc : leAt p 28 4 = (crc32c (p.take 28 ++ p.drop 32)).toNat)
    (hnone : s.senderOf (segKey p) = none ∨ (∃ dev, s.senderOf (segKey p) = some dev ∧ s.reservedFor dev = 0) ∨
      segKey p ∈ s.fre.came) : exec (.reductionSegment p) s = .next s := by
  have hrefused : ((s.senderOf (segKey p)).isNone || decide (s.reservedFor ((s.senderOf (segKey p)).getD 0) = 0) ||
      s.fre.came.contains (segKey p)) = true := by
    rcases hnone with h | ⟨dev, h, hzero⟩ | h
    · simp [h]
    · simp [h, hzero]
    · simp [h]
  change execReductionSegment p s = _
  unfold execReductionSegment
  refine act_eq hon (u := s) ?_ rfl rfl rfl
  dsimp only
  rw [if_neg (by simp [hrolling]), inject_unarmed hunarmed, if_neg (by simp [hcrc]), if_pos hrefused]

theorem exec_reductionSegment_reserved (hrolling : s.job.rolling = none) (hunarmed : Unarmed s)
    {p : List Byte} {dev : Nat} (hcrc : leAt p 28 4 = (crc32c (p.take 28 ++ p.drop 32)).toNat)
    (hsender : s.senderOf (segKey p) = some dev) (hreserved : s.reservedFor dev ≠ 0) (hnew : segKey p ∉ s.fre.came)
    (hown : ∀ y ∈ s.fre.slots, y.own = false) :
    exec (.reductionSegment p) s = act s fun s => s.acceptSegment dev p := by
  change execReductionSegment p s = _
  unfold execReductionSegment
  refine act_congr ?_
  dsimp only
  rw [if_neg (by simp [hrolling]), inject_unarmed hunarmed, if_neg (by simp [hcrc]),
    if_neg (by simp [hsender, hreserved, hnew]), hsender]
  unfold State.acceptSegment
  refine ite_congr rfl (fun _ => rfl) fun _ => ?_
  obtain ⟨r, hr⟩ := freFlags_only s (segmentSlot p).svf (segmentSlot p).sat
  have hnone : (s.fre.slots ++ [segmentSlot p]).find? (fun y => y.own && y.level == (segmentSlot p).level &&
      y.step == (segmentSlot p).step && y.shard == (segmentSlot p).shard && y.offset == (segmentSlot p).offset) = none := by
    refine List.find?_eq_none.mpr fun y hy => ?_
    have hforeign : y.own = false := (List.mem_append.mp hy).elim (hown y) fun h => by rw [List.mem_singleton.mp h]; rfl
    simp [hforeign]
  dsimp only [segmentSlot, segKey] at hr hnone ⊢
  rw [hr]
  dsimp only [State.putReserved]
  split
  · next y hy => exact absurd (hy.symm.trans hnone) (by simp)
  · rfl

theorem reservedFor_putReserved (s : State) (dev n : Nat) : (s.putReserved dev n).reservedFor dev = n := lookup_store_same ..

/-- A segment of a step still open is kept with its key; another gives back its slot and nothing else. -/
theorem acceptSegment_spec (s : State) (dev : Nat) (p : List Byte) : (s.acceptSegment dev p).mem = s.mem ∧
    (s.acceptSegment dev p).reservedFor dev = s.reservedFor dev - 1 ∧
    (leAt p 0 8 < s.job.handled → (s.acceptSegment dev p).fre = { s.fre with reserved := (s.acceptSegment dev p).fre.reserved }) ∧
    (s.job.handled ≤ leAt p 0 8 → (s.acceptSegment dev p).fre = { s.fre with
      reserved := (s.acceptSegment dev p).fre.reserved, slots := s.fre.slots ++ [segmentSlot p],
      came := s.fre.came ++ [segKey p] }) := by
  obtain ⟨r, hr⟩ := freFlags_only s (segmentSlot p).svf (segmentSlot p).sat
  unfold State.acceptSegment
  rw [hr]
  dsimp only
  split
  · next hlate => exact ⟨rfl, reservedFor_putReserved .., fun _ => rfl, fun hopen => absurd hlate (Nat.not_lt.mpr hopen)⟩
  · next hopen => exact ⟨rfl, reservedFor_putReserved .., fun hlate => absurd hlate hopen, fun _ => rfl⟩

theorem exec_reductionSegment_taken (hon : s.power.on = true) (hrolling : s.job.rolling = none) (hunarmed : Unarmed s)
    {p : List Byte} {dev : Nat} (hcrc : leAt p 28 4 = (crc32c (p.take 28 ++ p.drop 32)).toNat)
    (hsender : s.senderOf (segKey p) = some dev) (hreserved : s.reservedFor dev ≠ 0) (hnew : segKey p ∉ s.fre.came)
    (hown : ∀ y ∈ s.fre.slots, y.own = false) :
    ∃ t, exec (.reductionSegment p) s = .next t ∧ t.mem = s.mem ∧ t.reservedFor dev = s.reservedFor dev - 1 ∧
      (leAt p 0 8 < s.job.handled → t.fre = { s.fre with reserved := t.fre.reserved }) ∧
      (s.job.handled ≤ leAt p 0 8 → ∃ x : Slot,
        t.fre = { s.fre with reserved := t.fre.reserved, slots := s.fre.slots ++ [x], came := s.fre.came ++ [segKey p] } ∧
        x.own = false ∧ x.step = leAt p 0 8 ∧ x.shard = leAt p 8 4 ∧ x.offset = leAt p 12 4 ∧ x.level = leAt p 18 1 ∧
        x.bucket = leAt p 20 4 ∧ x.vals.length = leAt p 16 2 + 1) := by
  rw [exec_reductionSegment_reserved hrolling hunarmed hcrc hsender hreserved hnew hown]
  refine act_next hon fun t hb => ?_
  obtain ⟨hmem, hless, hlate, hopen⟩ := acceptSegment_spec s dev p
  have hfre := hb.fre
  refine ⟨hb.units.2.1.trans hmem, ?_, fun h => ?_, fun h => ⟨segmentSlot p, ?_, rfl, rfl, rfl, rfl, rfl, rfl, ?_⟩⟩
  · rw [State.reservedFor, hfre]
    exact hless
  · rw [hfre]
    exact hlate h
  · rw [hfre]
    exact hopen h
  · exact (List.length_map ..).trans List.length_range

end Sys2Proof.Machine
end

section
/-! SUPPORT. REDUCTION_CREDIT_GRANT (R371, R372) and SEGMENT_DELIVERY (R342, R373, R376, R378): slots granted, credits that come, and
root segments that leave the store.
-/

namespace Sys2Proof.Machine

variable {s t u : State}

/-! ### REDUCTION_CREDIT_GRANT (R371, R372) -/

/-- The key that a grant is for (R372). -/
def State.dueKey (s : State) (lowest : Bool) : Option (SegKey × Nat) :=
  if lowest then s.segmentsOpen.head?.filter (fun k => s.segmentsDue.head? == some k) else s.segmentsOpen.head?

theorem grantSlot_none {lowest : Bool} (h : s.dueKey lowest = none) (dev : Nat) : s.grantSlot lowest dev = s := by
  unfold State.dueKey at h
  unfold State.grantSlot
  rw [h]

theorem grantSlot_some {lowest : Bool} {k : SegKey} {d : Nat} (h : s.dueKey lowest = some (k, d)) (dev : Nat) :
    s.grantSlot lowest dev = if d = dev ∧ s.slotsUsed + s.reservedAll + (if lowest then 0 else 64) < 2048
      then s.putReserved dev (s.reservedFor dev + 1) else s := by
  unfold State.dueKey at h
  unfold State.grantSlot
  rw [h]
  simp

theorem exec_grant (hon : s.power.on = true) (lowest : Bool) (dev : Nat) :
    exec (.reductionCreditGrant true lowest dev) s = .next (s.grantSlot lowest dev) := by
  have hexec : exec (.reductionCreditGrant true lowest dev) s = act s fun s => s.grantSlot lowest dev := rfl
  obtain ⟨f, hf⟩ : ∃ f, s.grantSlot lowest dev = { s with fre := f } := by
    cases h : s.dueKey lowest with
    | none => exact ⟨s.fre, grantSlot_none h dev⟩
    | some k =>
      rw [grantSlot_some (k := k.1) (d := k.2) h dev]
      split_ifs <;> exact ⟨_, rfl⟩
  rw [hexec, hf]
  exact act_eq hon hf rfl rfl rfl

/-- A credit that arrives is held, or leaves with a waiting segment (R371). -/
theorem exec_credit_spec (hon : s.power.on = true) (lowest : Bool) (dev : Nat) :
    ∃ t, exec (.reductionCreditGrant false lowest dev) s = .next t ∧ t.fre.slots = s.fre.slots ∧
      t.fre.out.Sublist s.fre.out ∧ (∀ o ∈ t.fre.out, t.mayLeave o = false) ∧
      (∀ d, lookup (fun _ => 0) t.fre.credit d + (s.fre.out.filter (fun o => o.dest == d)).length =
        lookup (fun _ => 0) s.fre.credit d + (if d = dev then 1 else 0) + (t.fre.out.filter (fun o => o.dest == d)).length) ∧
      (s.flag F.FAB_DEVNUM_VALID = true → t.sent.length + t.fre.out.length = s.sent.length + s.fre.out.length) := by
  have hexec : exec (.reductionCreditGrant false lowest dev) s = act s fun s => State.flushSegments s.fre.out.length
      { s with fre := { s.fre with credit := store (fun _ => 0) s.fre.credit dev (lookup (fun _ => 0) s.fre.credit dev + 1) } } := rfl
  rw [hexec]
  refine act_next hon fun t hb => ?_
  obtain ⟨hleft, hkept⟩ := flushSegments_spec (s := { s with fre := { s.fre with
    credit := store (fun _ => 0) s.fre.credit dev (lookup (fun _ => 0) s.fre.credit dev + 1) } }) s.fre.out.length le_rfl
  obtain ⟨n, rfl⟩ := hb
  refine ⟨hleft.slots, hleft.out, hkept, fun d => ?_, hleft.sent⟩
  have hcredit := hleft.credit d
  rw [lookup_store] at hcredit
  refine hcredit.trans ?_
  split
  · next hd => rw [hd]; rfl
  · rfl

/-! ### SEGMENT_DELIVERY (R342, R373, R376) -/

/-- What a delivery finds: a root segment of its shard, of which an engine here is the owner. -/
structure Delivers (s : State) (shard offset : Nat) (q : Slot) (x : ShardAt) : Prop where
  root : s.fre.slots.find? (fun y => y.own && y.level == clog2 s.chart.replicas && y.shard == shard && y.offset == offset) = some q
  owner : (s.shardsAt (s.chart.shards.getD shard {}).engine).find? (fun y => y.num == shard) = some x

/-- The engine that owns a shard. -/
def State.ownerOf (s : State) (shard : Nat) : Nat := (s.chart.shards.getD shard {}).engine

theorem exec_segmentDelivery_waits {shard offset : Nat} {q : Slot} {x : ShardAt} (hon : s.power.on = true)
    (h : Delivers s shard offset q x) (hearly : (s.engine (s.ownerOf shard)).handled < q.step) :
    exec (.segmentDelivery shard offset) s = .next s := by
  change execSegmentDelivery shard offset s = _
  unfold execSegmentDelivery
  refine act_eq hon (u := s) ?_ rfl rfl rfl
  dsimp only
  rw [h.root]
  dsimp only
  rw [h.owner]
  exact if_pos hearly

theorem exec_segmentDelivery_discards {shard offset : Nat} {q : Slot} {x : ShardAt} (hon : s.power.on = true)
    (h : Delivers s shard offset q x) (hlate : q.step < (s.engine (s.ownerOf shard)).handled) :
    exec (.segmentDelivery shard offset) s =
      .next { s with fre := { s.fre with slots := s.fre.slots.filter (· != q) } } := by
  change execSegmentDelivery shard offset s = _
  unfold execSegmentDelivery
  refine act_eq hon (u := { s with fre := { s.fre with slots := s.fre.slots.filter (· != q) } }) ?_ rfl rfl rfl
  dsimp only
  rw [h.root]
  dsimp only
  rw [h.owner]
  exact (if_neg (Nat.lt_asymm hlate)).trans (if_pos hlate)

/-- What the store counts and shows of a root segment that leaves it (R373). -/
def State.countRoot (s : State) (q : Slot) : State :=
  let s := (s.freFlags q.svf q.sat).bumpPair F.FRE_CNT_SEG_LO_COUNT F.FRE_CNT_SEG_HI_COUNT 1
  if q.svf then s.bump F.FRE_CNT_SVF_COUNT 1 else s

/-- What the engine shows of a root segment (R356, R373). -/
def State.showRoot (s : State) (n : Nat) (q : Slot) : State :=
  let s := if s.fld (F.UPD_STAT_STATE n) = 0 then s.setFld (F.UPD_STAT_STATE n) 1 else s
  if q.sat then (s.bump (F.UPD_CNT_SAT_COUNT n) 1).event (F.UPD_EVT_SAT n) else s

/-- A root segment's values in its owner's G (R373). -/
def State.bankSegment (s : State) (n : Nat) (x : ShardAt) (offset : Nat) (q : Slot) : State :=
  ((State.countRoot { s with fre := { s.fre with slots := s.fre.slots.filter (· != q) } } q).putMem (x.area 10 + 4 * offset)
    (q.vals.flatMap (fun w => leBytes 4 w.toNat))).showRoot n q

theorem countRoot_only (s : State) (q : Slot) : ∃ r, s.countRoot q = { s with regs := r } := by
  obtain ⟨r, hr⟩ := freFlags_only s q.svf q.sat
  unfold State.countRoot
  rw [hr]
  dsimp only
  split <;> exact ⟨_, rfl⟩

theorem showRoot_only (s : State) (n : Nat) (q : Slot) : ∃ r, s.showRoot n q = { s with regs := r } := by
  obtain ⟨r, hr⟩ : ∃ r, (if s.fld (F.UPD_STAT_STATE n) = 0 then s.setFld (F.UPD_STAT_STATE n) 1 else s) =
      { s with regs := r } := by split <;> exact ⟨_, rfl⟩
  unfold State.showRoot
  rw [hr]
  dsimp only
  split <;> exact ⟨_, rfl⟩

theorem bankSegment_only (s : State) (n : Nat) (x : ShardAt) (offset : Nat) (q : Slot) :
    ∃ r, s.bankSegment n x offset q = { s with
      fre := { s.fre with slots := s.fre.slots.filter (· != q) }, regs := r,
      mem := (s.putMem (x.area 10 + 4 * offset) (q.vals.flatMap (fun w => leBytes 4 w.toNat))).mem } := by
  obtain ⟨r, hr⟩ := countRoot_only { s with fre := { s.fre with slots := s.fre.slots.filter (· != q) } } q
  unfold State.bankSegment
  rw [hr]
  obtain ⟨r', hr'⟩ := showRoot_only (State.putMem { s with
    fre := { s.fre with slots := s.fre.slots.filter (· != q) }, regs := r } (x.area 10 + 4 * offset)
    (q.vals.flatMap (fun w => leBytes 4 w.toNat))) n q
  exact ⟨r', hr'⟩

/-- The first special value of a step asks the step root for a veto (R376). -/
def State.askVeto (s : State) (n shard : Nat) (q : Slot) : State :=
  let e := s.engine n
  if q.svf && !e.vreq then
    ((s.putEngine n { e with vreq := true }).event F.FRE_EVT_VREQ).toRoot 0x05 q.step
      (leBytes 1 1 ++ zeros 3 ++ leBytes 4 shard ++ leBytes 2 s.devNum ++ zeros 2)
  else s

/-- Elements of a shard that its engine has in G. -/
def State.gotOf (s : State) (n shard : Nat) : Nat := lookup (fun _ => 0) (s.engine n).got shard

/-- Elements of a shard counted (R342). -/
def State.countGot (s : State) (n shard k : Nat) : State :=
  s.putEngine n { s.engine n with got := store (fun _ => 0) (s.engine n).got shard (s.gotOf n shard + k) }

theorem gotOf_congr {n : Nat} (h : (u.engine n).got = (s.engine n).got) (shard : Nat) : u.gotOf n shard = s.gotOf n shard := by
  rw [State.gotOf, h, State.gotOf]

theorem askVeto_keeps (s : State) (n shard : Nat) (q : Slot) : (s.askVeto n shard q).fre = s.fre ∧
    (s.askVeto n shard q).mem = s.mem ∧ (s.askVeto n shard q).gotOf n shard = s.gotOf n shard := by
  unfold State.askVeto
  dsimp only
  split
  · obtain ⟨ms, hsent⟩ := messaged_toRoot ((s.putEngine n { s.engine n with vreq := true }).event F.FRE_EVT_VREQ) 0x05 q.step
      (leBytes 1 1 ++ zeros 3 ++ leBytes 4 shard ++ leBytes 2 s.devNum ++ zeros 2)
    obtain ⟨hmem, -, -, -, -, -, hfre, -⟩ := hsent.frame
    have hengine := (hsent.engine n).trans (engine_putEngine_same s n { s.engine n with vreq := true })
    have hgot := congrArg Engine.got hengine
    exact ⟨hfre, hmem, gotOf_congr hgot shard⟩
  · exact ⟨rfl, rfl, rfl⟩

theorem gotOf_countGot (s : State) (n shard k : Nat) : (s.countGot n shard k).gotOf n shard = s.gotOf n shard + k := by
  unfold State.countGot
  rw [State.gotOf, engine_putEngine_same]
  exact lookup_store_same ..

/-- A segment of the engine's own step goes into G, and short of the shard's last element nothing starts (R342, R373, R376). -/
theorem exec_segmentDelivery_stores {shard offset : Nat} {q : Slot} {x : ShardAt} (hon : s.power.on = true)
    (h : Delivers s shard offset q x) (hnow : q.step = (s.engine (s.ownerOf shard)).handled)
    (hshort : s.gotOf (s.ownerOf shard) shard + q.vals.length ≠ x.shard.length) :
    ∃ t, exec (.segmentDelivery shard offset) s = .next t ∧ t.fre.slots = s.fre.slots.filter (· != q) ∧
      t.gotOf (s.ownerOf shard) shard = s.gotOf (s.ownerOf shard) shard + q.vals.length ∧
      t.mem = (s.putMem (x.area 10 + 4 * offset) (q.vals.flatMap (fun w => leBytes 4 w.toNat))).mem := by
  obtain ⟨r, hbanked⟩ := bankSegment_only s (s.ownerOf shard) x offset q
  obtain ⟨hfre, hmem, hgot⟩ := askVeto_keeps (s.bankSegment (s.ownerOf shard) x offset q) (s.ownerOf shard) shard q
  have hgot' : (s.bankSegment (s.ownerOf shard) x offset q).gotOf (s.ownerOf shard) shard = s.gotOf (s.ownerOf shard) shard := by
    rw [hbanked]
    rfl
  have hexec : exec (.segmentDelivery shard offset) s = act s fun s =>
      ((s.bankSegment (s.ownerOf shard) x offset q).askVeto (s.ownerOf shard) shard q).countGot (s.ownerOf shard) shard
        q.vals.length := by
    change execSegmentDelivery shard offset s = _
    unfold execSegmentDelivery
    refine act_congr ?_
    dsimp only
    rw [h.root]
    dsimp only
    rw [h.owner]
    refine (if_neg hnow.not_gt).trans ((if_neg hnow.not_lt).trans (if_neg ?_))
    exact fun he => hshort ((congrArg (· + q.vals.length) (hgot.trans hgot')).symm.trans he)
  rw [hexec]
  refine act_next hon fun t hb => ⟨?_, ?_, hb.units.2.1.trans (hmem.trans (congrArg (·.mem) hbanked))⟩
  · exact congrArg (·.slots) (hb.fre.trans (hfre.trans (congrArg (·.fre) hbanked)))
  · rw [← hgot', ← hgot, ← gotOf_countGot, State.gotOf, hb.engine]
    rfl

end Sys2Proof.Machine
end

section
/-! The reduction tree's segments (R362, R368, R371 to R373, R378, R592) settled.
-/

open Sys2Proof Sys2Proof.Machine

/-- Settles O45: what each command of the reduction store answers, the flush of the waiting segments by induction on their number. -/
theorem reductionSegments : Obligations.ReductionSegments := by
  unfold Obligations.ReductionSegments
  refine ⟨?_, fun s p hon hrolling => exec_reductionSegment_discarded hon hrolling p, ?_, ?_, ?_, ?_⟩
  · intro s step b rest g hon hfull hregion hidle
    exact exec_bucketSend_spec hon hfull hregion hidle
  · intro s p hon hrolling hunarmed
    exact ⟨exec_reductionSegment_crc hon hrolling hunarmed, exec_reductionSegment_unreserved hon hrolling hunarmed,
      fun dev => exec_reductionSegment_taken hon hrolling hunarmed⟩
  · rintro s shard offset h q x hon hroot howner rfl
    have hdelivers : Delivers s shard offset q x := ⟨hroot, howner⟩
    exact ⟨exec_segmentDelivery_waits hon hdelivers, exec_segmentDelivery_discards hon hdelivers,
      exec_segmentDelivery_stores hon hdelivers⟩
  · rintro s lowest dev due hon rfl
    refine ⟨fun hnone => ?_, fun k d hsome => ?_⟩
    · rw [exec_grant hon, grantSlot_none hnone]
    · rw [exec_grant hon, grantSlot_some hsome]
  · exact fun s lowest dev hon => exec_credit_spec hon lowest dev

end

section
/-! SUPPORT. PARAMETER_MESSAGE (R380, R383, R592): what returned values leave of the device, and where one of them goes.
-/

namespace Sys2Proof.Machine

variable {s t u v : State}

/-! ### What returned values leave (R383) -/

/-- From s to u returned values were placed: registers, memories and arrays changed, and of the job what it counts of the return. -/
def ValuesPlaced (s u : State) : Prop := ∃ r m ts as a mn,
  u = { s with regs := r, mem := m, tstore := ts, arrs := as, job := { s.job with arrived := a, memNew := mn } }

theorem ValuesPlaced.refl (s : State) : ValuesPlaced s s := ⟨s.regs, s.mem, s.tstore, s.arrs, s.job.arrived, s.job.memNew, rfl⟩

theorem ValuesPlaced.trans (h : ValuesPlaced s u) (h' : ValuesPlaced u v) : ValuesPlaced s v := by
  obtain ⟨r, m, ts, as, a, mn, rfl⟩ := h
  obtain ⟨r', m', ts', as', a', mn', rfl⟩ := h'
  exact ⟨r', m', ts', as', a', mn', rfl⟩

theorem ValuesPlaced.root (h : ValuesPlaced s u) : u.root = s.root := by
  obtain ⟨r, m, ts, as, a, mn, rfl⟩ := h
  rfl

theorem ValuesPlaced.ite {c : Prop} [Decidable c] (h : ValuesPlaced s u) (h' : ValuesPlaced s v) :
    ValuesPlaced s (if c then u else v) := by split <;> assumption

theorem ValuesPlaced.of_regs {r : Sparse W32} (h : u = { s with regs := r }) : ValuesPlaced s u :=
  ⟨r, s.mem, s.tstore, s.arrs, s.job.arrived, s.job.memNew, h⟩

theorem valuesPlaced_putMem (a : Nat) (bs : List Byte) : ValuesPlaced s (s.putMem a bs) :=
  ⟨s.regs, _, s.tstore, s.arrs, s.job.arrived, s.job.memNew, rfl⟩

theorem valuesPlaced_putArr (x a : Nat) (y : Arr) : ValuesPlaced s (s.putArr x a y) :=
  ⟨s.regs, s.mem, s.tstore, _, s.job.arrived, s.job.memNew, rfl⟩

theorem valuesPlaced_job (a : Sparse Nat) (mn : Sparse (Option W16)) :
    ValuesPlaced s { s with job := { s.job with arrived := a, memNew := mn } } := ⟨s.regs, s.mem, s.tstore, s.arrs, a, mn, rfl⟩

theorem valuesPlaced_copyMark (x a b version : Nat) : ValuesPlaced s (s.copyMark x a b version) :=
  (valuesPlaced_putArr x a _).trans (.of_regs rfl)

theorem valuesPlaced_copyComplete (p : Placement) (step : Nat) : ValuesPlaced s (s.copyComplete p step) := by
  unfold State.copyComplete
  extract_lets x a job counted marked
  have hcounted : ValuesPlaced s counted := valuesPlaced_job _ _
  have hmarked : ValuesPlaced s marked := hcounted.trans ((valuesPlaced_copyMark ..).trans (valuesPlaced_copyMark ..))
  exact .ite (.ite (hmarked.trans ((valuesPlaced_putArr ..).trans (.of_regs rfl))) hmarked)
    (hcounted.trans (valuesPlaced_copyMark ..))

theorem valuesPlaced_putParam (param : Nat) (w : W16) : ValuesPlaced s (s.putParam param w) := by
  unfold State.putParam State.putPlace
  split
  · dsimp only
    split
    · exact ⟨s.regs, s.mem, _, s.arrs, s.job.arrived, s.job.memNew, rfl⟩
    · exact valuesPlaced_putMem ..
  · exact .refl s

/-- A returned weight in a bank's digital copy (R160). -/
def State.putWeight (s : State) (p : Placement) (param : Nat) (w : W16) (b : Nat) : State :=
  match s.weightAddr b p param with
  | some a => s.putMem a (leBytes 2 w.toNat)
  | none => s

theorem valuesPlaced_putWeight (p : Placement) (param : Nat) (w : W16) (b : Nat) : ValuesPlaced s (s.putWeight p param w b) := by
  unfold State.putWeight
  split
  · exact valuesPlaced_putMem ..
  · exact .refl s

theorem putWeight_only (p : Placement) (param : Nat) (w : W16) (b : Nat) : ∃ m, s.putWeight p param w b = { s with mem := m } := by
  unfold State.putWeight
  split
  · exact ⟨_, rfl⟩
  · exact ⟨s.mem, rfl⟩

theorem valuesPlaced_returnValue (step param : Nat) (w : W16) : ValuesPlaced s (s.returnValue step param w) := by
  unfold State.returnValue
  split
  · next p _ =>
    extract_lets x put b bank taken stored k count job counted
    have hput (s : State) (b : Nat) : ValuesPlaced s (put s b) := valuesPlaced_putWeight p param w b
    have htaken : ValuesPlaced s taken := valuesPlaced_putArr ..
    have hstored : ValuesPlaced s stored := .ite (htaken.trans ((hput _ 0).trans (hput _ 1))) (htaken.trans (hput _ b))
    have hcounted : ValuesPlaced s counted := hstored.trans (valuesPlaced_job _ _)
    exact .ite (.refl s) (.ite (hcounted.trans (valuesPlaced_copyComplete ..)) hcounted)
  · exact .ite (valuesPlaced_putParam ..) (valuesPlaced_job _ _)

theorem valuesPlaced_deliverParams (p : List Byte) : ValuesPlaced s (s.deliverParams p) :=
  forEach_keeps (P := ValuesPlaced s) (fun _ _ h => h.trans (valuesPlaced_returnValue ..)) _ (.refl s)

/-! ### The command -/

theorem Became.memBytes (h : Became s u t) (a n : Nat) : t.memBytes a n = u.memBytes a n := by
  rw [State.memBytes, h.units.2.1]
  rfl

theorem Became.job (h : Became s u t) : t.job = u.job := by
  obtain ⟨n, rfl⟩ := h
  rfl

theorem Became.arr (h : Became s u t) (x a : Nat) : t.arr x a = u.arr x a := by
  rw [State.arr, h.units.2.2]
  rfl

theorem exec_parameterMessage_discarded (hon : s.power.on = true) (hrolling : s.job.rolling.isSome = true) (p : List Byte) :
    exec (.parameterMessage p) s = .next s := by
  change execParameterMessage p s = _
  unfold execParameterMessage
  exact act_eq hon (if_pos hrolling) rfl rfl rfl

theorem exec_parameterMessage (hrolling : s.job.rolling = none) (p : List Byte) :
    exec (.parameterMessage p) s = act s (fun s => s.deliverParams p) := by
  change execParameterMessage p s = _
  unfold execParameterMessage
  exact act_congr (if_neg (by simp [hrolling]))

theorem exec_parameterMessage_frame (hon : s.power.on = true) (hrolling : s.job.rolling = none) (p : List Byte) :
    ∃ t, exec (.parameterMessage p) s = .next t ∧ t.job = { s.job with arrived := t.job.arrived, memNew := t.job.memNew } ∧
      t.engines = s.engines ∧ t.sent = s.sent := by
  rw [exec_parameterMessage hrolling]
  refine act_next hon fun t hb => ?_
  obtain ⟨r, m, ts, as, a, mn, hu⟩ := valuesPlaced_deliverParams (s := s) p
  rw [hu] at hb
  obtain ⟨n, rfl⟩ := hb
  exact ⟨rfl, rfl, rfl⟩

/-- A message of one value (R382). -/
theorem deliverParams_one {p : List Byte} (h : leAt p 16 2 = 0) (s : State) : s.deliverParams p = s.returnValue (leAt p 0 8)
    ((s.chart.shards.getD (leAt p 8 4) {}).first + leAt p 12 4) (BitVec.ofNat 16 (leAt p 32 2)) := by
  unfold State.deliverParams
  rw [h]
  rfl

/-- The placement that holds a parameter of this stage (R399). -/
def State.holderOf (s : State) (param : Nat) : Option Placement :=
  s.chart.arrays.find? (fun q => q.stage == s.stage && decide (q.pbase ≤ param) && decide (param < q.pbase + q.rows * q.cols))

theorem returnValue_refused {p : Placement} {step param : Nat} (hholder : s.holderOf param = some p)
    (hrefused : s.copyTakes p (s.targetBank p.tile p.array step) step = false) (w : W16) : s.returnValue step param w = s := by
  unfold State.holderOf at hholder
  unfold State.returnValue
  rw [hholder]
  exact if_pos (by rw [hrefused]; rfl)

/-- The copy awaits the rest of the return from its first value on (R383). -/
def State.awaitWeights (s : State) (p : Placement) (b : Nat) : State :=
  s.putArr p.tile p.array ((s.arr p.tile p.array).setBank b { (s.arr p.tile p.array).bank b with awaited := true })

/-- A weight that the copy takes, counted among those that have come (R383). -/
def State.takeWeight (s : State) (p : Placement) (param : Nat) (w : W16) (b : Nat) : State :=
  let k := 8 * p.tile + p.array
  let s := (s.awaitWeights p b).putWeight p param w b
  { s with job := { s.job with arrived := store (fun _ => 0) s.job.arrived k (lookup (fun _ => 0) s.job.arrived k + 1) } }

/-- Past start-up a returned weight goes into one copy, and the last one completes it (R383). -/
theorem returnValue_taken {p : Placement} {step param : Nat} (hholder : s.holderOf param = some p)
    (htakes : s.copyTakes p (s.targetBank p.tile p.array step) step = true) (hstart : (s.arr p.tile p.array).startup = false)
    (w : W16) : s.returnValue step param w =
      if p.rows * p.cols ≤ lookup (fun _ => 0) s.job.arrived (8 * p.tile + p.array) + 1
        then (s.takeWeight p param w (s.targetBank p.tile p.array step)).copyComplete p step
        else s.takeWeight p param w (s.targetBank p.tile p.array step) := by
  unfold State.holderOf at hholder
  unfold State.returnValue
  rw [hholder]
  dsimp only
  generalize s.targetBank p.tile p.array step = b at htakes ⊢
  have hjob : ((s.awaitWeights p b).putWeight p param w b).job = s.job := by
    obtain ⟨m, hm⟩ := putWeight_only (s := s.awaitWeights p b) p param w b
    rw [hm]
    rfl
  rw [if_neg (by rw [htakes]; simp), hstart, ← hjob]
  rfl

/-- What the device holds once a weight has come, beside the copy: where it stands, and the array as it awaits the rest. -/
theorem takeWeight_only (p : Placement) (param : Nat) (w : W16) (b : Nat) : ∃ m a, s.takeWeight p param w b =
    { s with arrs := (s.awaitWeights p b).arrs, mem := m, job := { s.job with arrived := a } } := by
  obtain ⟨m, hm⟩ := putWeight_only (s := s.awaitWeights p b) p param w b
  unfold State.takeWeight
  rw [hm]
  exact ⟨m, _, rfl⟩

theorem memBytes_takeWeight {p : Placement} {param b a : Nat} (haddr : s.weightAddr b p param = some a) (w : W16) :
    (s.takeWeight p param w b).memBytes a 2 = leBytes 2 w.toNat := by
  have hput : (s.awaitWeights p b).putWeight p param w b = (s.awaitWeights p b).putMem a (leBytes 2 w.toNat) := by
    have haddr' : (s.awaitWeights p b).weightAddr b p param = some a := haddr
    rw [State.putWeight, haddr']
  unfold State.takeWeight
  rw [hput]
  exact memBytes_putMem _ _ _

theorem startup_awaitWeights (p : Placement) (b : Nat) :
    ((s.awaitWeights p b).arr p.tile p.array).startup = (s.arr p.tile p.array).startup := by
  rw [State.awaitWeights, arr_putArr, Arr.setBank]
  split <;> rfl

/-- A copy that is complete holds its step's values (R160, R166). -/
theorem copyMark_spec (x a b version : Nat) : (s.copyMark x a b version).mem = s.mem ∧
    (((s.copyMark x a b version).arr x a).bank b).copied = true ∧
    (((s.copyMark x a b version).arr x a).bank b).awaited = false ∧
    (((s.copyMark x a b version).arr x a).bank b).version = version := by
  have hbank : ((s.copyMark x a b version).arr x a).bank b =
      { (s.arr x a).bank b with copied := true, version, fresh := true, awaited := false, imaged := false } := by
    have harr : (s.copyMark x a b version).arr x a = (s.arr x a).setBank b
        { (s.arr x a).bank b with copied := true, version, fresh := true, awaited := false, imaged := false } := arr_putArr ..
    rw [harr, bank_setBank]
  rw [hbank]
  exact ⟨rfl, rfl, rfl, rfl⟩

theorem copyComplete_past {p : Placement} (hstart : (s.arr p.tile p.array).startup = false) (step : Nat) :
    s.copyComplete p step = State.copyMark
      { s with job := { s.job with arrived := store (fun _ => 0) s.job.arrived (8 * p.tile + p.array) 0 } } p.tile p.array
      (s.targetBank p.tile p.array step) (step % 2 ^ 32) := by
  unfold State.copyComplete
  exact if_neg (fun h => Bool.noConfusion (hstart.symm.trans h))

/-- A value that no array holds waits for the swap, but for those that the job starts with (R180, R383). -/
theorem returnValue_waits {step param : Nat} (hnone : s.holderOf param = none)
    (hlater : (if s.job.running then s.job.first else s.step) < (step + 1) % 2 ^ 64) (w : W16) : s.returnValue step param w =
      { s with job := { s.job with memNew := store (fun _ => none) s.job.memNew (2 ^ 48 * (step % 2) + param) (some w) } } := by
  unfold State.holderOf at hnone
  unfold State.returnValue
  rw [hnone]
  exact if_neg (Nat.not_le.mpr hlater)

theorem leBytes_ofNat (n : Nat) : leBytes 2 (BitVec.ofNat 16 n).toNat = leBytes 2 n := by
  have hlow : BitVec.ofNat 8 (n % 2 ^ 16) = BitVec.ofNat 8 n :=
    BitVec.eq_of_toNat_eq (by simp only [BitVec.toNat_ofNat]; omega)
  have hhigh : BitVec.ofNat 8 (n % 2 ^ 16 / 256) = BitVec.ofNat 8 (n / 256) :=
    BitVec.eq_of_toNat_eq (by simp only [BitVec.toNat_ofNat]; omega)
  rw [BitVec.toNat_ofNat]
  simp only [leBytes, hlow, hhigh]

/-- The last weight of a copy completes it, in the bank that takes its step's values. -/
theorem copyComplete_takeWeight {pl : Placement} {step b : Nat} (hb : b = s.targetBank pl.tile pl.array step)
    (hstart : (s.arr pl.tile pl.array).startup = false) (param : Nat) (w : W16) :
    ∃ u, (s.takeWeight pl param w b).copyComplete pl step = State.copyMark u pl.tile pl.array b (step % 2 ^ 32) ∧
      u.mem = (s.takeWeight pl param w b).mem := by
  obtain ⟨m, a, htake⟩ := takeWeight_only (s := s) pl param w b
  have hstart' : ((s.takeWeight pl param w b).arr pl.tile pl.array).startup = false := by
    rw [htake]
    exact (startup_awaitWeights pl b).trans hstart
  have hbank : (s.takeWeight pl param w b).targetBank pl.tile pl.array step = b := by
    rw [htake]
    exact hb.symm
  have hmark := copyComplete_past hstart' step
  rw [hbank] at hmark
  exact ⟨_, hmark, rfl⟩

theorem exec_parameterMessage_taken {p : List Byte} {pl : Placement} {step param b : Nat} (hon : s.power.on = true)
    (hrolling : s.job.rolling = none) (hone : leAt p 16 2 = 0) (hstep : step = leAt p 0 8)
    (hparam : param = (s.chart.shards.getD (leAt p 8 4) {}).first + leAt p 12 4) (hholder : s.holderOf param = some pl)
    (hb : b = s.targetBank pl.tile pl.array step) (htakes : s.copyTakes pl b step = true)
    (hstart : (s.arr pl.tile pl.array).startup = false) : ∃ t, exec (.parameterMessage p) s = .next t ∧
      (∀ a, s.weightAddr b pl param = some a → t.memBytes a 2 = leBytes 2 (leAt p 32 2)) ∧
      (pl.rows * pl.cols ≤ lookup (fun _ => 0) s.job.arrived (8 * pl.tile + pl.array) + 1 →
        ((t.arr pl.tile pl.array).bank b).copied = true ∧ ((t.arr pl.tile pl.array).bank b).awaited = false ∧
        ((t.arr pl.tile pl.array).bank b).version = step % 2 ^ 32) := by
  have hmem {a : Nat} (haddr : s.weightAddr b pl param = some a) := memBytes_takeWeight haddr (BitVec.ofNat 16 (leAt p 32 2))
  rw [leBytes_ofNat] at hmem
  have heffect := returnValue_taken hholder (hb ▸ htakes) hstart (BitVec.ofNat 16 (leAt p 32 2))
  rw [exec_parameterMessage hrolling]
  refine act_next hon fun t ht => ?_
  rw [deliverParams_one hone, ← hstep, ← hparam, heffect, ← hb] at ht
  simp only [ht.memBytes, ht.arr]
  split
  · obtain ⟨u, hu, humem⟩ := copyComplete_takeWeight hb hstart param (BitVec.ofNat 16 (leAt p 32 2))
    obtain ⟨hkept, hbank⟩ := copyMark_spec (s := u) pl.tile pl.array b (step % 2 ^ 32)
    rw [hu]
    refine ⟨fun a haddr => ?_, fun _ => hbank⟩
    rw [State.memBytes, hkept, humem]
    exact hmem haddr
  · next hmore => exact ⟨fun a => hmem, fun hlast => absurd hlast hmore⟩

theorem exec_parameterMessage_refused {p : List Byte} {pl : Placement} {step param : Nat} (hon : s.power.on = true)
    (hrolling : s.job.rolling = none) (hone : leAt p 16 2 = 0) (hstep : step = leAt p 0 8)
    (hparam : param = (s.chart.shards.getD (leAt p 8 4) {}).first + leAt p 12 4) (hholder : s.holderOf param = some pl)
    (hrefused : s.copyTakes pl (s.targetBank pl.tile pl.array step) step = false) :
    exec (.parameterMessage p) s = .next s := by
  rw [exec_parameterMessage hrolling]
  refine act_eq hon ?_ rfl rfl rfl
  rw [deliverParams_one hone, ← hstep, ← hparam]
  exact returnValue_refused hholder hrefused _

theorem exec_parameterMessage_waits {p : List Byte} {step param : Nat} (hon : s.power.on = true)
    (hrolling : s.job.rolling = none) (hone : leAt p 16 2 = 0) (hstep : step = leAt p 0 8)
    (hparam : param = (s.chart.shards.getD (leAt p 8 4) {}).first + leAt p 12 4) (hnone : s.holderOf param = none)
    (hlater : (if s.job.running then s.job.first else s.step) < (step + 1) % 2 ^ 64) :
    ∃ t, exec (.parameterMessage p) s = .next t ∧ t.mem = s.mem ∧ t.arrs = s.arrs ∧
      lookup (fun _ => none) t.job.memNew (2 ^ 48 * (step % 2) + param) = some (BitVec.ofNat 16 (leAt p 32 2)) := by
  rw [exec_parameterMessage hrolling]
  refine act_next hon fun t ht => ?_
  rw [deliverParams_one hone, ← hstep, ← hparam, returnValue_waits hnone hlater] at ht
  obtain ⟨-, hmem, harrs⟩ := ht.units
  refine ⟨hmem, harrs, ?_⟩
  rw [ht.job]
  dsimp only
  exact lookup_store_same ..

end Sys2Proof.Machine
end

section
/-! SUPPORT. The READY exchange (R407, R408, R415): what a job's start leaves of the step root's state, and what the root makes of
the READYs that it has received.
-/

namespace Sys2Proof.Machine

variable {s t u v : State}

/-! ### A job's start (R407) -/

section
variable (s)

@[simp] theorem root_sendOn (dest cls stream : Nat) (payload : List Byte) : (s.sendOn dest cls stream payload).root = s.root := by
  obtain ⟨ms, hsent, -⟩ := messaged_sendOn (s := s) dest cls stream payload
  obtain ⟨-, -, -, -, -, -, -, hroot, -⟩ := hsent.frame
  exact hroot
@[simp] theorem root_deliverParams (p : List Byte) : (s.deliverParams p).root = s.root :=
  (valuesPlaced_deliverParams (s := s) p).root
theorem root_forEach {α : Type} {f : State → α → State} (h : ∀ t x, (f t x).root = t.root) (xs : List α) :
    (forEach xs s f).root = s.root :=
  forEach_keeps (P := fun u : State => u.root = s.root) (fun t x ht => (h t x).trans ht) xs rfl
@[simp] theorem root_returnParams (n : Nat) : (s.returnParams n).root = s.root := by
  unfold State.returnParams
  refine root_forEach s (fun t x => ?_) _
  refine root_forEach t (fun u i => ?_) _
  refine root_forEach u (fun v r => ?_) _
  split
  · exact root_deliverParams ..
  · exact root_sendOn ..
@[simp] theorem root_halIrq (h : Nat) : (s.halIrq h).root = s.root := by simp [State.halIrq]
@[simp] theorem root_writeCompletion (h : Nat) (c : HeldCpl) : (s.writeCompletion h c).root = s.root := by
  unfold State.writeCompletion State.putHalyard
  dsimp only
  split <;> simp
@[simp] theorem root_releaseHeld (fuel h : Nat) : (s.releaseHeld fuel h).root = s.root := by
  induction fuel generalizing s with
  | zero => rfl
  | succ n ih =>
    unfold State.releaseHeld State.putHalyard
    dsimp only
    split
    · simp
    · split_ifs <;> simp [ih]
@[simp] theorem root_raiseCompletion (h : Nat) (c : HeldCpl) : (s.raiseCompletion h c).root = s.root := by
  simp [State.raiseCompletion, State.drainHeld, State.putHalyard]
@[simp] theorem root_halStat (h : Nat) : (s.halStat h).root = s.root := by simp [State.halStat]
@[simp] theorem root_countCtx (acc status : Nat) : (s.countCtx acc status).root = s.root := by
  unfold State.countCtx
  dsimp only
  split_ifs <;> simp
@[simp] theorem root_completeWith (acc status nflags : Nat) (n : NumStat) (ref : Nat) :
    (s.completeWith acc status nflags n ref).root = s.root := by
  unfold State.completeWith State.putHalyard
  dsimp only
  split_ifs <;> simp
@[simp] theorem root_grantStart (back : Bool) : (s.grantStart back).root = s.root := by
  unfold State.grantStart
  split <;> simp [State.grantCredit, State.sendCtrl]
@[simp] theorem root_startJob : s.startJob.root = s.root := by
  unfold State.startJob
  split
  · split
    · extract_lets first job started granted job' begun
      have hbegun : begun.root = s.root := by
        dsimp only [begun]
        split
        · simp [granted, started]
        · exact (root_forEach _ (fun t n => root_returnParams t n) _).trans (by simp [granted, started])
      exact (root_completeWith ..).trans hbegun
    · rfl
  · rfl

end

theorem started_readyDone : s.readyDone.root.started = true := by rw [State.readyDone, root_startJob]

/-! ### READYs at the step root (R408, R415) -/

/-- A READY as the root keeps it has its source below its charter's identity and CRC. -/
theorem readyKey_source {source : Nat} (h : source < 2 ^ 16) (id crc : Nat) : readyKey id crc source % 65536 = source := by
  unfold readyKey
  omega

theorem readyKey_inj {id id' crc crc' source : Nat} (hid : id < 2 ^ 64) (hid' : id' < 2 ^ 64)
    (h : readyKey id crc source = readyKey id' crc' source) : id = id' ∧ crc = crc' := by
  unfold readyKey at h
  omega

/-- A READY received (R408). -/
def State.hearReady (s : State) (k : Nat) : State :=
  { s with root := { s.root with ready := if s.root.ready.contains k then s.root.ready else s.root.ready ++ [k] } }

theorem mem_hearReady (s : State) (k j : Nat) : j ∈ (s.hearReady k).root.ready ↔ j = k ∨ j ∈ s.root.ready := by
  unfold State.hearReady
  dsimp only
  split
  · next hheard =>
    refine ⟨.inr, fun h => h.elim (fun he => ?_) id⟩
    rw [he]
    exact List.contains_iff_mem.mp hheard
  · rw [List.mem_append, List.mem_singleton, or_comm]

/-- A READY of the loaded charter (R408). -/
def Charter.isReady (c : Charter) (k : Nat) : Bool := k == readyKey c.id c.crc.toNat (k % 65536)

theorem Charter.isReady_readyKey (c : Charter) {id crc source : Nat} (hsource : source < 2 ^ 16) (hid : id < 2 ^ 64)
    (hc : c.id < 2 ^ 64) : c.isReady (readyKey id crc source) = true ↔ id = c.id ∧ crc = c.crc.toNat := by
  rw [Charter.isReady, readyKey_source hsource, beq_iff_eq]
  exact ⟨readyKey_inj hid hc, fun ⟨h, h'⟩ => by rw [h, h']⟩

/-- The device of a READY that does not match is named, the first of them alone (R415). -/
def State.noteMismatch (s : State) (k : Nat) : State :=
  if s.flag F.HUB_CHSTAT_MISMATCH then s
  else (s.setFlag F.HUB_CHSTAT_MISMATCH true).setFld F.HUB_CHMISDEV_DEV (k % 65536)

theorem noteMismatch_spec (s : State) (k : Nat) : (s.noteMismatch k).fld F.HUB_CHSTAT_MISMATCH = 1 ∧
    (s.noteMismatch k).root = s.root ∧
    (s.fld F.HUB_CHSTAT_MISMATCH = 0 → (s.noteMismatch k).fld F.HUB_CHMISDEV_DEV = k % 65536) := by
  unfold State.noteMismatch
  split
  · next hnoted =>
    have hone : s.fld F.HUB_CHSTAT_MISMATCH = 1 := by simpa [State.flag] using hnoted
    exact ⟨hone, rfl, fun hzero => absurd (hone.symm.trans hzero) (by decide)⟩
  · refine ⟨?_, by simp [State.setFlag], fun _ => ?_⟩
    · rw [fld_setFld_other _ _ _ _ (by decide) (by decide) (.inl (by decide))]
      exact fld_setFld_same _ _ _ (by decide) (by decide)
    · rw [fld_setFld_same _ _ _ (by decide) (by decide)]
      exact Nat.mod_mod ..

/-- The READYs that match are kept, and the first of the others is noted (R408, R415). -/
def State.siftReady (s : State) : State :=
  let noted := match (s.root.ready.filter (fun k => !s.chart.isReady k)).head? with
    | some k => s.noteMismatch k
    | none => s
  { noted with root := { noted.root with ready := noted.root.ready.filter s.chart.isReady } }

theorem siftReady_of_match (h : ∀ k ∈ s.root.ready, s.chart.isReady k = true) : s.siftReady = s := by
  have hnone : s.root.ready.filter (fun k => !s.chart.isReady k) = [] :=
    List.filter_eq_nil_iff.mpr fun k hk => by simp [h k hk]
  unfold State.siftReady
  rw [hnone]
  dsimp only [List.head?_nil]
  rw [List.filter_eq_self.mpr h]

theorem siftReady_of_mismatch {k : Nat} (hk : k ∈ s.root.ready) (hbad : s.chart.isReady k = false) :
    s.siftReady.fld F.HUB_CHSTAT_MISMATCH = 1 ∧ s.siftReady.root.started = s.root.started ∧
    (s.fld F.HUB_CHSTAT_MISMATCH = 0 → s.root.ready = [k] → s.siftReady.fld F.HUB_CHMISDEV_DEV = k % 65536) := by
  have hmem : k ∈ s.root.ready.filter (fun k => !s.chart.isReady k) := List.mem_filter.mpr ⟨hk, by simp [hbad]⟩
  obtain ⟨j, js, hothers⟩ := List.exists_cons_of_ne_nil (List.ne_nil_of_mem hmem)
  obtain ⟨hnoted, hroot, hnamed⟩ := noteMismatch_spec s j
  have hsift : s.siftReady = { s.noteMismatch j with
      root := { (s.noteMismatch j).root with ready := (s.noteMismatch j).root.ready.filter s.chart.isReady } } := by
    unfold State.siftReady
    rw [hothers]
    rfl
  rw [hsift]
  refine ⟨hnoted, congrArg (·.started) hroot, fun hzero hone => ?_⟩
  have hj : j = k := by
    have hjk : j ∈ [k] := hone ▸ (List.mem_filter.mp (hothers ▸ List.mem_cons_self)).1
    exact List.mem_singleton.mp hjk
  exact hj ▸ hnamed hzero

/-- A READY of every device of the job has come (R408). -/
def State.allReady (s : State) : Bool :=
  s.chart.devices.all (fun d => s.siftReady.root.ready.contains (readyKey s.chart.id s.chart.crc.toNat d.device))

theorem readyCheck_eq (hloaded : s.fld F.HUB_CHSTAT_STATE = 2) (hroot : s.devNum = s.chart.stepRoot)
    (hwaits : s.root.started = false) : s.readyCheck =
      if s.siftReady.flag F.HUB_CHSTAT_MISMATCH then s.siftReady
      else if s.allReady then State.readyDone (s.siftReady.toAll 0x08 s.siftReady.step
        (leBytes 8 s.chart.id ++ leBytes 4 s.chart.crc.toNat ++ leBytes 2 s.siftReady.devNum ++ zeros 2))
      else s.siftReady := by
  unfold State.readyCheck
  exact if_neg (by simp [hloaded, hroot, hwaits])


theorem readyCheck_of_mismatch (hloaded : s.fld F.HUB_CHSTAT_STATE = 2) (hroot : s.devNum = s.chart.stepRoot)
    (hwaits : s.root.started = false) {k : Nat} (hk : k ∈ s.root.ready) (hbad : s.chart.isReady k = false) :
    s.readyCheck = s.siftReady := by
  rw [readyCheck_eq hloaded hroot hwaits]
  exact if_pos (by simp [State.flag, (siftReady_of_mismatch hk hbad).1])

/-- With the last READY that matches the exchange is complete (R408). -/
theorem readyCheck_of_all (hloaded : s.fld F.HUB_CHSTAT_STATE = 2) (hroot : s.devNum = s.chart.stepRoot)
    (hwaits : s.root.started = false) (hnone : s.fld F.HUB_CHSTAT_MISMATCH = 0)
    (hmatch : ∀ k ∈ s.root.ready, s.chart.isReady k = true)
    (hall : ∀ d ∈ s.chart.devices, readyKey s.chart.id s.chart.crc.toNat d.device ∈ s.root.ready) :
    s.readyCheck.root.started = true := by
  have hevery : s.allReady = true := by
    rw [State.allReady, siftReady_of_match hmatch]
    exact List.all_eq_true.mpr fun d hd => List.contains_iff_mem.mpr (hall d hd)
  rw [readyCheck_eq hloaded hroot hwaits, if_neg (by simp [siftReady_of_match hmatch, State.flag, hnone]), if_pos hevery]
  exact started_readyDone

/-! ### The command -/

theorem exec_ready_elsewhere (hloaded : s.fld F.HUB_CHSTAT_STATE = 2) (helsewhere : s.devNum ≠ s.chart.stepRoot)
    (id : W64) (crc : W32) (source : Nat) : exec (.ready id crc source) s = act s fun s =>
      if source = s.chart.stepRoot && id.toNat == s.chart.id && crc == s.chart.crc then s.readyDone else s := by
  change execReady id crc source s = _
  unfold execReady
  exact act_congr (if_pos (by simp [hloaded, helsewhere]))

theorem exec_ready_heard (hhere : s.fld F.HUB_CHSTAT_STATE ≠ 2 ∨ s.devNum = s.chart.stepRoot)
    (id : W64) (crc : W32) (source : Nat) : exec (.ready id crc source) s = act s fun s =>
      (s.hearReady (readyKey id.toNat crc.toNat source)).readyCheck := by
  change execReady id crc source s = _
  unfold execReady
  exact act_congr (if_neg (by simpa [imp_iff_not_or] using hhere))

theorem exec_ready_ignored (hon : s.power.on = true) (hloaded : s.fld F.HUB_CHSTAT_STATE = 2)
    (helsewhere : s.devNum ≠ s.chart.stepRoot) {id : W64} {crc : W32} {source : Nat}
    (hother : source ≠ s.chart.stepRoot ∨ id.toNat ≠ s.chart.id ∨ crc ≠ s.chart.crc) :
    exec (.ready id crc source) s = .next s := by
  rw [exec_ready_elsewhere hloaded helsewhere]
  refine act_eq hon (if_neg ?_) rfl rfl rfl
  simp only [Bool.and_eq_true, decide_eq_true_eq, beq_iff_eq]
  tauto

theorem exec_ready_ofRoot (hon : s.power.on = true) (hloaded : s.fld F.HUB_CHSTAT_STATE = 2)
    (helsewhere : s.devNum ≠ s.chart.stepRoot) {id : W64} {crc : W32} {source : Nat}
    (hsource : source = s.chart.stepRoot) (hid : id.toNat = s.chart.id) (hcrc : crc = s.chart.crc) :
    ∃ t, exec (.ready id crc source) s = .next t ∧ t.root.started = true := by
  rw [exec_ready_elsewhere hloaded helsewhere]
  refine act_next hon fun t hb => ?_
  rw [if_pos (by simp [hsource, hid, hcrc])] at hb
  obtain ⟨n, rfl⟩ := hb
  exact started_readyDone

theorem exec_ready_mismatch (hon : s.power.on = true) (hloaded : s.fld F.HUB_CHSTAT_STATE = 2)
    (hroot : s.devNum = s.chart.stepRoot) (hwaits : s.root.started = false) {id : W64} {crc : W32} {source : Nat}
    (hsource : source < 2 ^ 16) (hc : s.chart.id < 2 ^ 64) (hother : id.toNat ≠ s.chart.id ∨ crc ≠ s.chart.crc) :
    ∃ t, exec (.ready id crc source) s = .next t ∧ t.fld F.HUB_CHSTAT_MISMATCH = 1 ∧ t.root.started = false ∧
      (s.fld F.HUB_CHSTAT_MISMATCH = 0 → s.root.ready = [] → t.fld F.HUB_CHMISDEV_DEV = source) := by
  rw [exec_ready_heard (.inr hroot)]
  refine act_next hon fun t hb => ?_
  let k := readyKey id.toNat crc.toNat source
  have hheard : k ∈ (s.hearReady k).root.ready := (mem_hearReady s k k).mpr (.inl rfl)
  have hbad : (s.hearReady k).chart.isReady k = false := by
    refine Bool.eq_false_iff.mpr fun hgood => ?_
    obtain ⟨hid, hcrc⟩ := (s.chart.isReady_readyKey hsource id.isLt hc).mp hgood
    exact hother.elim (fun h => h hid) (fun h => h (BitVec.eq_of_toNat_eq hcrc))
  obtain ⟨hnoted, hstarted, hnamed⟩ := siftReady_of_mismatch hheard hbad
  have hcheck : (s.hearReady k).readyCheck = (s.hearReady k).siftReady :=
    readyCheck_of_mismatch hloaded hroot hwaits hheard hbad
  rw [hcheck] at hb
  obtain ⟨n, rfl⟩ := hb
  refine ⟨hnoted, hstarted.trans hwaits, fun hzero hfirst => ?_⟩
  rw [← readyKey_source hsource id.toNat crc.toNat]
  refine hnamed hzero ?_
  rw [State.hearReady, hfirst]
  rfl

theorem exec_ready_last (hon : s.power.on = true) (hloaded : s.fld F.HUB_CHSTAT_STATE = 2)
    (hroot : s.devNum = s.chart.stepRoot) (hwaits : s.root.started = false) {id : W64} {crc : W32} {source : Nat}
    (hsource : source < 2 ^ 16) (hc : s.chart.id < 2 ^ 64) (hid : id.toNat = s.chart.id) (hcrc : crc = s.chart.crc)
    (hnone : s.fld F.HUB_CHSTAT_MISMATCH = 0)
    (hmatch : ∀ k ∈ s.root.ready, k = readyKey s.chart.id s.chart.crc.toNat (k % 65536))
    (hall : ∀ d ∈ s.chart.devices, d.device = source ∨ readyKey s.chart.id s.chart.crc.toNat d.device ∈ s.root.ready) :
    ∃ t, exec (.ready id crc source) s = .next t ∧ t.root.started = true := by
  rw [exec_ready_heard (.inr hroot)]
  refine act_next hon fun t hb => ?_
  let k := readyKey id.toNat crc.toNat source
  have hmatch' : ∀ j ∈ (s.hearReady k).root.ready, (s.hearReady k).chart.isReady j = true := by
    intro j hj
    rcases (mem_hearReady s k j).mp hj with rfl | hj
    · exact (s.chart.isReady_readyKey hsource id.isLt hc).mpr ⟨hid, congrArg _ hcrc⟩
    · exact beq_iff_eq.mpr (hmatch j hj)
  have hall' : ∀ d ∈ s.chart.devices, readyKey s.chart.id s.chart.crc.toNat d.device ∈ (s.hearReady k).root.ready := by
    intro d hd
    refine (mem_hearReady s k _).mpr ((hall d hd).imp_left fun h => ?_)
    rw [h, ← hid, ← hcrc]
  obtain ⟨n, rfl⟩ := hb
  exact readyCheck_of_all hloaded hroot hwaits hnone hmatch' hall'

theorem exec_ready_early (hon : s.power.on = true) (hearly : s.fld F.HUB_CHSTAT_STATE ≠ 2) (id : W64) (crc : W32)
    (source : Nat) : exec (.ready id crc source) s = .next (s.hearReady (readyKey id.toNat crc.toNat source)) := by
  rw [exec_ready_heard (.inl hearly)]
  have hcheck (u : State) (hu : u.fld F.HUB_CHSTAT_STATE ≠ 2) : u.readyCheck = u := by
    unfold State.readyCheck
    exact if_pos (by simp [hu])
  exact act_eq hon (hcheck _ hearly) rfl rfl rfl

end Sys2Proof.Machine
end

section
/-! SUPPORT. ACTIVATION_MESSAGE (R38, R410, R591): the inbound queues and where their messages stand.
-/

namespace Sys2Proof.Machine

variable {s t u v : State} {back : Bool} {g : Region}

/-! ### Queues in their regions (R410) -/

theorem queueDepths_eq (s : State) : s.queueDepths = setAll s [(F.HUB_QFWD_OUT, min s.job.fout.length 0xFFFF),
    (F.HUB_QFWD_IN, min s.job.fin.length 0xFFFF), (F.HUB_QBWD_OUT, min s.job.bout.length 0xFFFF),
    (F.HUB_QBWD_IN, min s.job.bin.length 0xFFFF)] := rfl

theorem queueDepths_only (s : State) : ∃ r, s.queueDepths = { s with regs := r } := ⟨_, by
  rw [queueDepths_eq]
  exact setAll_only _ s⟩

theorem sameSite_queueDepths (s : State) : SameSite s s.queueDepths :=
  (((sameSite_setFld _ (by decide)).trans (sameSite_setFld _ (by decide))).trans (sameSite_setFld _ (by decide))).trans
    (sameSite_setFld _ (by decide))

theorem min_field (n : Nat) : min n 0xFFFF % 2 ^ 16 = min n 0xFFFF := Nat.mod_eq_of_lt (by omega)

theorem fld_queueDepths_in (s : State) : s.queueDepths.fld F.HUB_QFWD_IN = min s.job.fin.length 0xFFFF ∧
    s.queueDepths.fld F.HUB_QBWD_IN = min s.job.bin.length 0xFFFF := by
  have hset := setAll_same [(F.HUB_QFWD_OUT, min s.job.fout.length 0xFFFF), (F.HUB_QFWD_IN, min s.job.fin.length 0xFFFF),
    (F.HUB_QBWD_OUT, min s.job.bout.length 0xFFFF), (F.HUB_QBWD_IN, min s.job.bin.length 0xFFFF)] s (by simp [Apart])
  rw [queueDepths_eq]
  refine ⟨?_, ?_⟩
  · rw [hset (F.HUB_QFWD_IN, min s.job.fin.length 0xFFFF) (by simp)]
    exact min_field _
  · rw [hset (F.HUB_QBWD_IN, min s.job.bin.length 0xFFFF) (by simp)]
    exact min_field _

theorem putQueue_only (s : State) (kind pos : Nat) (q : List ActMsg) : ∃ m, s.putQueue kind pos q = { s with mem := m } := by
  unfold State.putQueue
  split
  · exact ⟨_, rfl⟩
  · exact ⟨s.mem, rfl⟩

@[simp] theorem job_putQueue (s : State) (kind pos : Nat) (q : List ActMsg) : (s.putQueue kind pos q).job = s.job := by
  obtain ⟨m, hm⟩ := putQueue_only s kind pos q
  rw [hm]

@[simp] theorem fld_putQueue (s : State) (kind pos : Nat) (q : List ActMsg) (f : Fld) :
    (s.putQueue kind pos q).fld f = s.fld f := by
  obtain ⟨m, hm⟩ := putQueue_only s kind pos q
  rw [hm]
  exact fld_congr rfl f

theorem sameSite_putQueue (s : State) (kind pos : Nat) (q : List ActMsg) : SameSite s (s.putQueue kind pos q) := by
  obtain ⟨m, hm⟩ := putQueue_only s kind pos q
  rw [hm]
  exact ⟨rfl, fun _ _ => rfl⟩

theorem memBytes_putQueue {kind pos : Nat} {q : List ActMsg} {b : List Byte} (hregion : s.region kind 0xFFFF = some g)
    (hb : b = (q.flatMap (·.bytes)).take (g.length - pos)) : (s.putQueue kind pos q).memBytes (g.addr + pos) b.length = b := by
  rw [State.putQueue, hregion]
  dsimp only
  rw [← hb]
  exact memBytes_putMem ..

theorem memBytes_putQueue_before {kind pos : Nat} (q : List ActMsg) {a n : Nat} (hregion : s.region kind 0xFFFF = some g)
    (hbefore : a + n ≤ g.addr + pos) : (s.putQueue kind pos q).memBytes a n = s.memBytes a n := by
  rw [State.putQueue, hregion]
  exact readMany_congr fun i _ hi => lookup_writeMany_apart (.inl (by omega))

/-! ### Inbound queues -/

theorem sameSite_job (s : State) (j : Job) : SameSite s { s with job := j } := ⟨rfl, fun _ _ => rfl⟩

/-- An inbound queue replaced (R410). -/
def State.setInbound (s : State) (back : Bool) (q : List ActMsg) : State :=
  ({ s with job := if back then { s.job with bin := q } else { s.job with fin := q } } : State).queueDepths

theorem setInbound_only (s : State) (back : Bool) (q : List ActMsg) : ∃ r, s.setInbound back q =
    { s with regs := r, job := if back then { s.job with bin := q } else { s.job with fin := q } } :=
  (queueDepths_only _).imp fun _ h => h

theorem sameSite_setInbound (s : State) (back : Bool) (q : List ActMsg) : SameSite s (s.setInbound back q) :=
  (sameSite_job s _).trans (sameSite_queueDepths _)

/-- The queue beside which the running item's bytes stand, and the rest of the job stay. -/
theorem setInbound_spec (s : State) (back : Bool) (q : List ActMsg) : (s.setInbound back q).inbound back = q ∧
    (s.setInbound back q).loadedIn back = s.loadedIn back ∧ (s.setInbound back q).job.inLoaded = s.job.inLoaded ∧
    (s.setInbound back q).job =
      { s.job with fin := (s.setInbound back q).job.fin, bin := (s.setInbound back q).job.bin } := by
  obtain ⟨r, hr⟩ := setInbound_only s back q
  rw [hr]
  cases back
  · exact ⟨rfl, rfl, rfl, rfl⟩
  · exact ⟨rfl, rfl, rfl, rfl⟩

theorem fld_setInbound (s : State) (back : Bool) (q : List ActMsg) :
    (s.setInbound back q).fld F.HUB_QFWD_IN = min (s.setInbound back q).job.fin.length 0xFFFF ∧
    (s.setInbound back q).fld F.HUB_QBWD_IN = min (s.setInbound back q).job.bin.length 0xFFFF := by
  have hjob : (s.setInbound back q).job = if back then { s.job with bin := q } else { s.job with fin := q } := by
    obtain ⟨r, hr⟩ := setInbound_only s back q
    rw [hr]
  rw [hjob]
  exact fld_queueDepths_in _

/-- The running item's messages loaded, before their credits return (R38). -/
def State.loadBytes (s : State) (back : Bool) (new rest : List ActMsg) : State :=
  let loaded := ({ s with job := { s.job with inLoaded := s.job.inLoaded + (new.flatMap (·.bytes)).length } } : State).setInbound
    back rest
  (loaded.putQueue (inboundKind back) s.job.inLoaded new).putQueue (inboundKind back) loaded.job.inLoaded rest

theorem loadIn_eq (s : State) (back : Bool) (mb : Nat) : s.loadIn back mb =
    let new := (s.inbound back).filter (fun m => m.mb == mb)
    let loaded := s.loadBytes back new ((s.inbound back).filter (fun m => m.mb != mb))
    match loaded.feeder back with
    | some d => if new.isEmpty then loaded else loaded.grantCredit d back new.length
    | none => loaded := by
  cases back
  · rfl
  · rfl

theorem loadBytes_spec {new rest : List ActMsg} {b : List Byte} (hb : new.flatMap (·.bytes) = b)
    (hregion : s.region (inboundKind back) 0xFFFF = some g) (hfits : s.job.inLoaded + b.length ≤ g.length) :
    (s.loadBytes back new rest).memBytes (g.addr + s.job.inLoaded) b.length = b ∧
    (s.loadBytes back new rest).job.inLoaded = s.job.inLoaded + b.length ∧ (s.loadBytes back new rest).inbound back = rest := by
  unfold State.loadBytes
  rw [hb]
  extract_lets job loaded
  have hsite : SameSite s loaded := (sameSite_job s _).trans (sameSite_setInbound ..)
  obtain ⟨hqueue, hcount⟩ : loaded.inbound back = rest ∧ loaded.job.inLoaded = s.job.inLoaded + b.length := by
    obtain ⟨hqueue, -, hcount, -⟩ :=
      setInbound_spec { s with job := { s.job with inLoaded := s.job.inLoaded + b.length } } back rest
    exact ⟨hqueue, hcount⟩
  have hregion' : loaded.region (inboundKind back) 0xFFFF = some g := (hsite.region ..).trans hregion
  have hstands := memBytes_putQueue (pos := s.job.inLoaded) (q := new) (b := b) hregion'
    (by rw [hb, List.take_of_length_le (by omega)])
  have hplaced := sameSite_putQueue loaded (inboundKind back) s.job.inLoaded new
  have hbefore := memBytes_putQueue_before (pos := loaded.job.inLoaded) rest (a := g.addr + s.job.inLoaded) (n := b.length)
    ((hplaced.region ..).trans hregion') (by omega)
  rw [State.inbound, job_putQueue, job_putQueue]
  exact ⟨hbefore.trans hstands, hcount, hqueue⟩

/-- What a load of the running item's messages leaves: they stand behind those loaded before, and out of their queue (R38). -/
theorem loadIn_spec {mb : Nat} {new rest : List ActMsg} {b : List Byte}
    (hnew : (s.inbound back).filter (fun m => m.mb == mb) = new) (hrest : (s.inbound back).filter (fun m => m.mb != mb) = rest)
    (hb : new.flatMap (·.bytes) = b) (hregion : s.region (inboundKind back) 0xFFFF = some g)
    (hfits : s.job.inLoaded + b.length ≤ g.length) :
    (s.loadIn back mb).memBytes (g.addr + s.job.inLoaded) b.length = b ∧
    (s.loadIn back mb).job.inLoaded = s.job.inLoaded + b.length ∧ (s.loadIn back mb).inbound back = rest := by
  have hspec := loadBytes_spec (rest := rest) hb hregion hfits
  rw [loadIn_eq, hnew, hrest]
  extract_lets new' loaded
  have hsent {ms : List Msg} {u : State} (h : Messaged ms loaded u) : u.memBytes (g.addr + s.job.inLoaded) b.length = b ∧
      u.job.inLoaded = s.job.inLoaded + b.length ∧ u.inbound back = rest := by
    obtain ⟨hmem, -, -, -, hjob, -⟩ := h.frame
    simp only [State.memBytes, State.inbound, hmem, hjob]
    exact hspec
  split
  · split
    · exact hspec
    · obtain ⟨ms, hms⟩ := messaged_sendCtrl loaded _ _ _ _
      exact hsent hms
  · exact hspec

/-! ### The command -/

theorem exec_activationMessage_discarded (hon : s.power.on = true) {mb tensor off : Nat} {bs : List Byte}
    (hnone : s.job.rolling.isSome = true ∨ s.feeder back = none ∨ s.roomIn back bs.length = false) :
    exec (.activationMessage back mb tensor off bs) s = .next s := by
  change execActivationMessage back mb tensor off bs s = _
  unfold execActivationMessage
  refine act_eq hon (if_pos ?_) rfl rfl rfl
  rcases hnone with h | h | h <;> simp [h]

theorem exec_activationMessage (hrolling : s.job.rolling = none) (hfeeder : (s.feeder back).isSome = true)
    (mb tensor off : Nat) {bs : List Byte} (hroom : s.roomIn back bs.length = true) :
    exec (.activationMessage back mb tensor off bs) s = act s fun s =>
      let q := s.inbound back ++ [{ mb, tensor, off, bytes := bs }]
      if s.job.item.isSome && s.itemBack == back && s.itemMb == mb then (s.setInbound back q).loadIn back mb
      else (s.setInbound back q).putQueue (inboundKind back) (s.loadedIn back) q := by
  change execActivationMessage back mb tensor off bs s = _
  unfold execActivationMessage
  refine act_congr ?_
  rw [if_neg (by simp [hrolling, hroom, Option.isSome_iff_ne_none.mp hfeeder])]
  generalize s.inbound back ++ [({ mb, tensor, off, bytes := bs } : ActMsg)] = q
  obtain ⟨-, hloaded, -, hjob⟩ := setInbound_spec s back q
  have hitem : (s.setInbound back q).job.item = s.job.item := congrArg (·.item) hjob
  rw [← hloaded, State.itemBack, State.itemMb, ← hitem]
  rfl

theorem exec_activationMessage_queued (hon : s.power.on = true) (hrolling : s.job.rolling = none)
    (hfeeder : (s.feeder back).isSome = true) {mb tensor off : Nat} {bs b : List Byte} (hroom : s.roomIn back bs.length = true)
    (hlater : s.job.item = none ∨ s.itemBack ≠ back ∨ s.itemMb ≠ mb) (hregion : s.region (inboundKind back) 0xFFFF = some g)
    (hb : b = ((s.inbound back).flatMap (·.bytes) ++ bs).take (g.length - s.loadedIn back)) :
    ∃ t, exec (.activationMessage back mb tensor off bs) s = .next t ∧
      t.inbound back = s.inbound back ++ [({ mb, tensor, off, bytes := bs } : ActMsg)] ∧
      t.memBytes (g.addr + s.loadedIn back) b.length = b ∧
      t.fld F.HUB_QFWD_IN = min t.job.fin.length 0xFFFF ∧ t.fld F.HUB_QBWD_IN = min t.job.bin.length 0xFFFF ∧
      t = { s with regs := t.regs, msix := t.msix, mem := t.mem, job := { s.job with fin := t.job.fin, bin := t.job.bin } } := by
  have hother : ¬ (s.job.item.isSome && s.itemBack == back && s.itemMb == mb) = true := by
    rcases hlater with h | h | h <;> simp [h]
  rw [exec_activationMessage hrolling hfeeder mb tensor off hroom]
  generalize hq : s.inbound back ++ [({ mb, tensor, off, bytes := bs } : ActMsg)] = q
  refine act_next hon fun t ht => ?_
  rw [if_neg hother, hq] at ht
  obtain ⟨hqueue, -, -, hjob⟩ := setInbound_spec s back q
  have hstands := memBytes_putQueue (s := s.setInbound back q) (pos := s.loadedIn back) (q := q) (b := b)
    (((sameSite_setInbound ..).region ..).trans hregion) (by rw [hb, ← hq]; simp)
  obtain ⟨hforward, hbackward⟩ := fld_setInbound s back q
  have hqueued := ht.job
  rw [job_putQueue] at hqueued
  refine ⟨?_, (ht.memBytes ..).trans hstands, ?_, ?_, ?_⟩
  · rw [State.inbound, hqueued]
    exact hqueue
  · rw [hqueued, ht.fld, fld_putQueue]
    exact hforward
  · rw [hqueued, ht.fld, fld_putQueue]
    exact hbackward
  · obtain ⟨m, hm⟩ := putQueue_only (s.setInbound back q) (inboundKind back) (s.loadedIn back) q
    obtain ⟨r, hr⟩ := setInbound_only s back q
    rw [hm, hr] at ht
    rw [hr] at hjob
    obtain ⟨n, rfl⟩ := ht
    exact congrArg (fun j => ({ s with regs := r, msix := _, mem := m, job := j } : State)) hjob

theorem exec_activationMessage_loaded (hon : s.power.on = true) (hrolling : s.job.rolling = none)
    (hfeeder : (s.feeder back).isSome = true) {mb tensor off : Nat} {bs : List Byte} (hroom : s.roomIn back bs.length = true)
    (hruns : s.job.item.isSome = true) (hback : s.itemBack = back) (hmb : s.itemMb = mb) (hnone : ∀ m ∈ s.inbound back, m.mb ≠ mb)
    (hregion : s.region (inboundKind back) 0xFFFF = some g) (hfits : s.job.inLoaded + bs.length ≤ g.length) :
    ∃ t, exec (.activationMessage back mb tensor off bs) s = .next t ∧
      t.memBytes (g.addr + s.job.inLoaded) bs.length = bs ∧ t.job.inLoaded = s.job.inLoaded + bs.length ∧
      t.inbound back = s.inbound back := by
  rw [exec_activationMessage hrolling hfeeder mb tensor off hroom]
  refine act_next hon fun t ht => ?_
  rw [if_pos (by simp [hruns, hback, hmb])] at ht
  generalize hm : ({ mb, tensor, off, bytes := bs } : ActMsg) = m at ht
  have hitem : m.mb = mb := by rw [← hm]
  obtain ⟨hqueue, -, hcount, -⟩ := setInbound_spec s back (s.inbound back ++ [m])
  have hspec := loadIn_spec (s := s.setInbound back (s.inbound back ++ [m])) (mb := mb) (new := [m]) (rest := s.inbound back)
    (b := bs) (by rw [hqueue, List.filter_append]; simpa [hitem] using hnone)
    (by rw [hqueue, List.filter_append]; simpa [hitem] using hnone) (by simp [← hm])
    (((sameSite_setInbound ..).region ..).trans hregion) (by rwa [hcount])
  rw [hcount] at hspec
  rw [State.inbound, ht.job, ht.memBytes]
  exact hspec

end Sys2Proof.Machine
end

section
/-! SUPPORT. CREDIT_RETURN (R411): credits, and a waiting message that goes with one.
-/

namespace Sys2Proof.Machine

variable {s t u v : State} {back : Bool} {m : ActMsg} {ms : List ActMsg}

/-! ### What the operations on the outbound queues keep (R410, R411) -/

/-- From s to u no message left, and the device is where it was in the job. -/
structure Unsent (s u : State) : Prop extends SameSite s u where
  sent : u.sent = s.sent

theorem Unsent.trans (h : Unsent s u) (h' : Unsent u v) : Unsent s v :=
  ⟨h.toSameSite.trans h'.toSameSite, h'.sent.trans h.sent⟩

theorem Unsent.numbered (h : Unsent s u) : u.flag F.FAB_DEVNUM_VALID = s.flag F.FAB_DEVNUM_VALID := by
  rw [State.flag, h.dev _ rfl, State.flag]

theorem unsent_job (s : State) (j : Job) : Unsent s { s with job := j } := ⟨sameSite_job s j, rfl⟩

theorem unsent_setFld {f : Fld} (k : Nat) (h : f.off ≠ R.FAB_DEVNUM) : Unsent s (s.setFld f k) :=
  ⟨sameSite_setFld k h, by simp⟩

theorem unsent_queueDepths (s : State) : Unsent s s.queueDepths := by
  obtain ⟨r, hr⟩ := queueDepths_only s
  exact ⟨sameSite_queueDepths s, by rw [hr]⟩

theorem unsent_putQueue (s : State) (kind pos : Nat) (q : List ActMsg) : Unsent s (s.putQueue kind pos q) := by
  obtain ⟨m, hm⟩ := putQueue_only s kind pos q
  exact ⟨sameSite_putQueue s kind pos q, by rw [hm]⟩

/-- Credits of a direction replaced, but for their register (R411). -/
def State.withCredit (s : State) (back : Bool) (n : Nat) : State :=
  { s with job := if back then { s.job with creditB := n } else { s.job with creditF := n } }

theorem putCredit_eq (s : State) (back : Bool) (n : Nat) :
    s.putCredit back n = (s.withCredit back n).setFld (creditFld back) (min n 0xFFFF) := rfl

@[simp] theorem job_putCredit (s : State) (back : Bool) (n : Nat) : (s.putCredit back n).job = (s.withCredit back n).job := by
  rw [putCredit_eq]
  simp

theorem withCredit_spec (s : State) (back : Bool) (n : Nat) : (s.withCredit back n).credit back = n ∧
    (s.withCredit back n).credit (!back) = s.credit (!back) ∧ (s.withCredit back n).outbound back = s.outbound back ∧
    (s.withCredit back n).nextOut back = s.nextOut back := by
  cases back
  · exact ⟨rfl, rfl, rfl, rfl⟩
  · exact ⟨rfl, rfl, rfl, rfl⟩

theorem putCredit_spec (s : State) (back : Bool) (n : Nat) : (s.putCredit back n).credit back = n ∧
    (s.putCredit back n).outbound back = s.outbound back ∧ (s.putCredit back n).nextOut back = s.nextOut back := by
  obtain ⟨hcredit, -, hqueue, hnext⟩ := withCredit_spec s back n
  have hjob := job_putCredit s back n
  refine ⟨?_, ?_, ?_⟩
  · rw [State.credit, hjob]
    exact hcredit
  · rw [State.outbound, hjob]
    exact hqueue
  · rw [← hnext]
    unfold State.nextOut State.itemBack State.itemMb
    rw [hjob]

theorem unsent_putCredit (s : State) (back : Bool) (n : Nat) : Unsent s (s.putCredit back n) := by
  have hoff : (creditFld back).off ≠ R.FAB_DEVNUM := by cases back <;> decide
  exact (unsent_job s _).trans (unsent_setFld _ hoff)

@[simp] theorem job_queueDepths (s : State) : s.queueDepths.job = s.job := by
  obtain ⟨r, hr⟩ := queueDepths_only s
  rw [hr]

theorem putOutbound_spec (s : State) (back : Bool) (q : List ActMsg) : (s.putOutbound back q).outbound back = q ∧
    (s.putOutbound back q).credit back = s.credit back ∧ Unsent s (s.putOutbound back q) := by
  have hjob : (s.putOutbound back q).job = if back then { s.job with bout := q } else { s.job with fout := q } := by
    rw [State.putOutbound, job_putQueue, job_queueDepths]
  refine ⟨?_, ?_, (unsent_job s _).trans ((unsent_queueDepths _).trans (unsent_putQueue ..))⟩
  · rw [State.outbound, hjob]
    cases back
    · rfl
    · rfl
  · rw [State.credit, hjob]
    cases back
    · rfl
    · rfl

theorem creditWaitEnd_spec (s : State) (back : Bool) : (s.creditWaitEnd back).credit back = s.credit back ∧
    Unsent s (s.creditWaitEnd back) := by
  unfold State.creditWaitEnd
  split
  · next since _ =>
    extract_lets job ended
    have hended : Unsent s ended := unsent_job s _
    refine ⟨?_, hended.trans ⟨sameSite_bumpPair _ (by decide) (by decide), by simp⟩⟩
    simp only [State.credit, bumpPair_frame]
    cases back
    · rfl
    · rfl
  · exact ⟨rfl, ⟨⟨rfl, fun _ _ => rfl⟩, rfl⟩⟩

/-! ### A message that goes (R411) -/

/-- The device once a message has left the head of its queue, with a credit (R411, R413). -/
def State.takeOut (s : State) (back : Bool) (m : ActMsg) (ms : List ActMsg) : State :=
  let here := s.job.item.isSome && s.itemBack == back && s.itemMb == m.mb
  let s : State := if here then { s with job := { s.job with outSent := s.job.outSent + m.bytes.length } } else s
  ((s.creditWaitEnd back).putCredit back (s.credit back - 1)).putOutbound back ms

theorem flushOut_goes (fuel : Nat) (hqueue : s.outbound back = m :: ms) (hnext : s.nextOut back m = true)
    (hcredit : s.credit back ≠ 0) : s.flushOut (fuel + 1) back =
      State.flushOut fuel ((s.takeOut back m ms).sendOn m.dest 3 (b2n back) m.payload) back := by
  rw [State.flushOut, hqueue]
  dsimp only
  rw [if_neg (by simp [hnext]), if_neg hcredit]
  rfl

theorem flushOut_none (fuel : Nat) (hqueue : s.outbound back = []) : s.flushOut fuel back = s := by
  cases fuel with
  | zero => rfl
  | succ n => rw [State.flushOut, hqueue]

theorem takeOut_spec (s : State) (back : Bool) (m : ActMsg) (ms : List ActMsg) : (s.takeOut back m ms).outbound back = ms ∧
    (s.takeOut back m ms).credit back = s.credit back - 1 ∧ Unsent s (s.takeOut back m ms) := by
  unfold State.takeOut
  extract_lets here job counted
  obtain ⟨hcredit, hkept⟩ : counted.credit back = s.credit back ∧ Unsent s counted := by
    dsimp only [counted]
    split
    · exact ⟨rfl, unsent_job s _⟩
    · exact ⟨rfl, unsent_job s s.job⟩
  obtain ⟨-, hended⟩ := creditWaitEnd_spec counted back
  obtain ⟨hpaid, -⟩ := putCredit_spec (counted.creditWaitEnd back) back (counted.credit back - 1)
  have hpay := unsent_putCredit (counted.creditWaitEnd back) back (counted.credit back - 1)
  obtain ⟨hqueue, hheld, hleft⟩ :=
    putOutbound_spec ((counted.creditWaitEnd back).putCredit back (counted.credit back - 1)) back ms
  exact ⟨hqueue, hheld.trans (hpaid.trans (congrArg (· - 1) hcredit)), hkept.trans (hended.trans (hpay.trans hleft))⟩

/-! ### The command -/

theorem exec_creditReturn (s : State) (back : Bool) (n : Nat) : exec (.creditReturn back n) s =
    act s fun s => (s.putCredit back (s.credit back + n)).flushOut ((s.outbound back).length + 1) back := rfl

theorem exec_creditReturn_held (hon : s.power.on = true) (hqueue : s.outbound back = []) (n : Nat) :
    ∃ t, exec (.creditReturn back n) s = .next t ∧ t.credit back = s.credit back + n ∧ t.credit (!back) = s.credit (!back) ∧
      Changes { s with job := { s.job with creditF := t.job.creditF, creditB := t.job.creditB } } t
        [(creditFld back, min (s.credit back + n) 0xFFFF)] := by
  obtain ⟨hcredit, hother, hqueued, -⟩ := withCredit_spec s back (s.credit back + n)
  rw [exec_creditReturn]
  refine act_next hon fun t ht => ?_
  have hempty : (s.putCredit back (s.credit back + n)).outbound back = [] := (putCredit_spec ..).2.1.trans hqueue
  rw [flushOut_none _ hempty] at ht
  have hjob : t.job = (s.withCredit back (s.credit back + n)).job := ht.job.trans (job_putCredit ..)
  have hset : ({ s with job := { s.job with creditF := t.job.creditF, creditB := t.job.creditB } } : State) =
      s.withCredit back (s.credit back + n) := by
    rw [hjob]
    cases back
    · rfl
    · rfl
  have hbecame : Became (s.withCredit back (s.credit back + n)) (setAll (s.withCredit back (s.credit back + n))
      [(creditFld back, min (s.credit back + n) 0xFFFF)]) t := ht
  rw [hset]
  refine ⟨?_, ?_, hbecame.changes (by cases back <;> simp [Apart, creditFld])⟩
  · rw [State.credit, hjob]
    exact hcredit
  · rw [State.credit, hjob]
    exact hother

theorem exec_creditReturn_goes (hon : s.power.on = true) (hqueue : s.outbound back = [m]) (hnext : s.nextOut back m = true)
    (hcredit : s.credit back = 0) (hnumbered : s.flag F.FAB_DEVNUM_VALID = true) :
    ∃ t, exec (.creditReturn back 1) s = .next t ∧ ∃ u : Msg, t.outbound back = [] ∧ t.credit back = 0 ∧
      t.sent = s.sent ++ [u] ∧ u.dest = m.dest ∧ u.cls = 3 ∧ u.payload = m.payload := by
  rw [exec_creditReturn]
  refine act_next hon fun t ht => ?_
  obtain ⟨hheld, hqueued, hnext'⟩ := putCredit_spec s back (s.credit back + 1)
  have hkept := unsent_putCredit s back (s.credit back + 1)
  generalize s.putCredit back (s.credit back + 1) = held at ht hheld hqueued hnext' hkept
  obtain ⟨hempty, hspent, hleft⟩ := takeOut_spec held back m []
  obtain ⟨ms, hsent, hone⟩ := messaged_sendOn (s := held.takeOut back m []) m.dest 3 (b2n back) m.payload
  obtain ⟨u, rfl, hu⟩ := hone ((hkept.trans hleft).numbered.trans hnumbered)
  obtain ⟨-, -, -, -, hjob, -, -, -, hms⟩ := hsent.frame
  have hnone : ((held.takeOut back m []).sendOn m.dest 3 (b2n back) m.payload).outbound back = [] := by
    rw [State.outbound, hjob]
    exact hempty
  rw [flushOut_goes _ (hqueued.trans hqueue) (by rw [hnext', hnext]) (by omega), flushOut_none _ hnone] at ht
  refine ⟨u, ?_, ?_, ?_, hu⟩
  · rw [State.outbound, ht.job]
    exact hnone
  · rw [State.credit, ht.job, hjob]
    exact hspent.trans (by omega)
  · rw [ht.sent, hms, (hkept.trans hleft).sent]

end Sys2Proof.Machine
end

section
/-! What arrives for the next step (R38, R380, R383, R408 to R415, R591, R592) settled.
-/

open Sys2Proof Sys2Proof.Machine

/-- Settles O48. A returned value goes into one copy or waits for the swap; READYs are compared one by one with the loaded
charter; and an activation message, or a credit, changes its queue and what stands of it in memory. -/
theorem stepInputs : Obligations.StepInputs := by
  unfold Obligations.StepInputs
  refine ⟨?discarded, ?frame, ?weight, ?kept, ?elsewhere, ?root, ?early, ?rolling, ?noRoom, ?queued, ?loaded, ?held, ?goes⟩
  case discarded => exact fun s p hon hrolling => exec_parameterMessage_discarded hon hrolling p
  case frame => exact fun s p hon hrolling => exec_parameterMessage_frame hon hrolling p
  case weight =>
    intro s p pl step param b hon hrolling hone hstep hparam hholder hb
    refine ⟨fun hrefused => ?_, fun htakes hstart => ?_⟩
    · exact exec_parameterMessage_refused hon hrolling hone hstep hparam hholder (hb ▸ hrefused)
    · obtain ⟨t, hexec, hmem, hlast⟩ := exec_parameterMessage_taken hon hrolling hone hstep hparam hholder hb htakes hstart
      exact ⟨t, hexec, hmem, fun hall _ => hlast hall⟩
  case kept =>
    intro s p step param hon hrolling hone hstep hparam hnone hlater
    exact exec_parameterMessage_waits hon hrolling hone hstep hparam hnone hlater
  case elsewhere =>
    intro s id crc source hon hloaded helsewhere
    exact ⟨exec_ready_ignored hon hloaded helsewhere, exec_ready_ofRoot hon hloaded helsewhere⟩
  case root =>
    intro s id crc source hon hloaded hroot hwaits hsource hc
    exact ⟨exec_ready_mismatch hon hloaded hroot hwaits hsource hc, exec_ready_last hon hloaded hroot hwaits hsource hc⟩
  case early =>
    rintro s id crc source k hon hearly rfl
    exact exec_ready_early hon hearly id crc source
  case rolling => exact fun s back mb tensor off bs hon hrolling => exec_activationMessage_discarded hon (.inl hrolling)
  case noRoom => exact fun s back mb tensor off bs hon hnone => exec_activationMessage_discarded hon (.inr hnone)
  case queued =>
    intro s back mb tensor off bs b g hon hrolling hfeeder hroom hlater hregion hb
    exact exec_activationMessage_queued hon hrolling hfeeder hroom hlater hregion hb
  case loaded =>
    intro s back mb tensor off bs g hon hrolling hfeeder hroom hruns hback hmb hnone hregion hfits
    exact exec_activationMessage_loaded hon hrolling hfeeder hroom hruns hback hmb hnone hregion hfits
  case held => exact fun s back n hon hqueue => exec_creditReturn_held hon hqueue n
  case goes =>
    intro s back m hon hqueue hnext hcredit hnumbered
    obtain ⟨t, hexec, u, hrest⟩ := exec_creditReturn_goes hon hqueue hnext hcredit hnumbered
    exact ⟨t, u, hexec, hrest⟩

end
